-- ==== Sys2Proof/Word.lean ====
section
/-! DEFINITION. The word types of the machine and the plainest arithmetic on them (00_scope R5). -/

namespace Sys2Proof

/-- A 64-bit word of either plane. -/
abbrev Word := BitVec 64
/-- A byte of memory (R5). -/
abbrev Byte := BitVec 8
/-- A 256-byte vector register (06_vector R152); byte `j` is bits `8j+7 .. 8j`. -/
abbrev VReg := BitVec 2048
/-- A lane mask or vector predicate (R152); bit `j` belongs to byte `j`. -/
abbrev Mask := BitVec 256
/-- A six-bit flag group in the layout of 02_numbers R39. -/
abbrev Flags := BitVec 6

end Sys2Proof
end

