-- ==== Sys2Proof/Machine/Maps.lean ====
section
/-! DEFINITION. Byte memories and sparse tables as sorted lists. A memory lists no zero byte, so equal memories are equal lists; an
unlisted address reads zero (log entry 2). -/

namespace Sys2Proof.Machine

open Sys2Proof

/-- A byte memory: addresses strictly rising, no zero byte listed. -/
abbrev Memory := List Host.Cell

/-- The canonical form of a memory. -/
def Memory.wf (m : Memory) : Bool :=
  match m with
  | [] => true
  | [c] => c.2 != 0
  | c :: d :: m => c.2 != 0 && decide (c.1 < d.1) && Memory.wf (d :: m)

/-- The byte at an address. -/
def Memory.get (m : Memory) (a : Nat) : Byte :=
  match m with
  | [] => 0
  | c :: m => if c.1 == a then c.2 else Memory.get m a

/-- The listed bytes of `a .. a + n - 1`. -/
def Memory.slice (m : Memory) (a n : Nat) : Memory := m.filter (fun c => decide (a ≤ c.1) && decide (c.1 < a + n))

/-- The cells of consecutive bytes from `a` on, zeros left out. -/
def Memory.cells (a : Nat) : List Byte → Memory
  | [] => []
  | b :: bs => if b == 0 then Memory.cells (a + 1) bs else (a, b) :: Memory.cells (a + 1) bs

/-- Replace the range `a .. a + n - 1` by cells that lie in it. -/
def Memory.splice (m : Memory) (a n : Nat) (cs : Memory) : Memory :=
  m.filter (fun c => decide (c.1 < a)) ++ cs ++ m.filter (fun c => decide (a + n ≤ c.1))

/-- Write consecutive bytes. -/
def Memory.put (m : Memory) (a : Nat) (bs : List Byte) : Memory := m.splice a bs.length (Memory.cells a bs)

/-- Move cells by an offset. -/
def Memory.shift (m : Memory) (src dst : Nat) : Memory := m.map (fun c => (c.1 - src + dst, c.2))

/-- Copy a range inside one memory or between two. -/
def Memory.copyFrom (m from' : Memory) (src dst n : Nat) : Memory := m.splice dst n ((from'.slice src n).shift src dst)

/-- Consecutive bytes. -/
def Memory.bytes (m : Memory) (a : Nat) : Nat → List Byte
  | 0 => []
  | n + 1 => m.get a :: Memory.bytes m (a + 1) n

/-- Little-endian number of `n` bytes (R5). -/
def Memory.num (m : Memory) (a n : Nat) : Nat := (m.slice a n).foldl (fun x c => x + c.2.toNat * 2 ^ (8 * (c.1 - a))) 0

/-- The `n` little-endian bytes of a number. -/
def leBytes : Nat → Nat → List Byte
  | _, 0 => []
  | x, n + 1 => BitVec.ofNat 8 x :: leBytes (x / 256) n

/-- Write a number in `n` little-endian bytes. -/
def Memory.putNum (m : Memory) (a n x : Nat) : Memory := m.put a (leBytes x n)

/-- Write the bytes of `x` whose mask bit is set (R139, STVM; R156). -/
def Memory.putMasked (m : Memory) (a n x mask : Nat) : Memory :=
  let old := m.num a n
  let rec sel : Nat → Nat → Nat → Nat → List Byte
    | 0, _, _, _ => []
    | k + 1, o, x, mk => (if mk % 2 == 1 then BitVec.ofNat 8 x else BitVec.ofNat 8 o) :: sel k (o / 256) (x / 256) (mk / 2)
  m.put a (sel n old x mask)

/-- A table from numbers to entries, keys strictly rising. -/
abbrev Table (α : Type) := List (Nat × α)

def Table.get? {α : Type} (t : Table α) (k : Nat) : Option α :=
  match t with
  | [] => none
  | c :: t => if c.1 == k then some c.2 else Table.get? t k

def Table.getD {α : Type} (t : Table α) (k : Nat) (d : α) : α := (t.get? k).getD d

def Table.set {α : Type} (t : Table α) (k : Nat) (v : α) : Table α :=
  match t with
  | [] => [(k, v)]
  | c :: t => if c.1 < k then c :: Table.set t k v else if c.1 == k then (k, v) :: t else (k, v) :: c :: t

def Table.erase {α : Type} (t : Table α) (k : Nat) : Table α := t.filter (fun c => c.1 != k)

/-- Keys in order. -/
def Table.keys {α : Type} (t : Table α) : List Nat := t.map (·.1)

/-- A set of numbers in rising order. -/
def insertNat (k : Nat) : List Nat → List Nat
  | [] => [k]
  | c :: t => if c < k then c :: insertNat k t else if c == k then c :: t else k :: c :: t

end Sys2Proof.Machine
end

