-- ==== Sys2Proof/Machine/Crc.lean ====
section
/-! DEFINITION. The CRC-64 of page checks, seal records, tiles and save images (13_proof R394). -/

namespace Sys2Proof.Machine

open Sys2Proof

/-- One bit of the check. -/
def crcBit (c : Word) : Word := if c.getLsbD 0 then (c >>> 1) ^^^ 0xC96C5795D7870F42 else c >>> 1

/-- One byte of the check. -/
def crcByte (c : Word) (b : Byte) : Word :=
  crcBit (crcBit (crcBit (crcBit (crcBit (crcBit (crcBit (crcBit (c ^^^ b.setWidth 64))))))))

def crcFrom (c : Word) (bs : List Byte) : Word := bs.foldl crcByte c

/-- Crc64 of R394. -/
def crc64 (bs : List Byte) : Word := crcFrom (BitVec.allOnes 64) bs ^^^ BitVec.allOnes 64

/-- Bytes of a word, lowest first. -/
def wordBytes (w : Word) : List Byte := leBytes w.toNat 8

end Sys2Proof.Machine
end

