-- ==== Sys2Proof/Syntax.lean ====
section
/-! DEFINITION. The steps of the machine: one constructor of `Instr` for each row of opcode_table.json. A slot instruction
carries its gate (03_encoding R66) and the fields of its operand form (R68); a barrel instruction's
fields are the `BarrelWord` the issue stage latches beside it (R78, log entry 8);
a mailbox command the fields of 16_host R460; a machine event the agent it concerns. -/

namespace Sys2Proof

/-- The outer fields of a slot besides opcode and operand (03_encoding R66). -/
structure Gate where
  iter  : BitVec 2
  guard : BitVec 4
  deriving DecidableEq, Repr

/-- Operand form A (R68). -/
structure FormA where
  d    : BitVec 6
  a    : BitVec 6
  b    : BitVec 6
  c    : BitVec 6
  type : BitVec 5
  rnd  : BitVec 3
  sat  : BitVec 1
  wcls : BitVec 2
  func : BitVec 10
  deriving DecidableEq, Repr

/-- Operand form B (R68). -/
structure FormB where
  d   : BitVec 6
  a   : BitVec 6
  imm : BitVec 33
  deriving DecidableEq, Repr

/-- Operand form C (R68). -/
structure FormC where
  data   : BitVec 6
  base   : BitVec 4
  space  : BitVec 2
  offset : BitVec 22
  wcls   : BitVec 2
  type   : BitVec 5
  func   : BitVec 4
  deriving DecidableEq, Repr

/-- Operand form D (R68). -/
structure FormD where
  target : BitVec 24
  cond   : BitVec 6
  func   : BitVec 15
  deriving DecidableEq, Repr

/-- Operand form E (R68). -/
structure FormE where
  f1   : BitVec 6
  f2   : BitVec 6
  f3   : BitVec 6
  f4   : BitVec 6
  tag  : BitVec 5
  func : BitVec 16
  deriving DecidableEq, Repr

/-- The fields of a barrel word besides its opcode (R78). -/
structure BarrelWord where
  d   : BitVec 8
  a   : BitVec 8
  b   : BitVec 8
  imm : BitVec 32
  deriving DecidableEq, Repr

/-- The fields of a mailbox command besides its opcode (16_host R460): word 0's fields, word 1, and words 2 .. 7. -/
structure MailboxCommand where
  tag      : BitVec 16
  reserved : BitVec 15
  phys     : BitVec 1
  ctx      : BitVec 16
  len      : BitVec 8
  word1    : BitVec 64
  data     : BitVec 384
  deriving DecidableEq, Repr

/-- What a timed-link beat carries between packages (14_fabric R437). -/
inductive BeatBody where
  /-- A piece of a package's partial of a collective: the gang size, the records' words 0, 2 and 3, the partial's length, the piece's
  offset in it and its bytes, at most 64, and the partial's flags (R437, R446, R450). -/
  | partialResult (ctx gang id rank size : Nat) (attempt : BitVec 16) (words : List Word) (total offset : Nat) (bytes : List Byte)
      (flags : Flags)
  /-- A mirrored proof line of the package at a domain position, with the sender's number for it (13_proof R392). -/
  | mirrorLine (sender number : Nat) (address : Nat) (data : BitVec 512)
  /-- The partner keeper's acknowledgement of the mirrored line of a number (R392). -/
  | mirrorAck (number : Nat)
  /-- A neighbour's TICK when the beat was sent (09_windows R251). -/
  | counter (tick : BitVec 64)
  /-- Another package's arrival at a domain barrier (R268). -/
  | domainArrival (gang barrier position : Nat) (tick : BitVec 64)
  /-- An abort token (14_fabric R449). -/
  | abort (ctx id : Nat) (attempt : BitVec 16)
  deriving DecidableEq, Repr

/-- A beat and the domain position it is bound for (14_fabric R438). -/
structure Beat where
  destination : Nat
  /-- The sender's TICK when it was sent. -/
  sent        : BitVec 64
  body        : BeatBody
  deriving DecidableEq, Repr

/-- A message between packages as 14_fabric R441 gives it. -/
structure RemoteMessage where
  sender   : BitVec 64
  position : Nat
  cell     : Nat
  thread   : Nat
  ctx      : Nat
  job      : BitVec 24
  words    : List Word
  deriving DecidableEq, Repr

/-- The steps of the machine, one per row of opcode_table.json, those with operands first, each part in the table's order. -/
inductive Instr where
  /-- GROUP_ISSUE (R73): The sequencer issues a fetched group once every interlock and wait evaluated before its first bundle has cleared, one bundle per tick. -/
  | groupIssue (cell : Nat)
  /-- RESULT_LANDING (R119): An in-flight result lands in its register, latch, predicate, mask or tile at its scheduled tick, the later-issued one remaining. -/
  | resultLanding (cell : Nat)
  /-- HANDLER_START (R146): After the drain, the handler's first group issues at TVEC at the later of the trap tick plus one and the last landing. -/
  | handlerStart (cell : Nat)
  /-- TIMED_CORE_STOP (R145): A core stopping by the trap path finishes its drain, closes its windows as absent and posts a timed-stop message. -/
  | timedCoreStop (cell : Nat)
  /-- HALT_COMPLETE (R138): Once results, accesses, tagged copies and remote counts have drained, a halted core stops or traps if a refusal bit is set. -/
  | haltComplete (cell : Nat)
  /-- PREEMPTION_LANDING (R148): A pending pre-emption request lands at an admissible iteration end, YIELD or waiting group, closing the windows as absent. -/
  | preemptionLanding (cell : Nat)
  /-- CONTEXT_IMAGE_SAVE (R149): After the pre-emption waits end, the core writes its context image to PSAV and counts as pre-empted. -/
  | contextImageSave (cell : Nat)
  /-- SCHEDULE_ENTRY_WRITE (R253): Context 0 writes a whole schedule-table entry, which is armed or refused with result 2. -/
  | scheduleEntryWrite (plate : Nat) (index : Nat) (entry : BitVec 512)
  /-- SCHEDULE_LAUNCH (R27): An armed launch entry reaches its tick and starts every named core all or nothing, or fails with a launch-refused message. -/
  | scheduleLaunch (plate : Nat) (index : Nat)
  /-- SCHEDULE_RESUME (R256): An armed resume entry reaches its tick and restores each member's image, realigning its ticks by RSHIFT. -/
  | scheduleResume (plate : Nat) (index : Nat)
  /-- SCHEDULE_PREEMPT (R255): An armed pre-empt entry reaches its tick and sends a pre-emption request to every named core, or is refused. -/
  | schedulePreempt (plate : Nat) (index : Nat)
  /-- WINDOW_CLOSE (R262): A window reaches its declared close tick and closes as a hit or a miss, taking its miss action. -/
  | windowClose (cell : Nat) (window : Nat)
  /-- WINDOW_REDIRECT (R264): After a br miss, the first group due at or after the close tick is skipped into WRPC and the group at WTGTn issues. -/
  | windowRedirect (cell : Nat)
  /-- WINDOW_ACCESS_ARRIVAL (R261): A WLD, WST or WPOST arrives at the target side port or post registers and is accepted or refused by its arrival tick. -/
  | windowAccessArrival (request : Nat)
  /-- BARRIER_RELEASE (R267): When every live member has arrived, each waiting member issues its BAR group at the arrival tick plus 8. -/
  | barrierRelease (plate : Nat) (gang : Nat) (barrier : Nat)
  /-- BARRIER_TIMEOUT (R277): A BAR with a timeout that has not released after s[t] ticks withdraws the core's arrival and traps with barrier-timeout. -/
  | barrierTimeout (cell : Nat)
  /-- DOMAIN_BARRIER_RELEASE (R268): Each package's members issue their BAR group when TICK reaches the maximum arrival plus DOMLAT. -/
  | domainBarrierRelease (plate : Nat) (gang : Nat) (barrier : Nat)
  /-- REALIGN_TIMEOUT (R136): A core waiting at REALIGN is released after s[a] ticks with bit 63 of s[d] set. -/
  | realignTimeout (cell : Nat)
  /-- MATRIX_COMMAND_END (R194): A matrix command reaches its clear offsets, releasing its busy bits and raising its flags, residue and format faults. -/
  | matrixCommandEnd (cell : Nat)
  /-- TAGGED_COPY_LINE (R226): One line of a tagged copy, multicast or collective is served and applied whole at a side port or global point, or fails. -/
  | taggedCopyLine (cell : Nat) (line : Nat)
  /-- REMOTE_STORE_ARRIVAL (R103): A posted STRS or STRV line reaches its destination side port and performs or is refused. -/
  | remoteStoreArrival (request : Nat)
  /-- REMOTE_STORE_ACK (R101): The destination's acknowledgement reaches the issuing core and the class count falls by one. -/
  | remoteStoreAck (request : Nat)
  /-- SLEW_STEP (R249): In a tick with TICK[11:0] zero, an advance step adds 2 to TICK or a retard step holds it one period. -/
  | slewStep (advance : Bool)
  /-- COUNTER_EXCHANGE (R251): Every 2^20 ticks neighbouring packages exchange counters, slew toward domain time and post domain-skew on excess offset. -/
  | counterExchange (offset : BitVec 64)
  /-- HBM_SLOT (R269): A 64-tick HBM slot begins and is given to the timed or dynamic plane by its index, or lent when idle. -/
  | hbmSlot (plate : Nat)
  /-- BARREL_ISSUE (R287): Each tick the barrel issue stage takes the next ready runnable thread in rotation and issues one instruction. -/
  | barrelIssue (cell : Nat)
  /-- TASK_DISPATCH (R300): A core with a free slot dispatches one task from its task queue, its deque or a steal. -/
  | taskDispatch (cell : Nat)
  /-- SCRATCHPAD_BANK_SERVICE (R296): A scratchpad bank serves its oldest waiting request in one bank turn. -/
  | scratchpadBankService (cell : Nat) (bank : Nat)
  /-- FULL_EMPTY_SERVE (R299): When a full-empty word changes state, its owner serves the oldest waiting request that can proceed. -/
  | fullEmptyServe (cell : Nat) (word : Nat)
  /-- FULL_EMPTY_TIMEOUT (R299): A full-empty request that has waited 2^felim ticks returns unserved and the thread traps with cause 57. -/
  | fullEmptyTimeout (request : Nat)
  /-- REQUEST_PROMOTION (R297): A barrel memory request that has waited 256 ticks is promoted ahead of every younger request of the core. -/
  | requestPromotion (cell : Nat)
  /-- MEMORY_REQUEST_COMPLETION (R287): The acknowledgement or data of a waiting barrel instruction returns and the thread becomes ready one tick later. -/
  | memoryRequestCompletion (cell : Nat) (thread : Nat)
  /-- SFN_START (R327): The special-function unit starts its head request at most once every 4 ticks. -/
  | sfnStart (cell : Nat)
  /-- SFN_RESULT_LANDING (R327): A special-function result lands in its thread's register in queue order, raising flags and freeing the queue entry. -/
  | sfnResultLanding (cell : Nat)
  /-- BARREL_TRAP_ENTRY (R330): A thread takes a trap into the next trap level, or the thread or context is killed. -/
  | barrelTrapEntry (cell : Nat) (thread : Nat)
  /-- CONTEXT_KILL_COMPLETE (R344): When every agent of a killed context has stopped, each plate supervisor of the partition receives a context-killed message. -/
  | contextKillComplete (ctx : Nat)
  /-- MAILBOX_POST (R347): The plate poster writes one supervisor message into the ring and wakes the supervisor, or counts it lost. -/
  | mailboxPost (plate : Nat)
  /-- MIGRATION_CHOICE (R351): In the tick after a sample, an overloaded core with migration enabled chooses one eligible thread to move. -/
  | migrationChoice (cell : Nat)
  /-- MIGRATION_RESERVATION (R352): A migration reservation reaches the target core, which accepts it with a slot and run or declines. -/
  | migrationReservation (cell : Nat) (thread : Nat)
  /-- MIGRATION_ARRIVAL (R352): The migration message arrives and the thread becomes runnable on the target core. -/
  | migrationArrival (cell : Nat) (thread : Nat)
  /-- PAIRED_COMPARISON (R355): A paired thread's request reaches the router and is compared with its partner's, forwarded once or killing both threads. -/
  | pairedComparison (cell : Nat) (thread : Nat)
  /-- PAIRED_TIMEOUT (R357): 65,536 ticks pass with no partner request, so both requests are dropped and the pair is killed with cause 382. -/
  | pairedTimeout (cell : Nat) (thread : Nat)
  /-- SAMPLER_START (R374): With sampling enabled, the core starts the sampler thread in slot 63 once slot and run are free. -/
  | samplerStart (cell : Nat)
  /-- SAMPLER_MASK_TIMEOUT (R376): An SMPD that has waited 2^felim ticks for its mask row traps with cause 309. -/
  | samplerMaskTimeout (cell : Nat) (thread : Nat)
  /-- SLICE_REQUEST (R424): A cache slice serves a request to one of its lines in arrival order. -/
  | sliceRequest (request : Nat)
  /-- SLICE_FILL (R425): A line fetched from HBM arrives at a slice's miss-table entry and is served to the joined requests. -/
  | sliceFill (slice : Nat) (line : Nat)
  /-- WRITE_BACK_DRAIN (R426): A slice drains lines of its write-back buffer to HBM. -/
  | writeBackDrain (slice : Nat)
  /-- DEAD_RANGE_SWEEP (R427): A slice writes zeros to a recorded dead range in dynamic slots and frees the entry when done. -/
  | deadRangeSweep (slice : Nat)
  /-- TABLE_WALK (R432): A translation walk reads the table entries, checks them and completes with a translation or a fault. -/
  | tableWalk (walk : Nat)
  /-- PACKET_FORWARD (R422): A router output serves a waiting packet by class priority and round robin, aged packets first. -/
  | packetForward (packet : Nat)
  /-- LINK_BEAT_DELIVERY (R438): A timed-link beat is delivered at the sender tick plus latency, or dropped on CRC failure with a link-fault message. -/
  | linkBeatDelivery (port : Nat) (good : Bool) (beat : Beat)
  /-- WRITE_THROUGH_ACK (R391): An HBM stack acknowledges a written-through proof line and covered recovery releases may complete. -/
  | writeThroughAck (line : Nat)
  /-- MIRROR_TIMEOUT (R392): A mirrored line stays unacknowledged for 2^mto ticks and the keeper sets PRCFG.mlost. -/
  | mirrorTimeout (line : Nat)
  /-- SEAL (R401): After the earlier releases complete, the keeper holds the page set, computes page checks and writes the seal record. -/
  | sealPages (ctx : Nat)
  /-- COLLECTIVE_COMPLETE (R447): A participant's collective destination is written or abandoned and it writes the status word, completing its tag. -/
  | collectiveComplete (cell : Nat) (job : Nat)
  /-- COLLECTIVE_TIMEOUT (R450): 2^to ticks pass with the collective incomplete, so the participant abandons it and sends an abort token. -/
  | collectiveTimeout (cell : Nat) (job : Nat)
  /-- COLLECTIVE_PACKET_INGRESS (R448): A collective packet arrives and is dropped when older, or advances the attempt table when newer. -/
  | collectivePacketIngress (ctx : Nat) (id : Nat) (attempt : BitVec 16)
  /-- ABORT_TOKEN_ARRIVAL (R449): An abort token advances the attempt table and abandons older instances of the collective id. -/
  | abortTokenArrival (ctx : Nat) (id : Nat) (attempt : BitVec 16)
  /-- REMOTE_MESSAGE_ARRIVAL (R441): A cross-package message arrives and is accepted into the named slot or discarded by context and job checks. -/
  | remoteMessageArrival (message : RemoteMessage)
  /-- DELIVERY_CONTEXT_FAILURE (R441): The transport gives up on a delivery context and the SEND traps with remote-send-failed. -/
  | deliveryContextFailure (cell : Nat) (thread : Nat)
  /-- CORRECTED_ERROR (R455): A protected structure detects an error and its class count rises, possibly retiring the cell. -/
  | correctedError (cls : Nat) (unit : Nat) (uncorrectable : Bool)
  /-- ERROR_WINDOW_START (R457): At each tick with TICK mod 2^wlog zero, a class's window count is cleared. -/
  | errorWindowStart (cls : Nat)
  /-- CEILING_CHANGE (R468): Firmware lowers a ceiling and the affected cores' MECAP, MERATE and MEBKT fall in the same tick. -/
  | ceilingChange (ctx : Nat) (ceiling : BitVec 32)
  /-- CTXQ_WRITE (R23): A write of CTXQ0 or CTXQ1 changes the partition or is refused, setting qrej. -/
  | ctxqWrite (ctx : Nat) (high : Bool) (value : BitVec 64)
  /-- GTCTL_WRITE (R377): Writing GTCTL with en 1 places the serving group's token at its first member. -/
  | gtctlWrite (group : Nat) (value : BitVec 64)
  /-- MR_EXTEND (R467): Context 0 extends a measurement register MR3 to MR7 with a 64-byte digest. -/
  | mrExtend (register : Nat) (digest : BitVec 512)
  /-- CONTROL_REGISTER_WRITE (R6): A write to a device control-space or mailbox register that has no row of its own updates its writable fields. -/
  | controlRegisterWrite (address : Nat) (value : BitVec 64)
  /-- MBRCON_WRITE (R461): The host advances its consumed count and held responses may be written. -/
  | mbrconWrite (value : BitVec 64)
  /-- NEG (R462): The mailbox NEG command fixes the agreed feature set. -/
  | neg (command : MailboxCommand)
  /-- WRITE (R460): The mailbox WRITE command writes up to 48 bytes at a device address. -/
  | write (command : MailboxCommand)
  /-- READ (R460): The mailbox READ command returns up to 48 bytes from a device address. -/
  | read (command : MailboxCommand)
  /-- CTXNEW (R468): The mailbox CTXNEW command creates a context with an energy ceiling, or is refused. -/
  | ctxnew (command : MailboxCommand)
  /-- CTXREL (R460): The mailbox CTXREL command releases a context with no live agent. -/
  | ctxrel (command : MailboxCommand)
  /-- STAGE (R460): The mailbox STAGE command copies 48 bytes into the staging buffer. -/
  | stage (command : MailboxCommand)
  /-- COMMIT_SYSTEM_IMAGE (R465): COMMIT kind 0 verifies the staged system image, extends MR2 and places it in HBM. -/
  | commitSystemImage (command : MailboxCommand)
  /-- COMMIT_FIRMWARE (R465): COMMIT kind 1 verifies staged firmware and writes the inactive slot. -/
  | commitFirmware (command : MailboxCommand)
  /-- ATTEST (R467): The mailbox ATTEST command writes a signed attestation report to host memory. -/
  | attest (command : MailboxCommand)
  /-- EVREAD (R466): The mailbox EVREAD command returns one event-log entry. -/
  | evread (command : MailboxCommand)
  /-- XIN (R65): The scalar-to-vector crossing copies an s value into every lane of a vector register or a p value into a pv. -/
  | xin (source destination : BitVec 6)
  /-- XOUT (R65): The vector-to-scalar crossing copies one 64-bit lane into an s register or a pv bit into a p. -/
  | xout (source : BitVec 6) (lane : BitVec 5) (destination : BitVec 6)
  /-- WAITT (R273): Holds the group until its bundle can issue at or after a target tick and lands the lateness. -/
  | waitt (gate : Gate) (form : FormE)
  /-- WOPEN (R274): Opens a slack window with its region, close tick, defaults, miss action and expected mask. -/
  | wopen (gate : Gate) (form : FormE)
  /-- WSHUT (R275): Closes a window early at offset 1. -/
  | wshut (gate : Gate) (form : FormE)
  /-- GETPOST (R276): Waits for a window's close and reads a post register or WSTAT. -/
  | getpost (gate : Gate) (form : FormE)
  /-- BAR (R277): Arrives at a gang or domain barrier, optionally with a timeout. -/
  | bar (gate : Gate) (form : FormE)
  /-- RCNT (R278): Lands the remote-store count of a class or all classes. -/
  | rcnt (gate : Gate) (form : FormE)
  /-- FENCE (R279): Holds the group until earlier tagged copies have performed or remote counts are zero. -/
  | fence (gate : Gate) (form : FormE)
  /-- PREL (R415): Issues a timed recovery release covering the core's tagged copies and lands its number. -/
  | prel (gate : Gate) (form : FormE)
  /-- PSEAL (R415): Starts the seal of the open impression from a timed core and lands a status. -/
  | pseal (gate : Gate) (form : FormE)
  /-- COLL (R444): Launches a collective record on a copy tag. -/
  | coll (gate : Gate) (form : FormE)
  /-- CABORT (R449): Sends an abort token advancing the collective's attempt number. -/
  | cabort (gate : Gate) (form : FormE)
  /-- RDTK (R282): Lands TICK, or TICK minus RSHIFT, in a scalar register. -/
  | rdtk (gate : Gate) (form : FormE)
  /-- YIELD (R283): Lets a pending pre-emption land, otherwise does nothing. -/
  | yield (gate : Gate) (form : FormE)
  /-- SIGNAL (R284): Sends a wake from the timed core to a barrel thread. -/
  | signal (gate : Gate) (form : FormE)
  /-- ADD (R132): Timed scalar 64-bit add. -/
  | add (gate : Gate) (form : FormA)
  /-- SUB (R132): Timed scalar 64-bit subtract. -/
  | sub (gate : Gate) (form : FormA)
  /-- ADDI (R132): Timed scalar add of a sign-extended immediate. -/
  | addi (gate : Gate) (form : FormB)
  /-- MUL (R132): Timed scalar low 64 bits of a product. -/
  | mul (gate : Gate) (form : FormA)
  /-- MULH (R132): Timed scalar high half of the signed product. -/
  | mulh (gate : Gate) (form : FormA)
  /-- MULHN (R132): Timed scalar high half of the unsigned product. -/
  | mulhn (gate : Gate) (form : FormA)
  /-- DIV (R133): Timed scalar signed division, trapping on a zero divisor. -/
  | div (gate : Gate) (form : FormA)
  /-- DIVN (R133): Timed scalar unsigned division. -/
  | divn (gate : Gate) (form : FormA)
  /-- REM (R133): Timed scalar signed remainder. -/
  | rem (gate : Gate) (form : FormA)
  /-- REMN (R133): Timed scalar unsigned remainder. -/
  | remn (gate : Gate) (form : FormA)
  /-- AND (R132): Timed scalar bitwise and. -/
  | and (gate : Gate) (form : FormA)
  /-- OR (R132): Timed scalar bitwise or. -/
  | or (gate : Gate) (form : FormA)
  /-- XOR (R132): Timed scalar bitwise exclusive or. -/
  | xor (gate : Gate) (form : FormA)
  /-- SHL (R132): Timed scalar left shift. -/
  | shl (gate : Gate) (form : FormA)
  /-- SHR (R132): Timed scalar logical right shift. -/
  | shr (gate : Gate) (form : FormA)
  /-- SAR (R132): Timed scalar arithmetic right shift. -/
  | sar (gate : Gate) (form : FormA)
  /-- MIN (R132): Timed scalar signed minimum. -/
  | min (gate : Gate) (form : FormA)
  /-- MAX (R132): Timed scalar signed maximum. -/
  | max (gate : Gate) (form : FormA)
  /-- MINN (R132): Timed scalar unsigned minimum. -/
  | minn (gate : Gate) (form : FormA)
  /-- MAXN (R132): Timed scalar unsigned maximum. -/
  | maxn (gate : Gate) (form : FormA)
  /-- CLZ (R132): Timed scalar count of leading zeros. -/
  | clz (gate : Gate) (form : FormA)
  /-- POPC (R132): Timed scalar population count. -/
  | popc (gate : Gate) (form : FormA)
  /-- LI (R132): Loads a sign-extended immediate into an s or a register. -/
  | li (gate : Gate) (form : FormB)
  /-- LIH (R132): Sets the upper 32 bits of a timed register from an immediate. -/
  | lih (gate : Gate) (form : FormB)
  /-- SEL (R132): Selects one of two registers by a predicate. -/
  | sel (gate : Gate) (form : FormA)
  /-- CMP (R133): Writes a compare condition to a predicate. -/
  | cmp (gate : Gate) (form : FormA)
  /-- PLOG (R133): Combines two predicates by a truth table. -/
  | plog (gate : Gate) (form : FormA)
  /-- BR (R134): Branches on a scalar register condition. -/
  | br (gate : Gate) (form : FormD)
  /-- BRP (R134): Branches on a predicate. -/
  | brp (gate : Gate) (form : FormD)
  /-- CALL (R126): Pushes the return address on the timed return stack and transfers. -/
  | call (gate : Gate) (form : FormD)
  /-- RET (R126): Pops the timed return stack and transfers. -/
  | ret (gate : Gate) (form : FormA)
  /-- LOOP (R128): Pushes a counted loop level over the following body. -/
  | loop (gate : Gate) (form : FormA)
  /-- LBRK (R130): Pops the top loop level without its strides. -/
  | lbrk (gate : Gate) (form : FormA)
  /-- LSTR (R135): Appends an address-register stride to the pending list. -/
  | lstr (gate : Gate) (form : FormA)
  /-- REALIGN (R136): Brings the cluster's gang members into step at one bundle. -/
  | realign (gate : Gate) (form : FormA)
  /-- TRAP (R137): Takes a software trap after the bundle's full effect. -/
  | trap (gate : Gate) (form : FormA)
  /-- RTT (R145): Returns from the timed handler to TRPC. -/
  | rtt (gate : Gate) (form : FormA)
  /-- HALT (R138): Stops group issue and begins the core's drain to halt. -/
  | halt (gate : Gate) (form : FormA)
  /-- MFC (R120): Reads a timed control register into an s register. -/
  | mfc (gate : Gate) (form : FormA)
  /-- MTC (R120): Writes a timed control register from an s register. -/
  | mtc (gate : Gate) (form : FormA)
  /-- LDS (R139): Loads one scalar element from a timed space. -/
  | lds (gate : Gate) (form : FormC)
  /-- LDV (R139): Loads 256 bytes into a vector register. -/
  | ldv (gate : Gate) (form : FormC)
  /-- LDVS (R139): Loads four strided lines into a vector register. -/
  | ldvs (gate : Gate) (form : FormC)
  /-- LDVX (R139): Loads four indexed lines into a vector register. -/
  | ldvx (gate : Gate) (form : FormC)
  /-- LDVB (R139): Loads one element broadcast to every lane. -/
  | ldvb (gate : Gate) (form : FormC)
  /-- LDK (R139): Loads a 32-byte lane mask. -/
  | ldk (gate : Gate) (form : FormC)
  /-- STS (R139): Stores one scalar element. -/
  | sts (gate : Gate) (form : FormC)
  /-- STV (R139): Stores 256 bytes of a vector register or latch. -/
  | stv (gate : Gate) (form : FormC)
  /-- STVM (R139): Stores the bytes of a vector register selected by a lane mask. -/
  | stvm (gate : Gate) (form : FormC)
  /-- STVX (R139): Stores four lines to indexed addresses. -/
  | stvx (gate : Gate) (form : FormC)
  /-- STK (R139): Stores a 32-byte lane mask. -/
  | stk (gate : Gate) (form : FormC)
  /-- STRS (R141): Posts a counted remote scalar store. -/
  | strs (gate : Gate) (form : FormC)
  /-- STRV (R141): Posts a counted remote 256-byte store. -/
  | strv (gate : Gate) (form : FormC)
  /-- VADD (R161): Vector integer add. -/
  | vadd (gate : Gate) (form : FormA)
  /-- VSUB (R161): Vector integer subtract. -/
  | vsub (gate : Gate) (form : FormA)
  /-- VMUL (R161): Vector integer low-half multiply. -/
  | vmul (gate : Gate) (form : FormA)
  /-- VMULH (R161): Vector integer high-half multiply. -/
  | vmulh (gate : Gate) (form : FormA)
  /-- VMIN (R161): Vector integer minimum. -/
  | vmin (gate : Gate) (form : FormA)
  /-- VMAX (R161): Vector integer maximum. -/
  | vmax (gate : Gate) (form : FormA)
  /-- VABS (R161): Vector integer absolute value. -/
  | vabs (gate : Gate) (form : FormA)
  /-- VNEG (R161): Vector integer negate. -/
  | vneg (gate : Gate) (form : FormA)
  /-- VAND (R161): Vector bitwise and. -/
  | vand (gate : Gate) (form : FormA)
  /-- VOR (R161): Vector bitwise or. -/
  | vor (gate : Gate) (form : FormA)
  /-- VXOR (R161): Vector bitwise exclusive or. -/
  | vxor (gate : Gate) (form : FormA)
  /-- VNOT (R161): Vector bitwise complement. -/
  | vnot (gate : Gate) (form : FormA)
  /-- VSHL (R161): Vector left shift by register counts. -/
  | vshl (gate : Gate) (form : FormA)
  /-- VSHL_IMM (R161): Vector left shift by an immediate count. -/
  | vshlImm (gate : Gate) (form : FormA)
  /-- VSHR (R161): Vector logical right shift by register counts. -/
  | vshr (gate : Gate) (form : FormA)
  /-- VSHR_IMM (R161): Vector logical right shift by an immediate count. -/
  | vshrImm (gate : Gate) (form : FormA)
  /-- VSAR (R161): Vector arithmetic right shift by register counts. -/
  | vsar (gate : Gate) (form : FormA)
  /-- VSAR_IMM (R161): Vector arithmetic right shift by an immediate count. -/
  | vsarImm (gate : Gate) (form : FormA)
  /-- VADDS (R161): Vector saturating add. -/
  | vadds (gate : Gate) (form : FormA)
  /-- VSUBS (R161): Vector saturating subtract. -/
  | vsubs (gate : Gate) (form : FormA)
  /-- VFADD (R162): Vector floating-point add. -/
  | vfadd (gate : Gate) (form : FormA)
  /-- VFSUB (R162): Vector floating-point subtract. -/
  | vfsub (gate : Gate) (form : FormA)
  /-- VFMUL (R162): Vector floating-point multiply. -/
  | vfmul (gate : Gate) (form : FormA)
  /-- VFMA (R162): Vector fused multiply-add. -/
  | vfma (gate : Gate) (form : FormA)
  /-- VFMS (R162): Vector fused multiply-subtract. -/
  | vfms (gate : Gate) (form : FormA)
  /-- VFDIV (R162): Vector floating-point divide. -/
  | vfdiv (gate : Gate) (form : FormA)
  /-- VFSQRT (R162): Vector floating-point square root. -/
  | vfsqrt (gate : Gate) (form : FormA)
  /-- VFMIN (R162): Vector floating-point minimum. -/
  | vfmin (gate : Gate) (form : FormA)
  /-- VFMAX (R162): Vector floating-point maximum. -/
  | vfmax (gate : Gate) (form : FormA)
  /-- VFABS (R162): Vector floating-point absolute value. -/
  | vfabs (gate : Gate) (form : FormA)
  /-- VFNEG (R162): Vector floating-point negate. -/
  | vfneg (gate : Gate) (form : FormA)
  /-- VFCLS (R163): Vector floating-point classification. -/
  | vfcls (gate : Gate) (form : FormA)
  /-- VCMP (R164): Vector integer compare into a predicate. -/
  | vcmp (gate : Gate) (form : FormA)
  /-- VFCMP (R164): Vector floating-point compare into a predicate. -/
  | vfcmp (gate : Gate) (form : FormA)
  /-- VSEL (R165): Vector select by predicate. -/
  | vsel (gate : Gate) (form : FormA)
  /-- VCAS (R167): Vector compare-and-swap of value-index pairs. -/
  | vcas (gate : Gate) (form : FormA)
  /-- VTEST (R165): Vector bit test into a predicate. -/
  | vtest (gate : Gate) (form : FormA)
  /-- VPERM (R168): Vector permute from a two-register table. -/
  | vperm (gate : Gate) (form : FormA)
  /-- VBCAST (R168): Vector broadcast of one lane. -/
  | vbcast (gate : Gate) (form : FormA)
  /-- VROT (R168): Vector lane rotate. -/
  | vrot (gate : Gate) (form : FormA)
  /-- VSLIDE (R168): Vector lane slide across two registers. -/
  | vslide (gate : Gate) (form : FormA)
  /-- VRED (R169): Vector grouped tree reduction. -/
  | vred (gate : Gate) (form : FormA)
  /-- VSCAN (R170): Vector grouped prefix scan. -/
  | vscan (gate : Gate) (form : FormA)
  /-- VCVT (R171): Vector same-width conversion. -/
  | vcvt (gate : Gate) (form : FormA)
  /-- VNRW (R171): Vector narrowing conversion into one part. -/
  | vnrw (gate : Gate) (form : FormA)
  /-- VNRWF (R171): Vector narrowing with error-feedback residual. -/
  | vnrwf (gate : Gate) (form : FormA)
  /-- VWID (R171): Vector exact widening conversion. -/
  | vwid (gate : Gate) (form : FormA)
  /-- VBEXP (R172): Computes a block tile's shared exponent. -/
  | vbexp (gate : Gate) (form : FormA)
  /-- VQB (R173): Quantises lanes into packed block mantissas. -/
  | vqb (gate : Gate) (form : FormA)
  /-- VDQB (R174): Dequantises packed block mantissas into lanes. -/
  | vdqb (gate : Gate) (form : FormA)
  /-- VMX_FIT (R176): Finds the bq8 exponent fitting OCP MX elements. -/
  | vmxFit (gate : Gate) (form : FormA)
  /-- VMX_CVT (R176): Converts OCP MX elements into bq8 mantissa bytes. -/
  | vmxCvt (gate : Gate) (form : FormA)
  /-- VEXP2 (R177): Vector base-2 exponential. -/
  | vexp2 (gate : Gate) (form : FormA)
  /-- VLOG2 (R177): Vector base-2 logarithm. -/
  | vlog2 (gate : Gate) (form : FormA)
  /-- VRCP (R177): Vector reciprocal. -/
  | vrcp (gate : Gate) (form : FormA)
  /-- VRSQ (R177): Vector reciprocal square root. -/
  | vrsq (gate : Gate) (form : FormA)
  /-- VBIAS (R178): Adds an f16 bias row to scores. -/
  | vbias (gate : Gate) (form : FormA)
  /-- VRNG (R179): Draws 16 Philox blocks from the unit's stream. -/
  | vrng (gate : Gate) (form : FormA)
  /-- VMOV (R180): Copies enabled lanes of a register or latch. -/
  | vmov (gate : Gate) (form : FormA)
  /-- KAND (R181): Mask bitwise and. -/
  | kand (gate : Gate) (form : FormA)
  /-- KOR (R181): Mask bitwise or. -/
  | kor (gate : Gate) (form : FormA)
  /-- KXOR (R181): Mask bitwise exclusive or. -/
  | kxor (gate : Gate) (form : FormA)
  /-- KNOT (R181): Mask bitwise complement. -/
  | knot (gate : Gate) (form : FormA)
  /-- KPOP (R181): Counts set mask bits into a vector register. -/
  | kpop (gate : Gate) (form : FormA)
  /-- KFIRST (R181): Finds the lowest set mask bit. -/
  | kfirst (gate : Gate) (form : FormA)
  /-- MLDS (R205): Loads the shadow stationary plane. -/
  | mlds (gate : Gate) (form : FormE)
  /-- MLDST (R206): Loads the shadow plane from OCP MX data. -/
  | mldst (gate : Gate) (form : FormE)
  /-- MSWAP (R207): Exchanges the active and shadow planes. -/
  | mswap (gate : Gate) (form : FormE)
  /-- MMUL (R208): Runs an a48 matrix product into a z tile. -/
  | mmul (gate : Gate) (form : FormE)
  /-- MMUL64 (R209): Runs an FP64 fused matrix product into a z tile. -/
  | mmul64 (gate : Gate) (form : FormE)
  /-- MZERO (R210): Sets a tile's mode and zeroes it. -/
  | mzero (gate : Gate) (form : FormE)
  /-- MRDZ (R211): Reads out part of a tile row into a vector register. -/
  | mrdz (gate : Gate) (form : FormE)
  /-- MWRZ (R212): Writes part of a tile row from a vector register. -/
  | mwrz (gate : Gate) (form : FormE)
  /-- MGANG (R201): Joins or leaves a matrix gang. -/
  | mgang (gate : Gate) (form : FormE)
  /-- MSCL (R214): Scales every container of a tile by a power of two. -/
  | mscl (gate : Gate) (form : FormE)
  /-- MCHK (R215): Computes the CRC-64 of a tile. -/
  | mchk (gate : Gate) (form : FormE)
  /-- MEC (R216): Reads and optionally sets the core's energy rate. -/
  | mec (gate : Gate) (form : FormE)
  /-- CPT (R236): Timed copy between core store and vault. -/
  | cpt (gate : Gate) (form : FormE)
  /-- CPTX (R236): Timed copy from a remote core store. -/
  | cptx (gate : Gate) (form : FormE)
  /-- CPH (R237): Tagged copy from global memory into core store. -/
  | cph (gate : Gate) (form : FormE)
  /-- CPW (R237): Tagged copy from core store to global memory. -/
  | cpw (gate : Gate) (form : FormE)
  /-- CPG (R238): Tagged gather through a page list. -/
  | cpg (gate : Gate) (form : FormE)
  /-- CPS (R238): Tagged scatter through a page list. -/
  | cps (gate : Gate) (form : FormE)
  /-- CPM (R239): Tagged multicast into gang members' core stores. -/
  | cpm (gate : Gate) (form : FormE)
  /-- CPD (R239): Tagged distribution of blocks across gang members. -/
  | cpd (gate : Gate) (form : FormE)
  /-- CPF (R240): Asks slices to prefetch a global range. -/
  | cpf (gate : Gate) (form : FormE)
  /-- CDISC (R241): Tagged discard of a global range. -/
  | cdisc (gate : Gate) (form : FormE)
  /-- CWANY (R242): Waits until some armed tag of a mask is done and observes it. -/
  | cwany (gate : Gate) (form : FormE)
  /-- CWALL (R242): Waits until every tag of a mask is done and observes them. -/
  | cwall (gate : Gate) (form : FormE)
  /-- CFIRST (R242): Observes the lowest done armed tag of a mask without waiting. -/
  | cfirst (gate : Gate) (form : FormE)
  /-- CTAGS (R244): Reads or clears a tag state vector. -/
  | ctags (gate : Gate) (form : FormE)
  /-- CCANCEL (R245): Cancels the unperformed lines of the named tags. -/
  | ccancel (gate : Gate) (form : FormE)
  /-- LAUNCH_ARGUMENT_BLOCK_COPY (R28): Before an armed launch entry's tick, the plate copies the 256-byte argument block through the context's translation into each member's core store, and a fault there makes the entry fail. -/
  | launchArgumentBlockCopy (plate : Nat) (index : Nat)
  /-- SUFFIX_INDEX_REQUEST_SERVICE (R368): A cluster's suffix index unit takes the oldest request that has arrived at it and applies it whole before serving the next. -/
  | suffixIndexRequestService (cluster : Nat)
  /-- VAULT_NETWORK_PORT_SERVICE (R419): A vault bank's network port serves its oldest waiting packet-network access, one per tick, after the local and lateral ports of that tick. -/
  | vaultNetworkPortService (cluster : Nat) (bank : Nat)
  /-- TIMED_ACCESS_PERFORM (R96): A timed access performs at its issue tick plus its stated offset and is judged for bank conflicts, vault collisions and window regions. -/
  | timedAccessPerform
  /-- KCONT_CONTAIN (R258): Context 0 writes KCONT.go and every member of the gang is contained in the next tick. -/
  | kcontContain
  /-- ENERGY_REFILL (R200): In every tick with TICK[9:0] = 0, MEBKT is refilled by MERATE up to 16 times MERATE. -/
  | energyRefill
  /-- TICK_INCREMENT (R26): The package tick counter increments once per clock period in every cell. -/
  | tickIncrement
  /-- CLOAD_SAMPLE (R350): In every tick with TICK[9:0] = 0, the cluster's load register is sampled. -/
  | cloadSample
  /-- XINVC_INVALIDATE (R434): Writing XINVC.go removes every cached translation of the context in the range on all plates. -/
  | xinvcInvalidate
  /-- PLATE_RESET (R393): Context 0 writes KPRST.go and plate p is reset through the steps of flush, drain, self-refresh and reset. -/
  | plateReset
  /-- THERMAL_TRIP (R469): At 110 C junction temperature, every plate clock stops and a thermal trip is logged. -/
  | thermalTrip
  /-- PACKAGE_RESET (R463): A package reset runs the boot ROM, firmware verification, training and image commit steps. -/
  | packageReset
  /-- TICK_LOAD (R464): Firmware loads TICK, with domain time at the PPS edge in a domain, and releases the plates. -/
  | tickLoad
  /-- BARREL_ADD (R305): Barrel integer add. -/
  | barrelAdd
  /-- BARREL_ADDI (R305): Barrel add immediate. -/
  | barrelAddi
  /-- BARREL_SUB (R305): Barrel integer subtract. -/
  | barrelSub
  /-- BARREL_MUL (R305): Barrel low-half multiply. -/
  | barrelMul
  /-- BARREL_MULH (R305): Barrel signed high-half multiply. -/
  | barrelMulh
  /-- BARREL_MULHN (R305): Barrel unsigned high-half multiply. -/
  | barrelMulhn
  /-- BARREL_DIV (R306): Barrel signed division. -/
  | barrelDiv
  /-- BARREL_DIVN (R306): Barrel unsigned division. -/
  | barrelDivn
  /-- BARREL_REM (R306): Barrel signed remainder. -/
  | barrelRem
  /-- BARREL_REMN (R306): Barrel unsigned remainder. -/
  | barrelRemn
  /-- BARREL_AND (R305): Barrel bitwise and. -/
  | barrelAnd
  /-- ANDI (R305): Barrel bitwise and with immediate. -/
  | andi
  /-- BARREL_OR (R305): Barrel bitwise or. -/
  | barrelOr
  /-- ORI (R305): Barrel bitwise or with immediate. -/
  | ori
  /-- BARREL_XOR (R305): Barrel bitwise exclusive or. -/
  | barrelXor
  /-- XORI (R305): Barrel exclusive or with immediate. -/
  | xori
  /-- BARREL_SHL (R305): Barrel left shift by register. -/
  | barrelShl
  /-- SHLI (R305): Barrel left shift by immediate. -/
  | shli
  /-- BARREL_SHR (R305): Barrel logical right shift by register. -/
  | barrelShr
  /-- SHRI (R305): Barrel logical right shift by immediate. -/
  | shri
  /-- BARREL_SAR (R305): Barrel arithmetic right shift by register. -/
  | barrelSar
  /-- SARI (R305): Barrel arithmetic right shift by immediate. -/
  | sari
  /-- SLT (R305): Barrel signed set-less-than. -/
  | slt
  /-- SLTN (R305): Barrel unsigned set-less-than. -/
  | sltn
  /-- SLTI (R305): Barrel signed set-less-than immediate. -/
  | slti
  /-- BARREL_LIH (R305): Barrel load of the upper 32 bits. -/
  | barrelLih
  /-- BARREL_CLZ (R305): Barrel count of leading zeros. -/
  | barrelClz
  /-- BARREL_POPC (R305): Barrel population count. -/
  | barrelPopc
  /-- SEXT (R305): Barrel sign extension. -/
  | sext
  /-- ZEXT (R305): Barrel zero extension. -/
  | zext
  /-- FADD (R307): Barrel floating-point add. -/
  | fadd
  /-- FSUB (R307): Barrel floating-point subtract. -/
  | fsub
  /-- FMUL (R307): Barrel floating-point multiply. -/
  | fmul
  /-- FDIV (R307): Barrel floating-point divide. -/
  | fdiv
  /-- FSQRT (R307): Barrel floating-point square root. -/
  | fsqrt
  /-- FMA (R307): Barrel fused multiply-add. -/
  | fma
  /-- FMS (R307): Barrel fused multiply-subtract. -/
  | fms
  /-- FNMA (R307): Barrel negated fused multiply-add. -/
  | fnma
  /-- FMIN (R307): Barrel floating-point minimum. -/
  | fmin
  /-- FMAX (R307): Barrel floating-point maximum. -/
  | fmax
  /-- FCMP (R307): Barrel floating-point compare. -/
  | fcmp
  /-- FCLS (R307): Barrel floating-point classification. -/
  | fcls
  /-- FCVT (R308): Barrel type conversion. -/
  | fcvt
  /-- FSGN (R307): Barrel sign manipulation. -/
  | fsgn
  /-- FRND (R307): Barrel round to integral value. -/
  | frnd
  /-- FGETF (R307): Reads FSTAT, optionally clearing the flags. -/
  | fgetf
  /-- FSETF (R307): Writes FSTAT. -/
  | fsetf
  /-- LD (R310): Barrel load, optionally acquire. -/
  | ld
  /-- ST (R310): Barrel store, posted or release. -/
  | st
  /-- LDE (R311): Full-empty load that waits for full and sets empty. -/
  | lde
  /-- STE (R311): Full-empty store that waits for empty and sets full. -/
  | ste
  /-- LDP (R311): Reads a full-empty word and its state without changing it. -/
  | ldp
  /-- AMO (R312): Atomic read-modify-write. -/
  | amo
  /-- CAS (R312): Atomic compare-and-swap. -/
  | cas
  /-- BARREL_FENCE (R313): Scoped release, acquire or full fence. -/
  | barrelFence
  /-- WLD (R314): Reads 8 bytes through a slack window. -/
  | wld
  /-- WST (R314): Writes 8 bytes through a slack window. -/
  | wst
  /-- WPOST (R314): Posts a value into a window post register. -/
  | wpost
  /-- BEQ (R315): Branches when equal. -/
  | beq
  /-- BNE (R315): Branches when not equal. -/
  | bne
  /-- BLT (R315): Branches when signed less. -/
  | blt
  /-- BGE (R315): Branches when signed greater or equal. -/
  | bge
  /-- BLTN (R315): Branches when unsigned less. -/
  | bltn
  /-- BGEN (R315): Branches when unsigned greater or equal. -/
  | bgen
  /-- JMP (R315): Jumps to a displacement. -/
  | jmp
  /-- JMPR (R315): Jumps to a register and links. -/
  | jmpr
  /-- BARREL_CALL (R316): Pushes the return-address store, spilling if full, and transfers. -/
  | barrelCall
  /-- CALLR (R316): Calls through a register. -/
  | callr
  /-- BARREL_RET (R316): Pops or refills the return-address store and transfers. -/
  | barrelRet
  /-- FORK (R317): Pushes a child task onto the core's deque. -/
  | fork
  /-- JOIN (R318): Waits until all forked children have retired. -/
  | join
  /-- YLD (R290): Yields issue to the other ready threads. -/
  | yld
  /-- PARK (R319): Consumes a pending wake or parks the thread. -/
  | park
  /-- WAKE (R319): Sends a wake to a thread. -/
  | wake
  /-- TQGET (R320): Removes the head of the core's own task queue. -/
  | tqget
  /-- TQPUT (R320): Posts a task packet to a core's task queue. -/
  | tqput
  /-- EMIGR (R321): Asks that the thread migrate to a core of its cluster. -/
  | emigr
  /-- SEND (R323): Sends a message of 1 to 8 words to a thread. -/
  | send
  /-- RECV (R324): Receives the oldest message of the thread's queue. -/
  | recv
  /-- MCAST (R325): Sends one message to a thread on every cell of a group record. -/
  | mcast
  /-- TOKPASS (R386): Passes a serving group's generation token to the next member. -/
  | tokpass
  /-- TOKWAIT (R386): Parks until the serving group's token is taken. -/
  | tokwait
  /-- SFN (R326): Enqueues a special-function request. -/
  | sfn
  /-- RNGPX (R328): Evaluates one Philox block into two registers. -/
  | rngpx
  /-- SXOPEN (R381): Opens a suffix-index sequence from a descriptor. -/
  | sxopen
  /-- SXAPP (R382): Appends tokens to a sequence. -/
  | sxapp
  /-- SXQRY (R365): Queries a sequence for a draft continuation. -/
  | sxqry
  /-- SXREP (R383): Reads or sets a sequence's repetition settings. -/
  | sxrep
  /-- SXSAVE (R384): Writes a sequence save image. -/
  | sxsave
  /-- SXLOAD (R372): Opens a sequence from a save image. -/
  | sxload
  /-- SXCLOSE (R382): Closes a sequence and frees its slot and run. -/
  | sxclose
  /-- SMPD (R376): Draws one token from logits and an optional mask row. -/
  | smpd
  /-- PROPEN (R399): Opens a numbered impression over a page set. -/
  | propen
  /-- BARREL_PREL (R398): Barrel recovery release that blocks until durable. -/
  | barrelPrel
  /-- BARREL_PSEAL (R412): Seals the open impression and waits for the record. -/
  | barrelPseal
  /-- PCHECK (R413): Examines a seal slot as intact, torn or not checking. -/
  | pcheck
  /-- PREST (R406): Replays the impression in a seal slot. -/
  | prest
  /-- PRPT (R400): Records a participant in the open impression. -/
  | prpt
  /-- BARREL_TRAP (R337): Takes a software trap with the immediate as TVAL. -/
  | barrelTrap
  /-- RTE (R338): Returns from a trap level to its TEPC. -/
  | rte
  /-- GETC (R339): Reads a thread or core control register. -/
  | getc
  /-- SETC (R339): Writes a thread control register. -/
  | setc
  /-- EXIT (R340): Retires the thread after its requests have drained. -/
  | exit
  /-- PROOF_KEEPER_REQUEST_SERVICE (R400): The proof keeper serves an arriving PROPEN, PREL, PSEAL or PRPT request, copying a participant payload or completing an empty release in the tick after arrival. -/
  | proofKeeperRequestService
  /-- POWER_LOSS (R466): Loss of supply clears the event log and every other held state of the package, including the measurement registers and the keeper's words. -/
  | powerLoss
  deriving DecidableEq, Repr

end Sys2Proof
end

