-- ==== Sys2Proof/WellFormed.lean ====
section
/-! DEFINITION. Which instructions are well formed: the field checks of 03_encoding R69 and of each engine's encoding table, in the
order of R74 (operand fields from high bits to low). Each check is paired with the lowest bit of its field inside the slot or word,
which is what an illegal-field trap reports (R75). -/

namespace Sys2Proof

/-- A field check: whether the field is legal, and the field's lowest bit in the slot or word. -/
abbrev Check := Bool × Nat

/-- `len` bits of `x` from bit `lo`, as a number. -/
def fld {n : Nat} (x : BitVec n) (lo len : Nat) : Nat := (x.toNat / 2 ^ lo) % 2 ^ len

/-- A must-be-zero run of `len` bits of `x` from bit `lo` whose first bit is bit `base + lo` of the slot. -/
def mbz {n : Nat} (x : BitVec n) (base lo len : Nat) : Check := (fld x lo len == 0, base + lo)

/-- The element width in bytes of a type code 0 .. 14 (02_numbers R32); 0 for reserved and block codes. -/
def typeBytes (t : Nat) : Nat :=
  match t with
  | 0 | 4 | 12 | 13 => 1
  | 1 | 5 | 8 | 9 => 2
  | 2 | 6 | 10 => 4
  | 3 | 7 | 11 | 14 => 8
  | _ => 0

def isIntType (t : Nat) : Bool := t ≤ 7
def isFloatType (t : Nat) : Bool := 8 ≤ t && t ≤ 13
/-- A block type code (R32). -/
def isBlockType (t : Nat) : Bool := (16 ≤ t && t ≤ 22) || (24 ≤ t && t ≤ 30)
/-- The mantissa width of a block type code (R32). -/
def blockBits (t : Nat) : Nat := if t < 24 then t - 14 else t - 22
/-- The tile edge of a block type code (R32). -/
def blockEdge (t : Nat) : Nat := if t < 24 then 16 else 32
/-- A rounding code that an instruction which is no narrowing conversion accepts (R40). -/
def plainRnd (r : Nat) : Bool := r ≤ 4 || r == 6
/-- A rounding code that a narrowing conversion accepts (R40). -/
def narrowRnd (r : Nat) : Bool := r ≤ 6

/-- The exact widenings of R45. -/
def exactWidening (ts tt : Nat) : Bool :=
  (tt == 10 && (ts == 8 || ts == 9 || ts == 12 || ts == 13)) || (ts == 10 && tt == 11) ||
  (tt == 8 && (ts == 12 || ts == 13)) || (isIntType ts && isIntType tt && typeBytes ts < typeBytes tt)

/-- Significand bits of a floating-point type (R42). -/
def precOf (t : Nat) : Nat :=
  match t with
  | 8 => 11 | 9 => 8 | 10 => 24 | 11 => 53 | 12 => 4 | 13 => 3 | _ => 0

/-- Largest exponent and least subnormal exponent of a floating-point type (R35). -/
def expRange (t : Nat) : Int × Int :=
  match t with
  | 8 => (15, -24) | 9 => (127, -133) | 10 => (127, -149) | 11 => (1023, -1074) | 12 => (8, -9) | 13 => (15, -16) | _ => (0, 0)

/-- Magnitude bits of an integer type: 2^bits bounds it. -/
def intMagBits (t : Nat) : Nat := if t < 4 then 8 * typeBytes t - 1 else 8 * typeBytes t

/-- Whether `tt` cannot hold every value of `ts` (the narrowing conversions of R40). -/
def isNarrowing (ts tt : Nat) : Bool :=
  if isIntType ts then
    if isIntType tt then intMagBits tt < intMagBits ts || (ts < 4 && 4 ≤ tt)
    else !(decide (intMagBits ts ≤ precOf tt) && decide ((intMagBits ts : Int) ≤ (expRange tt).1))
  else if isFloatType ts then
    if isFloatType tt then
      decide (precOf tt < precOf ts) || decide ((expRange tt).1 < (expRange ts).1) || decide ((expRange ts).2 < (expRange tt).2) ||
        (tt == 12)
    else true
  else true

section forms

/-- The checks common to every form A instruction: each named field against its verdict, `wcls` zero (R69). -/
def chkA (f : FormA) (d a b c type rnd sat : Bool) (func : List Check) : List Check :=
  [(d, 39), (a, 33), (b, 27), (c, 21), (type, 16), (rnd, 13), (sat, 12), (f.wcls == 0, 10)] ++ func

/-- Verdict of a field named by a class bit: the s class has 64 names, the a class 16 (05_sequencer R132). -/
def clsOk (x : BitVec 6) (cls : Nat) : Bool := cls == 0 || x.toNat < 16

/-- The two-source scalar instructions with class bits (R132). -/
def chkClassed (f : FormA) : List Check :=
  chkA f (clsOk f.d (fld f.func 9 1)) (clsOk f.a (fld f.func 8 1)) (clsOk f.b (fld f.func 7 1)) (f.c == 0) (f.type == 0)
    (f.rnd == 0) (f.sat == 0) [mbz f.func 0 0 7]

/-- Scalar instructions that read only the named s fields. -/
def chkScalar (f : FormA) (d a b : Bool) : List Check :=
  chkA f (d || f.d == 0) (a || f.a == 0) (b || f.b == 0) (f.c == 0) (f.type == 0) (f.rnd == 0) (f.sat == 0) [mbz f.func 0 0 10]

/-- Whether a vector destination field is legal in a slot: a latch of the unit itself or v0 to v55 (R69). -/
def vdst (slot : Nat) (d : BitVec 6) : Bool :=
  d.toNat < 56 || (d.toNat < 60 && slot == 3) || (60 ≤ d.toNat && slot == 2)

/-- Vector instructions on lanes with no func options (06_vector R160). -/
def chkVec (slot : Nat) (f : FormA) (b c type rnd sat : Bool) (func : List Check) : List Check :=
  chkA f (vdst slot f.d) true (b || f.b == 0) (c || f.c == 0) type (rnd || f.rnd == 0) (sat || f.sat == 0) func

def func0 (f : FormA) : List Check := [mbz f.func 0 0 10]
def tInt (f : FormA) : Bool := isIntType f.type.toNat
def tFlt (f : FormA) : Bool := 8 ≤ f.type.toNat && f.type.toNat ≤ 11
def tAny (f : FormA) : Bool := f.type.toNat ≤ 14

/-- A two-source integer vector instruction (R161). -/
def chkVInt (slot : Nat) (f : FormA) : List Check := chkVec slot f true false (tInt f) false false (func0 f)

/-- A rounding floating-point vector instruction (R162). -/
def chkVFlt (slot : Nat) (f : FormA) (b c : Bool) : List Check :=
  chkVec slot f b c (tFlt f) (plainRnd f.rnd.toNat) true (func0 f)

/-- Lanes of a vector register for a type code (R153). -/
def lanesOf (t : Nat) : Nat := 256 / typeBytes t

/-- The register form of a vector shift (R161). -/
def chkVShift (slot : Nat) (f : FormA) : List Check :=
  chkVec slot f true false (tInt f) false false [mbz f.func 0 9 1, (fld f.func 8 1 == 0, 8), mbz f.func 0 0 8]

/-- The immediate form of a vector shift (R161). -/
def chkVShiftImm (slot : Nat) (f : FormA) : List Check :=
  chkVec slot f false false (tInt f) false false [mbz f.func 0 9 1, (fld f.func 8 1 == 1, 8), mbz f.func 0 7 1]

/-- The group and operation options of VRED and VSCAN (R169, R170). -/
def chkTree (slot : Nat) (f : FormA) (scan : Bool) : List Check :=
  let op := fld f.func 0 4
  let t := f.type.toNat
  let g := fld f.func 5 4
  let float := 8 ≤ t
  chkA f (vdst slot f.d) true (f.b == 0) (f.c == 0)
    (match op with
     | 0 => isIntType t
     | 1 => 8 ≤ t && t ≤ 11
     | 2 | 3 | 4 | 5 => t ≤ 11
     | 6 | 7 | 8 => isIntType t
     | _ => t ≤ 11)
    (if op == 1 then plainRnd f.rnd.toNat else f.rnd == 0) (op == 1 || f.sat == 0)
    [(scan || fld f.func 9 1 == 0, 9), (g == 0 || 2 ^ g ≤ lanesOf t, 5),
     (fld f.func 4 1 == 0 || (float && (op == 2 || op == 3)), 4), (op ≤ 8 && !(scan && (op == 4 || op == 5)), 0)]

/-- The conversions of R171: the accepted pairs, the part number and the use of rnd and sat. -/
def chkConv (slot : Nat) (f : FormA) (ty c pair rnd sat : Bool) (parts : Nat) : List Check :=
  chkA f (vdst slot f.d) true (f.b == 0) (if c then vdst slot f.c && f.c != f.d else f.c == 0) (ty && tAny f) (rnd || f.rnd == 0)
    (sat || f.sat == 0) [mbz f.func 0 8 2, (fld f.func 5 3 < max parts 1, 5), (pair, 0)]

/-- Mask instructions: class bits choose pv (16) or k (8) for d, a and b (R181). -/
def mOk (x : BitVec 6) (cls : Nat) : Bool := if cls == 0 then x.toNat < 16 else x.toNat < 8

def chkMask (f : FormA) (b : Bool) : List Check :=
  chkA f (mOk f.d (fld f.func 2 1)) (mOk f.a (fld f.func 1 1)) (if b then mOk f.b (fld f.func 0 1) else f.b == 0) (f.c == 0)
    (f.type == 0) (f.rnd == 0) (f.sat == 0) [mbz f.func 0 3 7, (b || fld f.func 0 1 == 0, 0)]

def chkMaskCount (slot : Nat) (f : FormA) : List Check :=
  chkA f (vdst slot f.d) (mOk f.a (fld f.func 1 1)) (f.b == 0) (f.c == 0) (f.type == 0) (f.rnd == 0) (f.sat == 0)
    [mbz f.func 0 3 7, mbz f.func 0 2 1, mbz f.func 0 0 1]

/-- Load and store checks (05_sequencer R139): data register, space 11, type and func. -/
def chkC (f : FormC) (data type : Bool) (func : List Check) : List Check :=
  [(data, 39), (f.space != 3, 33), (type, 4)] ++ func

/-- Form E checks: each of f1 to f4 and the tag field against its verdict (R272, 07_matrix R203, 08_copy R235). -/
def chkE (f1 f2 f3 f4 tag : Bool) (func : List Check) : List Check :=
  [(f1, 39), (f2, 33), (f3, 27), (f4, 21), (tag, 16)] ++ func

/-- A format record number in the tag field (R203). -/
def chkRec (f : FormE) (f1 f3 f4 : Bool) (func : List Check) : List Check :=
  [(f1, 39), (f3, 27), (f4, 21), (f.tag.toNat < 4, 18)] ++ func

/-- Control-register numbers that exist (05_sequencer R120 and the tables it names). -/
def timedCregAssigned (n : Nat) : Bool :=
  n ≤ 1 || (4 ≤ n && n ≤ 0x14) || n == 0x20 || n == 0x21 || (0x40 ≤ n && n ≤ 0x45) || (0x80 ≤ n && n ≤ 0x8D) ||
  (0xC0 ≤ n && n ≤ 0xCE) || (0x100 ≤ n && n ≤ 0x127) || (0x130 ≤ n && n ≤ 0x13F) || (0x140 ≤ n && n ≤ 0x144)

/-- Control registers that have a writable field (R120). -/
def timedCregWritable (n : Nat) : Bool :=
  n == 8 || n == 9 || n == 0xC || (0x11 ≤ n && n ≤ 0x14) || n == 0x20 || n == 0x21 || (0x40 ≤ n && n ≤ 0x45) ||
  (0x80 ≤ n && n ≤ 0x83) || (0x89 ≤ n && n ≤ 0x8D) || n == 0xC0 || n == 0xC3 || n == 0xC4 || (0xC6 ≤ n && n ≤ 0xCA) ||
  n == 0xCD || n == 0xCE || (0x110 ≤ n && n ≤ 0x11F) || n == 0x126 || n == 0x144

/-- Barrel control-register numbers that exist (11_barrel_traps R336, 12_draft R387, 13_proof R410). -/
def barrelCregAssigned (n : Nat) : Bool :=
  n ≤ 0xD || (0x10 ≤ n && n ≤ 0x1A) || (0x40 ≤ n && n ≤ 0x46) || (0x80 ≤ n && n ≤ 0x83) || (0xC0 ≤ n && n ≤ 0xC3)

def barrelCregWritable (n : Nat) : Bool :=
  n == 2 || n == 3 || n == 5 || n == 6 || n == 8 || n == 9 || n == 0xA || n == 0xD || n == 0x11 || n == 0x12 || n == 0x14 ||
  n == 0x16 || n == 0x18 || n == 0x1A

/-- A barrel register field in 0 .. 143 (R79); the thread's own count is checked at issue. -/
def breg (x : BitVec 8) : Bool := x.toNat < 144
/-- A field that must name an x register (12_draft R380, 13_proof R411). -/
def xreg (x : BitVec 8) : Bool := x.toNat < 128

/-- Barrel field checks that are not about registers: unread fields and func (R79); register checks follow them (R333). -/
def chkW (w : BarrelWord) (d a b : Bool) (func : List Check) : List Check :=
  [(d || w.d == 0, 48), (a || w.a == 0, 40), (b || w.b == 0, 32)] ++ func

def imm0 (w : BarrelWord) : List Check := [mbz w.imm 0 0 32]
/-- Three-register integer instructions; `w` tells whether func[0] is the 32-bit option (10_barrel R305). -/
def chkInt (w : BarrelWord) (b opt : Bool) : List Check :=
  chkW w true true b (if opt then [mbz w.imm 0 1 31] else imm0 w)
/-- The fields above opt of the floating-point func layout, unread (R303). -/
def fpFields (w : BarrelWord) : List Check :=
  [mbz w.imm 0 21 11, mbz w.imm 0 16 5, mbz w.imm 0 13 3, mbz w.imm 0 8 5, mbz w.imm 0 7 1]
/-- Floating-point func checks (R303). -/
def chkFp (w : BarrelWord) (b tt sub opt fmt sat rnd : Bool) : List Check :=
  chkW w true true b
    [mbz w.imm 0 21 11, (tt || fld w.imm 16 5 == 0, 16), mbz w.imm 0 13 3, (sub, 8), mbz w.imm 0 7 1,
     (opt || fld w.imm 6 1 == 0, 6), (if fmt then fld w.imm 4 2 ≤ 1 else fld w.imm 4 2 == 0, 4), (sat || fld w.imm 3 1 == 0, 3),
     (if rnd then plainRnd (fld w.imm 0 3) else fld w.imm 0 3 == 0, 0)]
/-- A rounding three-source arithmetic instruction. -/
def chkFpR (w : BarrelWord) (b : Bool) : List Check := chkFp w b false (fld w.imm 8 5 == 0) false true true true
/-- Types FCVT accepts (R308). -/
def fcvtType (t : Nat) : Bool := t == 2 || t == 3 || t == 6 || t == 7 || (8 ≤ t && t ≤ 13)
/-- Option byte of LD and ST (R303). -/
def chkMem (w : BarrelWord) (store : Bool) : List Check :=
  let scope := fld w.b 5 3
  [(scope ≤ 6 && (scope == 0 || fld w.b 4 1 == 1), 37),
   (fld w.b 2 1 == 0 || (!store && fld w.b 0 2 != 3), 34)]
/-- Func of AMO and CAS (R312). -/
def chkAtomic (w : BarrelWord) (amo : Bool) : List Check :=
  chkW w true true true
    [mbz w.imm 0 13 19, (fld w.imm 12 1 == 0 || fld w.imm 4 2 == 2, 12),
     (fld w.imm 9 3 ≤ 6 && (fld w.imm 9 3 == 0 || fld w.imm 7 2 != 0), 9), (2 ≤ fld w.imm 4 2, 4),
     (if amo then fld w.imm 0 4 ≤ 8 else fld w.imm 0 4 == 0, 0)]
/-- Message length and scope (R323). -/
def chkMsg (w : BarrelWord) (b : Bool) : List Check :=
  chkW w true true b [mbz w.imm 0 7 25, (fld w.imm 4 3 ≤ 6, 4), (1 ≤ fld w.imm 0 4 && fld w.imm 0 4 ≤ 8, 0)]
def chkFlag0 (w : BarrelWord) (a b : Bool) : List Check := chkW w true a b [mbz w.imm 0 1 31]
def noFields (w : BarrelWord) : List Check := chkW w false false false (imm0 w)

end forms

/-- The field checks of an instruction standing in a slot (slot numbers of R63, 8 and 9 for xin and xout). DESIGN CHOICE (log 43): the
two bits that must be 00 in a predicate move's xin_src or xout_dst (R65) are reported as that whole field, at bit 501 or 477. -/
def fieldChecks (slot : Nat) (i : Instr) : List Check :=
  match i with
  | .waitt _ f => chkE true true (f.f3 == 0) (f.f4 == 0) (f.tag == 0) [mbz f.func 0 2 14]
  | .wopen _ f => chkE true true true (f.f4.toNat ≤ 60) (f.tag.toNat < 16) [mbz f.func 0 7 9, (fld f.func 0 2 != 3, 0)]
  | .wshut _ f => chkE (f.f1 == 0) (f.f2 == 0) (f.f3 == 0) (f.f4 == 0) (f.tag.toNat < 16) [mbz f.func 0 0 16]
  | .getpost _ f => chkE true (f.f2 == 0) (f.f3 == 0) (f.f4 == 0) (f.tag.toNat < 16)
      [mbz f.func 0 3 13, (fld f.func 2 1 == 0 || fld f.func 0 2 == 0, 0)]
  | .bar _ f => chkE (f.f1 == 0) (fld f.func 1 1 == 1 || f.f2 == 0) (fld f.func 0 1 == 1 || f.f3 == 0) (f.f4 == 0)
      (f.tag.toNat < 16) [mbz f.func 0 2 14]
  | .rcnt _ f => chkE true (f.f2 == 0) (f.f3 == 0) (f.f4 == 0) (f.tag.toNat ≤ 3) [mbz f.func 0 0 16]
  | .fence _ f => chkE (f.f1 == 0) (f.f2 == 0) (f.f3 == 0) (f.f4 == 0) (f.tag == 0) [mbz f.func 0 2 14, (fld f.func 0 2 != 0, 0)]
  | .prel _ f => chkE true (f.f2 == 0) (f.f3 == 0) (f.f4 == 0) (f.tag == 0) [mbz f.func 0 1 15]
  | .pseal _ f => chkE true true (f.f3 == 0) (f.f4 == 0) (f.tag == 0) [mbz f.func 0 0 16]
  | .coll _ f => chkE (f.f1 == 0) true (f.f3 == 0) true (f.tag == 0) [mbz f.func 0 0 16]
  | .cabort _ f => chkE (f.f1 == 0) true (f.f3 == 0) (f.f4 == 0) (f.tag == 0) [mbz f.func 0 0 16]
  | .rdtk _ f => chkE true (f.f2 == 0) (f.f3 == 0) (f.f4 == 0) (f.tag == 0) [mbz f.func 0 2 14, mbz f.func 0 0 1]
  | .yield _ f => chkE (f.f1 == 0) (f.f2 == 0) (f.f3 == 0) (f.f4 == 0) (f.tag == 0) [mbz f.func 0 0 16]
  | .signal _ f => chkE (f.f1 == 0) true (f.f3 == 0) (f.f4 == 0) (f.tag == 0) [mbz f.func 0 0 16]
  | .add _ f | .sub _ f | .and _ f | .or _ f | .xor _ f | .shl _ f | .shr _ f | .sar _ f => chkClassed f
  | .addi _ _ => []
  | .mul _ f | .mulh _ f | .mulhn _ f | .div _ f | .divn _ f | .rem _ f | .remn _ f
  | .min _ f | .max _ f | .minn _ f | .maxn _ f => chkScalar f true true true
  | .clz _ f | .popc _ f | .realign _ f => chkScalar f true true false
  | .li _ f => [(f.a != 1 || f.d.toNat < 16, 39), (f.a.toNat ≤ 1, 33)]
  | .lih _ f => [(f.a != 1 || f.d.toNat < 16, 39), (f.a.toNat ≤ 1, 33), (fld f.imm 32 1 == 0, 0)]
  | .sel _ f => chkA f (clsOk f.d (fld f.func 9 1)) (clsOk f.a (fld f.func 8 1)) (clsOk f.b (fld f.func 7 1)) (f.c.toNat < 16)
      (f.type == 0) (f.rnd == 0) (f.sat == 0) [mbz f.func 0 0 7]
  | .cmp _ f => chkA f (f.d.toNat < 16) (clsOk f.a (fld f.func 8 1)) (clsOk f.b (fld f.func 7 1)) (f.c == 0) (f.type == 0)
      (f.rnd == 0) (f.sat == 0) [mbz f.func 0 9 1, mbz f.func 0 3 4, (fld f.func 0 3 != 7, 0)]
  | .plog _ f => chkA f (f.d.toNat < 16) (f.a.toNat < 16) (f.b.toNat < 16) (f.c == 0) (f.type == 0) (f.rnd == 0) (f.sat == 0)
      [mbz f.func 0 4 6]
  | .br _ f => [(fld f.func 0 3 != 0 || f.cond == 0, 15), mbz f.func 0 3 12, (fld f.func 0 3 != 7, 0)]
  | .brp _ f => [(f.cond.toNat < 16, 15), mbz f.func 0 1 14]
  | .call _ f => [(f.cond == 0, 15), mbz f.func 0 0 15]
  | .ret _ f | .lbrk _ f | .rtt _ f | .halt _ f => chkScalar f false false false
  | .loop _ f => chkA f (f.d == 0) true (f.b == 0) (f.c == 0) (f.type == 0) (f.rnd == 0) (f.sat == 0) []
  | .lstr _ f => chkA f (f.d.toNat < 16) true (f.b == 0) (f.c == 0) (f.type == 0) (f.rnd == 0) (f.sat == 0) [mbz f.func 0 0 10]
  | .trap _ f => chkA f (f.d == 0) (f.a == 0) (f.b == 0) (f.c == 0) (f.type == 0) (f.rnd == 0) (f.sat == 0) []
  | .mfc _ f => chkA f true (f.a == 0) (f.b == 0) (f.c == 0) (f.type == 0) (f.rnd == 0) (f.sat == 0)
      [(timedCregAssigned f.func.toNat, 0)]
  | .mtc _ f => chkA f (f.d == 0) true (f.b == 0) (f.c == 0) (f.type == 0) (f.rnd == 0) (f.sat == 0)
      [(timedCregWritable f.func.toNat, 0)]
  | .lds _ f | .sts _ f | .strs _ f => chkC f true (isIntType f.type.toNat) [mbz f.func 0 0 4]
  | .ldv _ f => chkC f (f.data.toNat < 56) (f.type == 0) [mbz f.func 0 0 4]
  | .ldvs _ f => chkC f (f.data.toNat < 56) (f.type == 0) [(f.func.toNat < 4, 0)]
  | .ldvx _ f => chkC f (f.data.toNat < 56) (f.type == 0) []
  | .ldvb _ f => chkC f (f.data.toNat < 56) (f.type.toNat ≤ 14) [mbz f.func 0 0 4]
  | .ldk _ f | .stk _ f => chkC f (f.data.toNat < 8) (f.type == 0) [mbz f.func 0 0 4]
  | .stv _ f | .strv _ f => chkC f true (f.type == 0) [mbz f.func 0 0 4]
  | .stvm _ f => chkC f true (f.type == 0) [mbz f.func 0 3 1]
  | .stvx _ f => chkC f true (f.type == 0) []
  | .vadd _ f | .vsub _ f | .vmul _ f | .vmulh _ f | .vmin _ f | .vmax _ f | .vand _ f | .vor _ f | .vxor _ f
  | .vadds _ f | .vsubs _ f => chkVInt slot f
  | .vabs _ f | .vneg _ f => chkVec slot f false false (tInt f) false true (func0 f)
  | .vnot _ f => chkVec slot f false false (tInt f) false false (func0 f)
  | .vshl _ f | .vshr _ f | .vsar _ f => chkVShift slot f
  | .vshlImm _ f | .vshrImm _ f | .vsarImm _ f => chkVShiftImm slot f
  | .vfadd _ f | .vfsub _ f | .vfmul _ f | .vfdiv _ f => chkVFlt slot f true false
  | .vfma _ f | .vfms _ f => chkVFlt slot f true true
  | .vfsqrt _ f => chkVFlt slot f false false
  | .vfmin _ f | .vfmax _ f => chkVec slot f true false (tFlt f) false false [mbz f.func 0 1 9]
  | .vfabs _ f | .vfneg _ f | .vfcls _ f => chkVec slot f false false (tFlt f) false false (func0 f)
  | .vcmp _ f => chkA f (f.d.toNat < 16) true true (f.c == 0) (tInt f) (f.rnd == 0) (f.sat == 0)
      [mbz f.func 0 3 7, (fld f.func 0 3 ≤ 5, 0)]
  | .vfcmp _ f => chkA f (f.d.toNat < 16) true true (f.c == 0) (isFloatType f.type.toNat) (f.rnd == 0) (f.sat == 0) [mbz f.func 0 3 7]
  | .vsel _ f => chkA f (vdst slot f.d) true true (f.c.toNat < 16) (tAny f) (f.rnd == 0) (f.sat == 0) (func0 f)
  | .vcas _ f => chkA f (vdst slot f.d) true true (vdst slot f.c && f.c != f.d)
      (f.type == 2 || f.type == 6 || f.type == 8 || f.type == 9 || f.type == 10) (f.rnd == 0) (f.sat == 0) (func0 f)
  | .vtest _ f => chkA f (f.d.toNat < 16) true true (f.c == 0) (tInt f) (f.rnd == 0) (f.sat == 0) (func0 f)
  | .vperm _ f => chkVec slot f true true (tAny f) false false (func0 f)
  | .vbcast _ f | .vrot _ f => chkVec slot f false false (tAny f) false false
      [mbz f.func 0 8 2, (fld f.func 0 8 < lanesOf f.type.toNat, 0)]
  | .vslide _ f => chkVec slot f false true (tAny f) false false [mbz f.func 0 9 1, (fld f.func 0 9 ≤ lanesOf f.type.toNat, 0)]
  | .vred _ f => chkTree slot f false
  | .vscan _ f => chkTree slot f true
  | .vcvt _ f =>
      let ts := f.type.toNat; let tt := fld f.func 0 5
      chkConv slot f true false
        ((typeBytes ts == typeBytes tt && ts != tt && tt ≤ 13 && ts ≤ 13 && (isFloatType ts || isFloatType tt)) ||
          (ts == 14 && (tt == 3 || tt == 7 || tt == 11)))
        (if isNarrowing ts tt then narrowRnd f.rnd.toNat else plainRnd f.rnd.toNat) true 1
  | .vnrw _ f =>
      let ts := f.type.toNat; let tt := fld f.func 0 5
      chkConv slot f (ts ≤ 11 || ts == 14) false ( tt ≤ 13 && typeBytes tt < typeBytes ts)
        (if isIntType ts && isIntType tt then f.rnd == 0 else if isNarrowing ts tt then narrowRnd f.rnd.toNat else plainRnd f.rnd.toNat)
        true (typeBytes ts / typeBytes tt)
  | .vnrwf _ f =>
      let ts := f.type.toNat; let tt := fld f.func 0 5
      chkConv slot f (8 ≤ ts && ts ≤ 11) true ( isFloatType tt && typeBytes tt < typeBytes ts) (narrowRnd f.rnd.toNat) true
        (typeBytes ts / typeBytes tt)
  | .vwid _ f =>
      let ts := f.type.toNat; let tt := fld f.func 0 5
      chkConv slot f true false (exactWidening ts tt) false false (typeBytes tt / typeBytes ts)
  | .vbexp _ f => chkVec slot f false false (tFlt f) false false (func0 f)
  | .vqb _ f =>
      let n := lanesOf f.type.toNat; let m := blockBits (fld f.func 0 5)
      chkVec slot f true false (tFlt f) (narrowRnd f.rnd.toNat) false
        [(fld f.func 5 5 * n * m + n * m ≤ 2048, 5), (isBlockType (fld f.func 0 5), 0)]
  | .vdqb _ f =>
      let n := lanesOf f.type.toNat; let m := blockBits (fld f.func 0 5)
      chkVec slot f true false (8 ≤ f.type.toNat && f.type.toNat ≤ 10)
        (if f.type == 10 then plainRnd f.rnd.toNat else narrowRnd f.rnd.toNat) true
        [(fld f.func 5 5 * n * m + n * m ≤ 2048, 5), (isBlockType (fld f.func 0 5), 0)]
  | .vmxFit _ f | .vmxCvt _ f => chkVec slot f true true (f.type == 22 || f.type == 30) false false
      [mbz f.func 0 4 6, (fld f.func 2 2 != 3, 2), (fld f.func 1 1 == 0 || fld f.func 2 2 == 2, 1),
       ((match i with | .vmxCvt _ _ => fld f.func 0 1 == 1 | _ => fld f.func 0 1 == 0), 0)]
  | .vexp2 _ f | .vlog2 _ f | .vrcp _ f | .vrsq _ f => chkVec slot f false false (f.type == 10) (plainRnd f.rnd.toNat) true (func0 f)
  | .vbias _ f => chkVec slot f true false (f.type == 8 || f.type == 10) (plainRnd f.rnd.toNat) true
      [mbz f.func 0 1 9, (f.type == 10 || fld f.func 0 1 == 0, 0)]
  | .vrng _ f => chkA f (vdst slot f.d) (f.a == 0) (f.b == 0) (f.c == 0) (f.type == 6 || f.type == 10) (f.rnd == 0) (f.sat == 0) (func0 f)
  | .vmov _ f => chkVec slot f false false (tAny f) false false (func0 f)
  | .kand _ f | .kor _ f | .kxor _ f => chkMask f true
  | .knot _ f => chkMask f false
  | .kpop _ f | .kfirst _ f => chkMaskCount slot f
  | .mlds _ f | .mldst _ f => chkRec f true (f.f3 == 0) (f.f4 == 0) [mbz f.func 0 3 13]
  | .mswap _ f => chkE (f.f1 == 0) (f.f2 == 0) (f.f3 == 0) (f.f4 == 0) (f.tag == 0) [mbz f.func 0 2 14]
  | .mmul _ f => chkRec f (f.f1.toNat < 4) true true [mbz f.func 0 4 12]
  | .mmul64 _ f => chkRec f (f.f1.toNat < 4) true (f.f4 == 0) [mbz f.func 0 7 9, (plainRnd (fld f.func 4 3), 4)]
  | .mzero _ f => chkE (f.f1.toNat < 4) (f.f2 == 0) (f.f3 == 0) (f.f4 == 0) (f.tag == 14 || f.tag == 11) [mbz f.func 0 2 14]
  | .mrdz _ f =>
      let t := f.tag.toNat; let n := min (256 / max (typeBytes t) 1) 128
      chkE (f.f1.toNat < 4) (f.f2.toNat < 56) true (f.f4 == 0) (t ≤ 2 || (8 ≤ t && t ≤ 14))
        [mbz f.func 0 9 7, (fld f.func 8 1 == 0 || typeBytes t == 1, 8), (fld f.func 6 2 < 128 / n, 6),
         (t != 14 || fld f.func 5 1 == 0, 5), (if t == 14 then fld f.func 2 3 == 0 else narrowRnd (fld f.func 2 3), 2)]
  | .mwrz _ f => chkE (f.f1.toNat < 4) true true (f.f4 == 0) (f.tag == 14 || f.tag == 11 || f.tag == 10)
      [mbz f.func 0 4 12, (f.tag != 10 || fld f.func 2 2 < 2, 2)]
  | .mgang _ f => chkE (f.f1 == 0) (f.f2 == 0) (f.f3 == 0) (f.f4 == 0) (f.tag == 0) [mbz f.func 0 6 10]
  | .mscl _ f => chkE (f.f1.toNat < 4) true (f.f3 == 0) (f.f4 == 0) (f.tag == 0) [mbz f.func 0 5 11, (plainRnd (fld f.func 2 3), 2)]
  | .mchk _ f => chkE (f.f1.toNat < 4) true (f.f3 == 0) (f.f4 == 0) (f.tag == 0) [mbz f.func 0 2 14]
  | .mec _ f => chkE true (fld f.func 2 1 == 1 || f.f2 == 0) (f.f3 == 0) (f.f4 == 0) (f.tag == 0) [mbz f.func 0 3 13]
  | .cpt _ f => chkE true true true (f.f4 == 0) (f.tag == 0) [mbz f.func 0 4 12, (fld f.func 2 2 ≤ 1, 2), (fld f.func 0 2 ≤ 1, 0)]
  | .cptx _ f => chkE true true true (f.f4 == 0) (f.tag == 0) [mbz f.func 0 2 14, (fld f.func 0 2 ≤ 1, 0)]
  | .cph _ f => chkE true true true true (f.tag == 0) [mbz f.func 0 8 8, mbz f.func 0 0 4]
  | .cpw _ f | .cpm _ f => chkE true true true true (f.tag == 0) [mbz f.func 0 0 16]
  | .cpg _ f => chkE true true true true (f.tag == 0) [mbz f.func 0 5 11]
  | .cps _ f | .cpd _ f => chkE true true true true (f.tag == 0) [mbz f.func 0 4 12]
  | .cpf _ f => chkE true true (f.f3 == 0) (f.f4 == 0) (f.tag == 0) [mbz f.func 0 0 16]
  | .cdisc _ f => chkE true true (f.f3 == 0) true (f.tag == 0) [mbz f.func 0 0 16]
  | .cwany _ f | .cwall _ f | .cfirst _ f => chkE true true (f.f3 == 0) (f.f4 == 0) (f.tag == 0) [mbz f.func 0 0 16]
  | .ctags _ f => chkE true true (f.f3 == 0) (f.f4 == 0) (f.tag == 0)
      [mbz f.func 0 3 13, (fld f.func 2 1 == 0 || 2 ≤ fld f.func 0 2, 2)]
  | .ccancel _ f => chkE (f.f1 == 0) true (f.f3 == 0) (f.f4 == 0) (f.tag == 0) [mbz f.func 0 0 16]
  | .xin src dst => [(dst.toNat < 56 || src.toNat < 16, 501)]
  | .xout src _ dst => [(src.toNat < 56 || dst.toNat < 16, 477)]
  | _ => []

/-- The field checks of a barrel instruction with the fields of its word (R79 and the encoding tables of 10_barrel, 11_barrel_traps,
12_draft and 13_proof). -/
def wordChecks (i : Instr) (w : BarrelWord) : List Check :=
  match i with
  | .barrelAdd | .barrelSub | .barrelMul | .barrelMulh | .barrelMulhn | .barrelDiv | .barrelDivn | .barrelRem
  | .barrelRemn | .barrelShl | .barrelShr | .barrelSar => chkInt w true true
  | .barrelAnd | .barrelOr | .barrelXor | .slt | .sltn => chkInt w true false
  | .barrelClz | .barrelPopc => chkInt w false true
  | .barrelAddi | .andi | .ori | .xori | .slti | .fork => chkW w true true false []
  | .shli | .shri | .sari => chkW w true true false [(w.imm.toNat < 64, 0)]
  | .barrelLih => chkW w true false false []
  | .sext | .zext => chkW w true true false [mbz w.imm 0 2 30, (fld w.imm 0 2 != 3, 0)]
  | .fadd | .fsub | .fmul | .fdiv | .fma | .fms | .fnma => chkFpR w true
  | .fsqrt => chkFpR w false
  | .fmin | .fmax => chkFp w true false (fld w.imm 8 5 == 0) true true false false
  | .fcmp => chkFp w true false (fld w.imm 11 2 == 0) false true false false
  | .fcls => chkFp w false false (fld w.imm 8 5 == 0) false true false false
  | .fcvt =>
      let ts := fld w.imm 8 5; let tt := fld w.imm 16 5
      chkW w true true false
        [mbz w.imm 0 21 11, (fcvtType tt && tt != ts && (isFloatType ts || isFloatType tt), 16), mbz w.imm 0 13 3, (fcvtType ts, 8),
         mbz w.imm 0 7 1, mbz w.imm 0 6 1, mbz w.imm 0 4 2,
         (if isNarrowing ts tt then narrowRnd (fld w.imm 0 3) else plainRnd (fld w.imm 0 3), 0)]
  | .fsgn => chkFp w true false (fld w.imm 8 5 ≤ 2) false true false false
  | .frnd => chkFp w false false (fld w.imm 8 5 == 0) true true false true
  | .fgetf => chkW w true false false (fpFields w ++ [mbz w.imm 0 4 2, mbz w.imm 0 3 1, mbz w.imm 0 0 3])
  | .fsetf => chkW w false true false (fpFields w ++ [mbz w.imm 0 6 1, mbz w.imm 0 4 2, mbz w.imm 0 3 1, mbz w.imm 0 0 3])
  | .ld => chkMem w false
  | .st => chkMem w true
  | .lde | .ste => [mbz w.b 32 5 3, mbz w.b 32 4 1, mbz w.b 32 2 1, mbz w.b 32 1 1]
  | .ldp => [mbz w.b 32 5 3, mbz w.b 32 4 1, mbz w.b 32 2 1, mbz w.b 32 0 2]
  | .wld | .wst => [mbz w.b 32 6 2, mbz w.b 32 4 2]
  | .wpost => [mbz w.b 32 6 2]
  | .amo => chkAtomic w true
  | .cas => chkAtomic w false
  | .barrelFence => chkW w false false false [mbz w.imm 0 5 27, (fld w.imm 2 3 ≤ 6, 2), (fld w.imm 0 2 != 0, 0)]
  | .beq | .bne | .blt | .bge | .bltn | .bgen => chkW w false true true []
  | .jmp | .barrelCall | .barrelTrap => chkW w false false false []
  | .jmpr | .wake | .emigr | .tokpass | .tokwait | .sxclose | .barrelPseal | .pcheck => chkW w true true false (imm0 w)
  | .callr => chkW w false true false (imm0 w)
  | .barrelRet | .rte | .exit | .yld | .park => noFields w
  | .join => chkW w true false false (imm0 w)
  | .tqget => chkW w true true false [mbz w.imm 0 4 28, mbz w.imm 0 0 3]
  | .tqput => chkW w true true true [mbz w.imm 0 4 28, mbz w.imm 0 0 3]
  | .send | .mcast => chkMsg w true
  | .recv => chkMsg w false
  | .sfn => chkFp w false false (fld w.imm 8 5 < 8) false true true true
  | .rngpx | .prest => chkW w true true true (imm0 w)
  | .sxopen | .sxapp | .sxsave | .sxload | .smpd | .propen | .prpt => chkFlag0 w true true
  | .sxqry => chkW w true true true [mbz w.imm 0 6 26, (1 ≤ fld w.imm 0 5 && fld w.imm 0 5 ≤ 16, 0)]
  | .sxrep => chkFlag0 w true (fld w.imm 0 1 == 1)
  | .barrelPrel => chkFlag0 w false false
  | .getc => chkW w true false false [mbz w.imm 0 10 22, (barrelCregAssigned (fld w.imm 0 10), 0)]
  | .setc => chkW w false true false [mbz w.imm 0 10 22, (barrelCregWritable (fld w.imm 0 10), 0)]
  | _ => []

/-- The gate of a slot instruction; crossings, barrel words, commands and events have none. -/
def gateOf (i : Instr) : Option Gate :=
  match i with
  | .waitt g _ | .wopen g _ | .wshut g _ | .getpost g _ | .bar g _ | .rcnt g _ | .fence g _ | .prel g _ | .pseal g _
  | .coll g _ | .cabort g _ | .rdtk g _ | .yield g _ | .signal g _ | .add g _ | .sub g _ | .addi g _ | .mul g _ | .mulh g _
  | .mulhn g _ | .div g _ | .divn g _ | .rem g _ | .remn g _ | .and g _ | .or g _ | .xor g _ | .shl g _ | .shr g _
  | .sar g _ | .min g _ | .max g _ | .minn g _ | .maxn g _ | .clz g _ | .popc g _ | .li g _ | .lih g _ | .sel g _ | .cmp g _
  | .plog g _ | .br g _ | .brp g _ | .call g _ | .ret g _ | .loop g _ | .lbrk g _ | .lstr g _ | .realign g _ | .trap g _
  | .rtt g _ | .halt g _ | .mfc g _ | .mtc g _ | .lds g _ | .ldv g _ | .ldvs g _ | .ldvx g _ | .ldvb g _ | .ldk g _
  | .sts g _ | .stv g _ | .stvm g _ | .stvx g _ | .stk g _ | .strs g _ | .strv g _ | .vadd g _ | .vsub g _ | .vmul g _
  | .vmulh g _ | .vmin g _ | .vmax g _ | .vabs g _ | .vneg g _ | .vand g _ | .vor g _ | .vxor g _ | .vnot g _ | .vshl g _
  | .vshlImm g _ | .vshr g _ | .vshrImm g _ | .vsar g _ | .vsarImm g _ | .vadds g _ | .vsubs g _ | .vfadd g _ | .vfsub g _
  | .vfmul g _ | .vfma g _ | .vfms g _ | .vfdiv g _ | .vfsqrt g _ | .vfmin g _ | .vfmax g _ | .vfabs g _ | .vfneg g _
  | .vfcls g _ | .vcmp g _ | .vfcmp g _ | .vsel g _ | .vcas g _ | .vtest g _ | .vperm g _ | .vbcast g _ | .vrot g _
  | .vslide g _ | .vred g _ | .vscan g _ | .vcvt g _ | .vnrw g _ | .vnrwf g _ | .vwid g _ | .vbexp g _ | .vqb g _
  | .vdqb g _ | .vmxFit g _ | .vmxCvt g _ | .vexp2 g _ | .vlog2 g _ | .vrcp g _ | .vrsq g _ | .vbias g _ | .vrng g _
  | .vmov g _ | .kand g _ | .kor g _ | .kxor g _ | .knot g _ | .kpop g _ | .kfirst g _ | .mlds g _ | .mldst g _ | .mswap g _
  | .mmul g _ | .mmul64 g _ | .mzero g _ | .mrdz g _ | .mwrz g _ | .mgang g _ | .mscl g _ | .mchk g _ | .mec g _ | .cpt g _
  | .cptx g _ | .cph g _ | .cpw g _ | .cpg g _ | .cps g _ | .cpm g _ | .cpd g _ | .cpf g _ | .cdisc g _ | .cwany g _
  | .cwall g _ | .cfirst g _ | .ctags g _ | .ccancel g _ => some g
  | _ => none

/-- The register fields a barrel instruction reads or writes as registers, as (lowest bit, value), high field first (R79). -/
def regFields (i : Instr) (w : BarrelWord) : List (Nat × Nat) :=
  match i with
  | .barrelAdd | .barrelSub | .barrelMul | .barrelMulh | .barrelMulhn | .barrelDiv | .barrelDivn
  | .barrelRem | .barrelRemn | .barrelAnd | .barrelOr | .barrelXor | .barrelShl | .barrelShr | .barrelSar
  | .slt | .sltn | .fadd | .fsub | .fmul | .fdiv | .fma | .fms | .fnma | .fmin | .fmax | .fcmp
  | .fsgn | .amo | .cas | .tqput | .send | .mcast | .rngpx | .sxopen | .sxapp | .sxqry | .sxsave
  | .sxload | .smpd | .propen | .prest | .prpt =>
      [(48, w.d.toNat), (40, w.a.toNat), (32, w.b.toNat)]
  | .barrelAddi | .andi | .ori | .xori | .shli | .shri | .sari | .slti | .barrelClz | .barrelPopc
  | .sext | .zext | .fsqrt | .fcls | .fcvt | .frnd | .ld | .st | .lde | .ste | .ldp | .wld | .wst
  | .wpost | .jmpr | .fork | .wake | .tqget | .emigr | .recv | .tokpass | .tokwait | .sfn | .sxclose
  | .barrelPseal | .pcheck =>
      [(48, w.d.toNat), (40, w.a.toNat)]
  | .barrelLih | .fgetf | .join | .barrelPrel | .getc =>
      [(48, w.d.toNat)]
  | .fsetf | .callr | .setc =>
      [(40, w.a.toNat)]
  | .beq | .bne | .blt | .bge | .bltn | .bgen =>
      [(40, w.a.toNat), (32, w.b.toNat)]
  | .sxrep =>
      [(48, w.d.toNat), (40, w.a.toNat)] ++ (if fld w.imm 0 1 == 1 then [(32, w.b.toNat)] else [])
  | _ => []

/-- Fields that may name only x registers: 12_draft R380, 13_proof R411, and the register pairs of R311, R328 and R380. For RNGPX
R328 gives the cause. DESIGN CHOICE (log 43): in the others too a value of 128 .. 143 raises illegal-register. -/
def xOnlyFields (i : Instr) (w : BarrelWord) : List (Nat × Nat) :=
  match i with
  | .ldp => [(48, w.d.toNat)]
  | .rngpx => [(48, w.d.toNat), (40, w.a.toNat)]
  | .sxopen | .sxapp | .sxsave | .sxload | .smpd | .propen | .prest | .prpt => [(40, w.a.toNat), (32, w.b.toNat)]
  | .sxqry => [(48, w.d.toNat), (40, w.a.toNat), (32, w.b.toNat)]
  | .sxrep => (40, w.a.toNat) :: (if fld w.imm 0 1 == 1 then [(32, w.b.toNat)] else [])
  | .sxclose | .tokpass | .tokwait | .barrelPseal | .pcheck => [(40, w.a.toNat)]
  | .send | .mcast => [(32, w.b.toNat)]
  | .recv => [(48, w.d.toNat)]
  | _ => []

/-- Every field of a slot or crossing instruction is legal in the given slot, its iteration field included (R66, R69). -/
def wellFormed (slot : Nat) (i : Instr) : Bool :=
  (match gateOf i with | some g => g.iter != 3 | none => true) && (fieldChecks slot i).all (·.1)

/-- Every field of a barrel instruction's word is legal (R79). -/
def wellFormedWord (i : Instr) (w : BarrelWord) : Bool :=
  (wordChecks i w).all (·.1) && (regFields i w).all (fun r => r.2 < 144) && (xOnlyFields i w).all (fun r => r.2 < 128)

end Sys2Proof
end

