-- ==== Sys2Proof/Machine/Numbers.lean ====
section
/-! DEFINITION. Number formats and arithmetic (02_numbers R32 to R62): exact values, rounding, the a48 accumulator, block and MX
conversion, Philox. -/

namespace Sys2Proof.Machine

open Sys2Proof

/-- A number: exact rationals with a positive denominator. -/
structure Q where
  num : Int
  den : Nat
  deriving DecidableEq, Repr

/-- `m * 2^e`. -/
def Q.dyadic (m : Int) (e : Int) : Q := if 0 ≤ e then ⟨m * 2 ^ e.toNat, 1⟩ else ⟨m, 2 ^ (-e).toNat⟩
def Q.ofInt (n : Int) : Q := ⟨n, 1⟩
def Q.add (x y : Q) : Q := ⟨x.num * y.den + y.num * x.den, x.den * y.den⟩
def Q.neg (x : Q) : Q := ⟨-x.num, x.den⟩
def Q.sub (x y : Q) : Q := x.add y.neg
def Q.mul (x y : Q) : Q := ⟨x.num * y.num, x.den * y.den⟩
def Q.abs (x : Q) : Q := ⟨x.num.natAbs, x.den⟩
/-- Quotient by a non-zero number. -/
def Q.div (x y : Q) : Q := ⟨x.num * y.den * y.num.sign, x.den * y.num.natAbs⟩
def Q.lt (x y : Q) : Bool := decide (x.num * y.den < y.num * x.den)
def Q.le (x y : Q) : Bool := decide (x.num * y.den ≤ y.num * x.den)
def Q.eq (x y : Q) : Bool := x.num * y.den == y.num * x.den
def Q.isZero (x : Q) : Bool := x.num == 0
/-- `Floor(Log2(Abs(x)))` of a non-zero number. -/
def Q.log2 (x : Q) : Int :=
  let n := x.num.natAbs
  let l : Int := (Nat.log2 n : Int) - (Nat.log2 x.den : Int)
  let below := if 0 ≤ l then decide (n < x.den * 2 ^ l.toNat) else decide (n * 2 ^ (-l).toNat < x.den)
  if below then l - 1 else l

/-- `x / 2^e`. -/
def Q.scale (x : Q) (e : Int) : Q := if 0 ≤ e then ⟨x.num, x.den * 2 ^ e.toNat⟩ else ⟨x.num * 2 ^ (-e).toNat, x.den⟩

/-- RoundInt of R41; `rnd` is 0 to 5, `w` the lane's 32-bit draw. -/
def roundInt (v : Q) (rnd w : Nat) : Int :=
  let m := v.num.natAbs
  let n := m / v.den
  let r := m % v.den
  let pos := decide (0 < v.num)
  let away :=
    match rnd with
    | 0 => decide (v.den < 2 * r) || (2 * r == v.den && n % 2 == 1)
    | 4 => decide (v.den ≤ 2 * r)
    | 1 => false
    | 2 => decide (0 < r) && pos
    | 3 => decide (0 < r) && !pos
    | _ => decide (w < r * 2 ^ 32 / v.den)
  let k : Int := ((if away then n + 1 else n : Nat) : Int)
  if pos then k else -k

/-- The flags of R39. -/
def fNv : Flags := 1
def fDz : Flags := 2
def fOf : Flags := 4
def fUf : Flags := 8
def fNx : Flags := 16
def fSa : Flags := 32

/-- A floating-point operand or exact result. -/
inductive Val where
  | nan (signalling : Bool)
  | inf (neg : Bool)
  | zero (neg : Bool)
  | fin (q : Q)
  deriving DecidableEq, Repr

def Val.isNan : Val → Bool
  | .nan _ => true
  | _ => false
def Val.isInf : Val → Bool
  | .inf _ => true
  | _ => false
def Val.signalling : Val → Bool
  | .nan s => s
  | _ => false
def Val.sign : Val → Bool
  | .nan _ => false
  | .inf s => s
  | .zero s => s
  | .fin q => decide (q.num < 0)
def Val.negate : Val → Val
  | .nan s => .nan s
  | .inf s => .inf (!s)
  | .zero s => .zero (!s)
  | .fin q => .fin q.neg
/-- A finite value's number; 0 for the others. -/
def Val.num : Val → Q
  | .fin q => q
  | _ => ⟨0, 1⟩
/-- A number as a value; zero takes the sign given. -/
def Val.ofQ (q : Q) (neg : Bool) : Val := if q.isZero then .zero neg else .fin q

/-! ## Formats (R35) -/

/-- Fraction bits of a floating-point type. -/
def fracBits (t : Nat) : Nat := precOf t - 1
/-- Width in bits of a type code 0 .. 14. -/
def typeBits (t : Nat) : Nat := 8 * typeBytes t
/-- Exponent bits of a floating-point type. -/
def expBits (t : Nat) : Nat := typeBits t - precOf t
def biasOf (t : Nat) : Int := 2 ^ (expBits t - 1) - 1
/-- Exponent of the smallest normal. -/
def emin (t : Nat) : Int := 1 - biasOf t
def hasInf (t : Nat) : Bool := t != 12

/-- The canonical NaN (R35). -/
def canonNan (t : Nat) : Nat :=
  match t with
  | 8 => 0x7E00 | 9 => 0x7FC0 | 10 => 0x7FC00000 | 11 => 0x7FF8000000000000 | 12 => 0x7F | 13 => 0x7E | _ => 0

/-- The largest finite pattern (R35). -/
def maxFinBits (t : Nat) : Nat :=
  match t with
  | 8 => 0x7BFF | 9 => 0x7F7F | 10 => 0x7F7FFFFF | 11 => 0x7FEFFFFFFFFFFFFF | 12 => 0x7E | 13 => 0x7B | _ => 0

/-- The +∞ pattern (R35); e4m3 has none. -/
def infBits (t : Nat) : Nat := maxFinBits t + 1

def signBit (t : Nat) (neg : Bool) : Nat := if neg then 2 ^ (typeBits t - 1) else 0

/-- The number of a finite magnitude pattern. -/
def magToQ (t bits : Nat) : Q :=
  let fb := fracBits t
  let e := bits / 2 ^ fb
  let m := bits % 2 ^ fb
  if e == 0 then Q.dyadic m (emin t - fb) else Q.dyadic (2 ^ fb + m) (emin t + (e : Int) - 1 - fb)

def maxFin (t : Nat) : Q := magToQ t (maxFinBits t)

/-- The value of a floating-point pattern (R35, R37). -/
def fpToVal (t bits : Nat) : Val :=
  let w := typeBits t
  let neg := bits / 2 ^ (w - 1) % 2 == 1
  let mag := bits % 2 ^ (w - 1)
  if mag == 0 then .zero neg
  else if maxFinBits t < mag then
    if t == 12 then .nan false
    else if mag == infBits t then .inf neg
    else .nan (mag / 2 ^ (fracBits t - 1) % 2 == 0)
  else let q := magToQ t mag
    .fin (if neg then q.neg else q)

/-- The number of an integer pattern (R32). -/
def intOf (t bits : Nat) : Int :=
  let w := typeBits t
  let b := bits % 2 ^ w
  if t < 4 && 2 ^ (w - 1) ≤ b then (b : Int) - 2 ^ w else b

/-- The value of an element of any type code 0 .. 13. -/
def toVal (t bits : Nat) : Val :=
  if isIntType t then Val.ofQ (Q.ofInt (intOf t bits)) false else fpToVal t bits

/-- Bits of an integer modulo 2^w (R34). -/
def wrapBits (w : Nat) (n : Int) : Nat := (n % (2 ^ w : Nat)).toNat

def minInt (t : Nat) : Int := if t < 4 then -(2 ^ (typeBits t - 1)) else 0
def maxInt (t : Nat) : Int := if t < 4 then 2 ^ (typeBits t - 1) - 1 else 2 ^ typeBits t - 1
def clampInt (lo hi n : Int) : Int := if n < lo then lo else if hi < n then hi else n

/-- A rounded magnitude `k * 2^(E - p + 1)`, `k ≤ 2^p`, as a pattern. -/
def encodeFin (t : Nat) (neg : Bool) (e : Int) (k : Nat) : Nat :=
  signBit t neg + (e - emin t).toNat * 2 ^ fracBits t + k

/-- RoundTo for a floating-point target (R42). -/
def roundToFp (x : Val) (t rnd : Nat) (sat : Bool) (w : Nat) : Nat × Flags :=
  match x with
  | .nan s => (canonNan t, if s then fNv else 0)
  | .inf s =>
    if sat then (signBit t s + maxFinBits t, fSa)
    else if hasInf t then (signBit t s + infBits t, 0)
    else (canonNan t, fNv)
  | .zero s => (signBit t s, 0)
  | .fin q =>
    let neg := decide (q.num < 0)
    let p : Int := precOf t
    let eu := q.log2
    let ku := roundInt (q.scale (eu - p + 1)) rnd w
    let yu := Q.dyadic ku (eu - p + 1)
    if (maxFin t).lt yu.abs then
      if sat then (signBit t neg + maxFinBits t, fNx ||| fSa)
      else if rnd == 1 || (rnd == 2 && neg) || (rnd == 3 && !neg) || (rnd == 5 && yu.abs.le q.abs) then
        (signBit t neg + maxFinBits t, fNx ||| fOf)
      else if hasInf t then (signBit t neg + infBits t, fNx ||| fOf)
      else (canonNan t, fNx ||| fOf)
    else
      let e := max eu (emin t)
      let k := roundInt (q.scale (e - p + 1)) rnd w
      let exact := (Q.dyadic k (e - p + 1)).eq q
      let tiny := yu.abs.lt (Q.dyadic 1 (emin t))
      (encodeFin t neg e k.natAbs, if exact then 0 else if tiny then fNx ||| fUf else fNx)

/-- RoundTo for an integer target (R43). -/
def roundToInt (x : Val) (t rnd : Nat) (sat : Bool) (w : Nat) : Nat × Flags :=
  let big := if sat then fSa else fNv
  match x with
  | .nan _ => (0, fNv)
  | .inf s => (wrapBits (typeBits t) (if s then minInt t else maxInt t), big)
  | .zero _ => (0, 0)
  | .fin q =>
    let y := roundInt q rnd w
    if y < minInt t || maxInt t < y then (wrapBits (typeBits t) (clampInt (minInt t) (maxInt t) y), big)
    else (wrapBits (typeBits t) y, if (Q.ofInt y).eq q then 0 else fNx)

/-- RoundTo to any type code 0 .. 13 (R42, R43). -/
def roundTo (x : Val) (t rnd : Nat) (sat : Bool) (w : Nat) : Nat × Flags :=
  if isIntType t then roundToInt x t rnd sat w else roundToFp x t rnd sat w

/-- A conversion between scalar types by R34, R42 to R45: integers narrow by low bits or clamp, an exact widening ignores `sat`, all else
goes through RoundTo. -/
def convert (ts tt bits rnd : Nat) (sat : Bool) (w : Nat) : Nat × Flags :=
  if exactWidening ts tt && !isIntType ts then roundTo (toVal ts bits) tt 0 false 0
  else if isIntType ts && isIntType tt then
    let n := intOf ts bits
    if sat && (n < minInt tt || maxInt tt < n) then (wrapBits (typeBits tt) (clampInt (minInt tt) (maxInt tt) n), fSa)
    else (wrapBits (typeBits tt) n, 0)
  else roundTo (toVal ts bits) tt rnd sat w

/-! ## IEEE 754 operations (R36, R37)

An invalid operation delivers a signalling NaN here, so that RoundTo raises nv and stores the canonical NaN. -/

/-- The NaN that two or three operands give. -/
def nanOf (xs : List Val) : Val := .nan (xs.any Val.signalling)

def addVal (x y : Val) (rnd : Nat) : Val :=
  if x.isNan || y.isNan then nanOf [x, y]
  else match x, y with
    | .inf s, .inf u => if s == u then .inf s else .nan true
    | .inf s, _ => .inf s
    | _, .inf u => .inf u
    | .zero s, .zero u => if s == u then .zero s else .zero (rnd == 3)
    | x, y => Val.ofQ (x.num.add y.num) (rnd == 3)

def subVal (x y : Val) (rnd : Nat) : Val := addVal x y.negate rnd

def mulVal (x y : Val) : Val :=
  if x.isNan || y.isNan then nanOf [x, y]
  else
    let s := x.sign != y.sign
    match x, y with
    | .inf _, .zero _ | .zero _, .inf _ => .nan true
    | .inf _, _ | _, .inf _ => .inf s
    | .zero _, _ | _, .zero _ => .zero s
    | x, y => .fin (x.num.mul y.num)

/-- Quotient with the divide-by-zero flag. -/
def divVal (x y : Val) : Val × Flags :=
  if x.isNan || y.isNan then (nanOf [x, y], 0)
  else
    let s := x.sign != y.sign
    match x, y with
    | .inf _, .inf _ | .zero _, .zero _ => (.nan true, 0)
    | .inf _, _ => (.inf s, 0)
    | _, .inf _ => (.zero s, 0)
    | .zero _, _ => (.zero s, 0)
    | _, .zero _ => (.inf s, fDz)
    | x, y => (.fin (x.num.div y.num), 0)

/-- `x * y + z` (fusedMultiplyAdd); 0 × ∞ is invalid even with a quiet NaN `z` (R58). -/
def fmaVal (x y z : Val) (rnd : Nat) : Val :=
  match mulVal x y with
  | .nan s => .nan (s || z.signalling)
  | p => if z.isNan then nanOf [z]
    else match p, z with
      | .fin a, .fin b => Val.ofQ (a.add b) (rnd == 3)
      | p, z => addVal p z rnd

/-- Newton's integer square root, `fuel` steps from above. -/
def isqrtFrom : Nat → Nat → Nat → Nat
  | 0, _, x => x
  | f + 1, n, x => let y := (x + n / x) / 2
    if y < x then isqrtFrom f n y else x

/-- Floor of the square root. -/
def isqrt (n : Nat) : Nat := if n == 0 then 0 else isqrtFrom (Nat.log2 n + 2) n (2 ^ (Nat.log2 n / 2 + 1))

/-- The square root of a positive number, to `bits` bits below its own size; inexact roots are moved to the middle of their last
interval, which no rounding boundary of fewer bits can meet. -/
def sqrtQ (q : Q) (bits : Nat) : Q :=
  let n := q.num.natAbs * q.den
  let s := bits + Nat.log2 q.den
  let r := isqrt (n * 4 ^ s)
  if r * r == n * 4 ^ s then ⟨r, q.den * 2 ^ s⟩ else ⟨2 * r + 1, q.den * 2 ^ (s + 1)⟩

def sqrtVal (x : Val) : Val :=
  match x with
  | .nan s => .nan s
  | .zero s => .zero s
  | .inf s => if s then .nan true else .inf false
  | .fin q => if q.num < 0 then .nan true else .fin (sqrtQ q 100)

/-- Order of two values that are no NaN: less, equal, greater; zeros are equal. -/
def ordVal (x y : Val) : Ordering :=
  match x, y with
  | .inf s, .inf u => if s == u then .eq else if s then .lt else .gt
  | .inf s, _ => if s then .lt else .gt
  | _, .inf u => if u then .gt else .lt
  | x, y => if x.num.lt y.num then .lt else if x.num.eq y.num then .eq else .gt

/-- Order with −0 below +0 (R38). -/
def ordValZ (x y : Val) : Ordering :=
  match ordVal x y with
  | .eq => if x.sign == y.sign then .eq else if x.sign then .lt else .gt
  | o => o

/-- Minimum or maximum of two patterns (R38); `nanForm` is the func bit that selects minimum and maximum. -/
def minMaxBits (t : Nat) (isMax nanForm : Bool) (x y : Nat) : Nat × Flags :=
  let vx := fpToVal t x
  let vy := fpToVal t y
  let fl : Flags := if vx.signalling || vy.signalling then fNv else 0
  if vx.isNan && vy.isNan then (canonNan t, fl)
  else if vx.isNan then (if nanForm then canonNan t else y, fl)
  else if vy.isNan then (if nanForm then canonNan t else x, fl)
  else match ordValZ vx vy with
    | .lt => (if isMax then y else x, fl)
    | .eq => (x, fl)
    | .gt => (if isMax then x else y, fl)

/-! ## The a48 accumulator (R51 to R54) -/

/-- An a48 value; `cls` is 0 finite, 1 +∞, 2 −∞, 3 NaN. -/
structure Acc where
  s      : Int
  e      : Nat
  cls    : Nat
  sticky : Bool
  deriving DecidableEq, Repr

/-- Reading a container (R51, R52). -/
def Acc.ofBits (x : Nat) : Acc :=
  let cls := x / 4 % 4
  let sticky := x / 2 % 2 == 1
  if cls != 0 then ⟨0, 0, cls, sticky⟩
  else
    let m : Nat := x / 2 ^ 16 % 2 ^ 48
    let s : Int := if 2 ^ 47 ≤ m then (m : Int) - 2 ^ 48 else m
    ⟨s, if s == 0 then 0 else x / 16 % 4096, 0, sticky⟩

/-- Writing the canonical container (R51, R52). -/
def Acc.toBits (a : Acc) : Nat :=
  let st := if a.sticky then 2 else 0
  if a.cls != 0 then a.cls * 4 + st
  else if a.s == 0 then st + 1
  else wrapBits 48 a.s * 2 ^ 16 + a.e * 16 + st

def Acc.zero (sticky : Bool) : Acc := ⟨0, 0, 0, sticky⟩
def Acc.nan (sticky : Bool) : Acc := ⟨0, 0, 3, sticky⟩
def Acc.inf (neg : Bool) (sticky : Bool) : Acc := ⟨0, 0, if neg then 2 else 1, sticky⟩

/-- A partial of R53: a number, an infinity or a NaN. -/
inductive Partial where
  | num (p : Int)
  | inf (neg : Bool)
  | nan
  deriving DecidableEq, Repr

/-- RoundShift of R53. -/
def roundShift (v : Int) (n : Nat) : Int := roundInt ⟨v, 2 ^ n⟩ 0 0

/-- The least `n` with the rounded shift in 48 bits, tried upwards from `n`. -/
def narrow48 : Nat → Int → Nat → Nat
  | 0, _, n => n
  | f + 1, t, n =>
    let r := roundShift t n
    if -(2 ^ 47) ≤ r && r ≤ 2 ^ 47 - 1 then n else narrow48 f t (n + 1)

/-- AccAdd of R53. -/
def accAdd (acc : Acc) (p : Partial) (e : Int) : Acc × Flags :=
  match p with
  | .nan => (Acc.nan acc.sticky, 0)
  | .inf s =>
    if acc.cls == 3 then (Acc.nan acc.sticky, 0)
    else if acc.cls != 0 && (acc.cls == 2) != s then (Acc.nan acc.sticky, fNv)
    else if acc.cls != 0 then (acc, 0)
    else (Acc.inf s acc.sticky, 0)
  | .num p =>
    if acc.cls == 3 then (Acc.nan acc.sticky, 0)
    else if acc.cls != 0 then (acc, 0)
    else if p == 0 then (acc, 0)
    else
      let ea : Int := if acc.s == 0 then -2047 else acc.e - 2047
      let g := max ea e
      let a := roundShift acc.s (g - ea).toNat
      let b := roundShift p (g - e).toNat
      let st := acc.sticky || a * 2 ^ (g - ea).toNat != acc.s || b * 2 ^ (g - e).toNat != p
      let t := a + b
      let n := narrow48 (Nat.log2 t.natAbs + 2 - 47) t 0
      let t' := roundShift t n
      let st' := st || t' * 2 ^ n != t
      let g' := g + n
      if t' == 0 then (Acc.zero st', 0)
      else if 4095 < g' + 2047 then (Acc.inf (decide (t' < 0)) true, fOf ||| fNx)
      else (⟨t', (g' + 2047).toNat, 0, st'⟩, 0)

/-- What an accumulator reads out to before its sticky bit is looked at (R54). -/
def accRound (a : Acc) (t rnd : Nat) (sat : Bool) (w : Nat) : Nat × Flags :=
  match a.cls with
  | 3 => if isIntType t then (0, fNv) else (canonNan t, 0)
  | 1 => roundTo (.inf false) t rnd sat w
  | 2 => roundTo (.inf true) t rnd sat w
  | _ => roundTo (Val.ofQ (Q.dyadic a.s ((a.e : Int) - 2047)) false) t rnd sat w

/-- The flags that sticky adds to a delivered result (R54): nx to a finite one, uf as well to one below the smallest normal. -/
def stickyFlags (t bits : Nat) : Flags :=
  if isIntType t then fNx
  else match fpToVal t bits with
    | .zero _ => fNx ||| fUf
    | .fin q => fNx ||| (if q.abs.lt (Q.dyadic 1 (emin t)) then fUf else 0)
    | _ => 0

/-- Reading an accumulator out to a type (R54). -/
def accRead (a : Acc) (t rnd : Nat) (sat : Bool) (w : Nat) : Nat × Flags :=
  let r := accRound a t rnd sat w
  (r.1, if a.sticky then r.2 ||| stickyFlags t r.1 else r.2)

/-! ## Block formats and MX (R46 to R50) -/

/-- The signed mantissa of an `m`-bit code. -/
def mantOf (m code : Nat) : Int := if 2 ^ (m - 1) ≤ code then (code : Int) - 2 ^ m else code

/-- A block value (R46). -/
def blockVal (m code e : Nat) : Val := Val.ofQ (Q.dyadic (mantOf m code) ((e : Int) - 127 - (m - 1))) false

/-- Reserved mantissa codes of R46. -/
def reservedMant (m code : Nat) : Bool := code == 2 ^ (m - 1)

/-- The largest absolute value of a list of numbers. -/
def maxAbs (xs : List Q) : Q := xs.foldl (fun a x => if a.lt x.abs then x.abs else a) ⟨0, 1⟩

/-- Block quantisation of one tile (R49): the exponent, the mantissas and the flags. `ws` are the lanes' draws. -/
def blockQuantise (xs : List Val) (m rnd : Nat) (ws : List Nat) : Nat × List Int × Flags :=
  let amax := maxAbs (xs.map Val.num)
  let e0 : Int := if amax.isZero then 0 else amax.log2 + 128
  let e := clampInt 0 254 e0
  let unit := e - 127 - ((m : Int) - 1)
  let lane (xw : Val × Nat) : Int × Flags :=
    match xw.1 with
    | .nan _ | .inf _ => (0, fNv)
    | x =>
      let k := roundInt (x.num.scale unit) rnd xw.2
      let lim : Int := 2 ^ (m - 1) - 1
      let big := lim < k.natAbs
      let k' := if big then (if k < 0 then -lim else lim) else k
      let fl1 : Flags := if big then fNx ||| fSa else 0
      let fl2 : Flags := if (Q.dyadic k' unit).eq x.num then 0 else fNx
      let fl3 : Flags := if k' == 0 && !x.num.isZero then fUf else 0
      (k', fl1 ||| fl2 ||| fl3)
  let ls := (xs.zip ws).map lane
  (e.toNat, ls.map (·.1), ls.foldl (fun a l => a ||| l.2) 0)

/-- The least `E` from `e` upwards with `amax ≤ 127 * 2^(E - 134)`. -/
def mxFitFrom : Nat → Q → Int → Int
  | 0, _, e => e
  | f + 1, amax, e => if amax.le (Q.dyadic 127 (e - 134)) then e else mxFitFrom f amax (e + 1)

/-- The least exponent that fits the largest magnitude (R50), unclamped. -/
def mxFit (amax : Q) : Int := mxFitFrom 3 amax (amax.log2 + 127)

/-- The tile exponent of R50 for the values of a tile. -/
def mxExp (vs : List Q) : Nat :=
  let amax := maxAbs vs
  if amax.isZero then 0 else (clampInt 0 254 (mxFit amax)).toNat

/-- One mantissa of R50 under a given exponent. -/
def mxMant (v : Q) (e : Nat) : Int × Flags :=
  let unit : Int := (e : Int) - 134
  let k := roundInt (v.scale unit) 0 0
  let big := 127 < k.natAbs
  let k' : Int := if big then (if k < 0 then -127 else 127) else k
  let fl1 : Flags := if big then fSa else 0
  let fl2 : Flags := if (Q.dyadic k' unit).eq v then 0 else fNx
  let fl3 : Flags := if k' == 0 && !v.isZero then fUf else 0
  (k', fl1 ||| fl2 ||| fl3)

/-- The value of an MX element code: kind 0 E2M1, 1 E4M3, 2 E5M2. -/
def mxElem (kind code : Nat) : Val :=
  match kind with
  | 0 =>
    let neg := code / 8 % 2 == 1
    let e := code / 2 % 4
    let f := code % 2
    let q := if e == 0 then Q.dyadic f (-1) else Q.dyadic (2 + f) ((e : Int) - 2)
    Val.ofQ (if neg then q.neg else q) false
  | 1 => fpToVal 12 code
  | _ => fpToVal 13 code

/-- An MX element under its E8M0 scale (R50), with nv for a NaN scale, NaN or infinite element. -/
def mxValue (kind code scale : Nat) : Q × Flags :=
  if scale == 0xFF then (⟨0, 1⟩, fNv)
  else match mxElem kind code with
    | .nan _ | .inf _ => (⟨0, 1⟩, fNv)
    | v => (v.num.mul (Q.dyadic 1 ((scale : Int) - 127)), 0)

/-! ## Error-feedback narrowing (R60) -/

/-- The pair (y, d) of VNRWF from type `u` to type `t` with the flags of both writes. R60 gives a residual of zero no sign, and calls the
residual of its first row representable, which it is not where a tiny x is rounded away from zero to a subnormal of `t`. DESIGN CHOICE
(log 56): a zero residual is +0, and such a residual is rounded to the nearest in `u` and raises no flag. -/
def narrowFeedback (u t bits rnd : Nat) (sat : Bool) (w : Nat) : Nat × Nat × Flags :=
  let x := fpToVal u bits
  let r := roundToFp x t rnd sat w
  match x with
  | .nan _ => (r.1, canonNan u, r.2)
  | .inf _ => (r.1, 0, r.2)
  | .zero _ => (r.1, 0, r.2)
  | .fin q =>
    match fpToVal t r.1 with
    | .nan _ | .inf _ => (r.1, bits, r.2)
    | y =>
      let d := Val.ofQ (q.sub y.num) false
      let rd := roundToFp d u 0 false 0
      if r.2 &&& (fOf ||| fSa) != 0 then (r.1, rd.1, r.2 ||| fSa ||| rd.2) else (r.1, rd.1, r.2)

/-! ## Philox (R61, R62) -/

def philoxRound (x0 x1 x2 x3 k0 k1 : Nat) : Nat × Nat × Nat × Nat :=
  let p := 0xD2511F53 * x0
  let q := 0xCD9E8D57 * x2
  ((q / 2 ^ 32) ^^^ x1 ^^^ k0, q % 2 ^ 32, (p / 2 ^ 32) ^^^ x3 ^^^ k1, p % 2 ^ 32)

def philoxRounds : Nat → Nat → Nat → Nat → Nat → Nat → Nat → List Nat
  | 0, x0, x1, x2, x3, _, _ => [x0, x1, x2, x3]
  | f + 1, x0, x1, x2, x3, k0, k1 =>
    let r := philoxRound x0 x1 x2 x3 k0 k1
    philoxRounds f r.1 r.2.1 r.2.2.1 r.2.2.2 ((k0 + 0x9E3779B9) % 2 ^ 32) ((k1 + 0xBB67AE85) % 2 ^ 32)

/-- Philox(c, k): four 32-bit words, word 0 first. -/
def philox (c k : Nat) : List Nat :=
  philoxRounds 10 (c % 2 ^ 32) (c / 2 ^ 32 % 2 ^ 32) (c / 2 ^ 64 % 2 ^ 32) (c / 2 ^ 96 % 2 ^ 32) (k % 2 ^ 32) (k / 2 ^ 32 % 2 ^ 32)

/-- The words of `n` consecutive blocks from counter `c` (R44). -/
def philoxBlocks : Nat → Nat → Nat → List Nat
  | 0, _, _ => []
  | n + 1, c, k => philox (c % 2 ^ 128) k ++ philoxBlocks n (c + 1) k

/-- Blocks that `n` lanes consume (R44). -/
def drawBlocks (n : Nat) : Nat := (n + 3) / 4

/-! ## Transcendental functions (06_vector R177, 10_barrel R326)

Enclosures in fixed point with `p` fraction bits, as (lower, upper) integers; the result is rounded when both ends round alike. -/

/-- Ceiling division. -/
def cdiv (a b : Nat) : Nat := (a + b - 1) / b

/-- Σ y^k / k! from term `t` on, lower sums by floors. -/
def expLo : Nat → Nat → Nat → Nat → Nat → Nat
  | 0, _, _, _, t => t
  | f + 1, p, k, y, t => t + expLo f p (k + 1) y (t * y / (k * 2 ^ p))

/-- Upper sums by ceilings; the tail is bounded by twice the last term. -/
def expHi : Nat → Nat → Nat → Nat → Nat → Nat
  | 0, _, _, _, t => 2 * t + 2
  | f + 1, p, k, y, t => t + expHi f p (k + 1) y (cdiv (t * y) (k * 2 ^ p))

/-- e^y for 0 ≤ y < 1, y in [lo, hi] / 2^p. -/
def expBounds (p lo hi : Nat) : Nat × Nat := (expLo (p / 4 + 16) p 1 lo (2 ^ p), expHi (p / 4 + 16) p 1 hi (2 ^ p))

/-- Σ z^(2k+1)/(2k+1) for the square `z2` and the current power `t`. -/
def atanhLo : Nat → Nat → Nat → Nat → Nat → Nat
  | 0, _, _, _, _ => 0
  | f + 1, p, k, z2, t => t / k + atanhLo f p (k + 2) z2 (t * z2 / 2 ^ p)
def atanhHi : Nat → Nat → Nat → Nat → Nat → Nat
  | 0, _, _, _, t => 2 * t + 2
  | f + 1, p, k, z2, t => cdiv t k + atanhHi f p (k + 2) z2 (cdiv (t * z2) (2 ^ p))

/-- atanh(a/b) for 0 ≤ a/b ≤ 1/3. -/
def atanhBounds (p a b : Nat) : Nat × Nat :=
  (atanhLo (p / 3 + 8) p 1 (a * a * 2 ^ p / (b * b)) (a * 2 ^ p / b),
   atanhHi (p / 3 + 8) p 1 (cdiv (a * a * 2 ^ p) (b * b)) (cdiv (a * 2 ^ p) b))

/-- ln 2 = 2 atanh(1/3). -/
def ln2Bounds (p : Nat) : Nat × Nat := let r := atanhBounds p 1 3
  (2 * r.1, 2 * r.2)

/-- Alternating Σ (−1)^k x^(2k+1)/(2k+1) with x = 1/b; `t` is 2^p / b^(2k+1). -/
def atanSum : Nat → Nat → Nat → Nat → Int
  | 0, _, _, _ => 0
  | f + 1, k, b2, t => (t / k : Nat) - atanSum f (k + 2) b2 (t / b2)

/-- π = 16 atan(1/5) − 4 atan(1/239); every floor costs less than one unit. -/
def piBounds (p : Nat) : Nat × Nat :=
  let n := p / 4 + 8
  let v := 16 * atanSum n 1 25 (2 ^ p / 5) - 4 * atanSum n 1 57121 (2 ^ p / 239)
  ((v - 40 * (n + 1)).toNat, (v + 40 * (n + 1)).toNat)

/-- Σ (−1)^j y^(2j + s)/(2j + s)! by alternating recursion; `t` is the current term, `k` its factorial index. -/
def trigSum : Nat → Nat → Nat → Nat → Nat → Int
  | 0, _, _, _, _ => 0
  | f + 1, p, k, y2, t => (t : Int) - trigSum f p (k + 2) y2 (t * y2 / ((k + 1) * (k + 2) * 2 ^ p))

/-- Floor and ceiling of a number with `p` fraction bits, for non-negative numbers. -/
def Q.fixLo (q : Q) (p : Nat) : Nat := q.num.natAbs * 2 ^ p / q.den
def Q.fixHi (q : Q) (p : Nat) : Nat := cdiv (q.num.natAbs * 2 ^ p) q.den

/-- Enclosure of a real: lower and upper numbers. -/
abbrev Enclosure := Q × Q

/-- 2^x for a non-integral `x`. -/
def exp2Enc (x : Q) (p : Nat) : Enclosure :=
  let n := x.num / x.den
  let f := x.sub (Q.ofInt n)
  let l := ln2Bounds p
  let r := expBounds p (f.fixLo p * l.1 / 2 ^ p) (cdiv (f.fixHi p * l.2) (2 ^ p))
  (Q.dyadic r.1 (n - p), Q.dyadic r.2 (n - p))

/-- e^x = 2^n e^(x − n ln 2) for a non-zero `x`. -/
def expEnc (x : Q) (p : Nat) : Enclosure :=
  let l := ln2Bounds p
  let xlo := x.num * 2 ^ p / x.den
  let n := xlo / (if 0 ≤ xlo then (l.2 : Int) else (l.1 : Int))
  let lo := xlo - (if 0 ≤ n then n * l.2 else n * l.1)
  let hi := xlo + 1 - (if 0 ≤ n then n * l.1 else n * l.2)
  let a := expBounds p lo.toNat hi.toNat
  (Q.dyadic a.1 (n - p), Q.dyadic a.2 (n - p))

/-- ln x as an exponent part and a mantissa part: x = m 2^e with m in [3/4, 3/2). -/
def lnParts (x : Q) (p : Nat) : Int × Enclosure :=
  let e0 := x.log2
  let m0 := x.scale e0
  let up := (Q.mk 3 2).le m0
  let e := if up then e0 + 1 else e0
  let m := if up then m0.scale 1 else m0
  let a := (m.num - m.den).natAbs
  let b := m.num.natAbs + m.den
  let r := atanhBounds p a b
  let neg := m.num < m.den
  (e, if neg then (Q.dyadic (-(2 * r.2 : Nat)) (-p), Q.dyadic (-(2 * r.1 : Nat)) (-p))
      else (Q.dyadic (2 * r.1 : Nat) (-p), Q.dyadic (2 * r.2 : Nat) (-p)))

/-- ln x of a positive number other than 1. -/
def lnEnc (x : Q) (p : Nat) : Enclosure :=
  let r := lnParts x p
  let l := ln2Bounds p
  let lo := if 0 ≤ r.1 then r.1 * l.1 else r.1 * l.2
  let hi := if 0 ≤ r.1 then r.1 * l.2 else r.1 * l.1
  ((Q.dyadic lo (-p)).add r.2.1, (Q.dyadic hi (-p)).add r.2.2)

/-- log2 x of a positive number that is no power of two. -/
def log2Enc (x : Q) (p : Nat) : Enclosure :=
  let r := lnParts x p
  let l := ln2Bounds p
  let llo : Q := ⟨l.1, 2 ^ p⟩
  let lhi : Q := ⟨l.2, 2 ^ p⟩
  let neg := decide (r.2.2.num < 0)
  let lo := if neg then r.2.1.div llo else r.2.1.div lhi
  let hi := if neg then r.2.2.div lhi else r.2.2.div llo
  ((Q.ofInt r.1).add lo, (Q.ofInt r.1).add hi)

/-- sin(π r) or cos(π r) for 0 < r ≤ 1/4. -/
def trigEnc (cosine : Bool) (r : Q) (p : Nat) : Enclosure :=
  let pi := piBounds p
  let y := r.fixLo p * pi.1 / 2 ^ p
  let w := cdiv (r.fixHi p * pi.2) (2 ^ p) - y + 4 * p + 8
  let y2 := y * y / 2 ^ p
  let n := p / 4 + 8
  let v := if cosine then trigSum n p 0 y2 (2 ^ p) else trigSum n p 1 y2 y
  (Q.dyadic (v - w) (-p), Q.dyadic (v + w) (-p))

/-- sin(π x): the sign and the reduced argument (cosine?, r), or none when x is integral. -/
def sinpiEnc (x : Q) (p : Nat) : Enclosure :=
  let m := x.num.natAbs % (2 * x.den)
  let neg := decide (x.num < 0) != decide (x.den ≤ m)
  let h := m % x.den
  let h' := if x.den < 2 * h then x.den - h else h
  let e := if x.den < 4 * h' then trigEnc true ⟨((x.den - 2 * h' : Nat) : Int), 2 * x.den⟩ p
    else trigEnc false ⟨(h' : Nat), x.den⟩ p
  if neg then (e.2.neg, e.1.neg) else e

/-- sin(π x) for |x| < 2^-200: between π x (1 − 2^-300) and π x. -/
def sinpiSmall (x : Q) (p : Nat) : Enclosure :=
  let pi := piBounds p
  let lo := x.abs.mul ⟨((pi.1 - 2 ^ (p - 300) : Nat) : Int), 2 ^ p⟩
  let hi := x.abs.mul ⟨(pi.2 : Int), 2 ^ p⟩
  if x.num < 0 then (hi.neg, lo.neg) else (lo, hi)

/-- The doubling of precision until both ends round alike; `p` is the precision of the first try. -/
def roundEnc : Nat → (Nat → Enclosure) → Nat → Nat → Nat → Bool → Nat × Flags
  | 0, f, p, t, rnd, sat => roundToFp (Val.ofQ (f p).1 false) t rnd sat 0
  | fuel + 1, f, p, t, rnd, sat =>
    let e := f p
    let a := roundToFp (Val.ofQ e.1 false) t rnd sat 0
    let b := roundToFp (Val.ofQ e.2 false) t rnd sat 0
    if a == b then a else roundEnc fuel f (2 * p) t rnd sat

/-- How many doublings are tried; 100 · 2^7 bits separate every f64 argument's value from a rounding boundary. -/
def encFuel : Nat := 7

/-- The functions of R177 and R326: 0 exp2, 1 log2, 2 rcp, 3 rsqrt, 4 exp, 5 ln, 6 sinpi, 7 cospi. -/
def special (fn t bits rnd : Nat) (sat : Bool) : Nat × Flags :=
  let x := fpToVal t bits
  let exact (v : Val) : Nat × Flags := roundToFp v t rnd sat 0
  let huge := Q.dyadic 3 4000
  let tinyQ := Q.dyadic 3 (-4000)
  match x with
  | .nan s => exact (.nan s)
  | .inf neg =>
    match fn with
    | 0 | 4 => if neg then exact (.zero false) else exact (.inf false)
    | 1 | 5 => if neg then exact (.nan true) else exact (.inf false)
    | 2 => exact (.zero neg)
    | 3 => if neg then exact (.nan true) else exact (.zero false)
    | _ => exact (.nan true)
  | .zero neg =>
    match fn with
    | 0 | 4 => exact (.fin (Q.ofInt 1))
    | 1 | 5 => let r := exact (.inf true)
      (r.1, r.2 ||| fDz)
    | 2 | 3 => let r := exact (.inf neg)
      (r.1, r.2 ||| fDz)
    | 6 => exact (.zero neg)
    | _ => exact (.fin (Q.ofInt 1))
  | .fin q =>
    let integral := q.num % q.den == 0
    match fn with
    | 0 =>
      if (Q.ofInt 3000).lt q then exact (.fin huge) else if q.lt (Q.ofInt (-3000)) then exact (.fin tinyQ)
      else if integral then exact (.fin (Q.dyadic 1 (q.num / q.den)))
      else roundEnc encFuel (exp2Enc q) 128 t rnd sat
    | 1 =>
      if q.num < 0 then exact (.nan true)
      else if (Q.dyadic 1 q.log2).eq q then exact (Val.ofQ (Q.ofInt q.log2) false)
      else roundEnc encFuel (log2Enc q) 128 t rnd sat
    | 2 => exact (.fin ((Q.ofInt 1).div q))
    | 3 => if q.num < 0 then exact (.nan true) else exact (.fin (sqrtQ ((Q.ofInt 1).div q) 400))
    | 4 =>
      if (Q.ofInt 3000).lt q then exact (.fin huge) else if q.lt (Q.ofInt (-3000)) then exact (.fin tinyQ)
      else roundEnc encFuel (expEnc q) 128 t rnd sat
    | 5 =>
      if q.num < 0 then exact (.nan true)
      else if q.eq (Q.ofInt 1) then exact (.zero false)
      else roundEnc encFuel (lnEnc q) 128 t rnd sat
    | 6 =>
      if integral then exact (.zero (decide (q.num < 0)))
      else if q.num * 2 % q.den == 0 then
        exact (.fin (Q.ofInt (if (q.num * 2 / q.den) % 4 == 1 then 1 else -1)))
      else if q.abs.lt (Q.dyadic 1 (-200)) then
        roundEnc encFuel (sinpiSmall q) 512 t rnd sat
      else roundEnc encFuel (sinpiEnc q) 512 t rnd sat
    | _ =>
      if integral then exact (.fin (Q.ofInt (if (q.num / q.den) % 2 == 0 then 1 else -1)))
      else if q.num * 2 % q.den == 0 then exact (.zero false)
      else if q.abs.lt (Q.dyadic 1 (-200)) then exact (.fin (Q.mk (2 ^ 300 - 1) (2 ^ 300)))
      else roundEnc encFuel (sinpiEnc (q.abs.add ⟨1, 2⟩)) 512 t rnd sat

end Sys2Proof.Machine
end

