-- ==== Sys2Proof/Config.lean ====
section
/-! DEFINITION. What the spec leaves to the implementation or to the environment, as constants without a value. -/

namespace Sys2Proof

/-- A duration the spec leaves open (log entry 5): the n-th one drawn, in clock periods. -/
opaque Config.freeDelay : Nat → Nat

/-- A value the spec leaves open or does not state: the n-th one drawn (each use has its own log entry). -/
opaque Config.freeValue : Nat → Nat

/-- The torus place of a domain position along an axis, whether the way between two positions goes in the minus direction, and the
measured latency of a port's link (14_fabric R436, R438; log entry 32). -/
opaque Config.torusAt : Nat → Nat → Nat
opaque Config.torusMinus : Nat → Nat → Bool
opaque Config.linkLatency : Nat → Nat

/-- Whether an image's RSASSA-PSS signature holds under the public key it carries, and the SHA-512 hash of that key (16_host R465; the
layout of an image is not in the spec, log entry 4). -/
opaque Config.imagePss : List (Nat × Byte) → Bool
opaque Config.imageKey : List (Nat × Byte) → BitVec 512
/-- An image's security version (log entry 4). -/
opaque Config.imageVersion : List (Nat × Byte) → BitVec 32
/-- An image's SHA-512 digest, byte 0 lowest (log entry 4). -/
opaque Config.imageDigest : List (Nat × Byte) → BitVec 512
/-- The bytes that firmware places in HBM for a system image (log entry 4). -/
opaque Config.systemBytes : List (Nat × Byte) → List (Nat × Byte)
/-- The page number of context 0's level-4 table (log entry 4). -/
opaque Config.systemRoot : List (Nat × Byte) → Nat
/-- Context 0's first task packet (log entry 4). -/
opaque Config.systemTask : List (Nat × Byte) → List Word
/-- The fused hash of the public key, byte 0 lowest, and PKGCAP (16_host R465, R468; log entry 4). -/
opaque Config.keyHash : BitVec 512
opaque Config.packageCap : BitVec 32
/-- The signature of an attestation report's contents, by the device attestation key with a number for its salt, and the key's certificate
(16_host R467; log entry 4). -/
opaque Config.attestSignature : List Byte → Nat → List Byte
opaque Config.attestCertificate : List Byte
/-- The kind field of an event-log entry (16_host R466; log entry 4). -/
opaque Config.eventKind : Nat → BitVec 16

end Sys2Proof
end

