-- ==== Sys2Proof/Decode.lean ====
section
/-! DEFINITION. Decoding and encoding of bundles, barrel words and mailbox commands (03_encoding R63 to R81, 16_host R460). -/

namespace Sys2Proof

/-- Why a slot, word or command is rejected (R75); bits are counted from the slot's or word's bit 0. -/
inductive DecodeError where
  /-- An opcode the map leaves unassigned. -/
  | illegalOpcode (opcode : Nat)
  /-- A field outside its range or a non-zero unread field. -/
  | illegalField (bit : Nat)
  /-- A barrel register field of 144 .. 255, or one that must name an x register and does not. -/
  | illegalRegister (bit value : Nat)
  deriving DecidableEq, Repr

def unpackA (x : BitVec 45) : FormA :=
  ⟨x.extractLsb' 39 6, x.extractLsb' 33 6, x.extractLsb' 27 6, x.extractLsb' 21 6, x.extractLsb' 16 5, x.extractLsb' 13 3,
    x.extractLsb' 12 1, x.extractLsb' 10 2, x.extractLsb' 0 10⟩
def unpackB (x : BitVec 45) : FormB := ⟨x.extractLsb' 39 6, x.extractLsb' 33 6, x.extractLsb' 0 33⟩
def unpackC (x : BitVec 45) : FormC :=
  ⟨x.extractLsb' 39 6, x.extractLsb' 35 4, x.extractLsb' 33 2, x.extractLsb' 11 22, x.extractLsb' 9 2, x.extractLsb' 4 5,
    x.extractLsb' 0 4⟩
def unpackD (x : BitVec 45) : FormD := ⟨x.extractLsb' 21 24, x.extractLsb' 15 6, x.extractLsb' 0 15⟩
def unpackE (x : BitVec 45) : FormE :=
  ⟨x.extractLsb' 39 6, x.extractLsb' 33 6, x.extractLsb' 27 6, x.extractLsb' 21 6, x.extractLsb' 16 5, x.extractLsb' 0 16⟩

/-- The operand bits of each form, from its row of R68. -/
def packA (f : FormA) : BitVec 45 := f.d ++ f.a ++ f.b ++ f.c ++ f.type ++ f.rnd ++ f.sat ++ f.wcls ++ f.func
def packB (f : FormB) : BitVec 45 := f.d ++ f.a ++ f.imm
def packC (f : FormC) : BitVec 45 := f.data ++ f.base ++ f.space ++ f.offset ++ f.wcls ++ f.type ++ f.func
def packD (f : FormD) : BitVec 45 := f.target ++ f.cond ++ f.func
def packE (f : FormE) : BitVec 45 := f.f1 ++ f.f2 ++ f.f3 ++ f.f4 ++ f.tag ++ f.func

/-- The sync slot's opcodes (R76) with the forms of R77. -/
def syncOf (op : Nat) (g : Gate) (x : BitVec 45) : Option Instr :=
  match op with
  | 0x01 => some (.waitt g (unpackE x))
  | 0x02 => some (.wopen g (unpackE x))
  | 0x03 => some (.wshut g (unpackE x))
  | 0x04 => some (.getpost g (unpackE x))
  | 0x05 => some (.bar g (unpackE x))
  | 0x06 => some (.rcnt g (unpackE x))
  | 0x07 => some (.fence g (unpackE x))
  | 0x08 => some (.prel g (unpackE x))
  | 0x09 => some (.pseal g (unpackE x))
  | 0x0A => some (.coll g (unpackE x))
  | 0x0B => some (.cabort g (unpackE x))
  | 0x0C => some (.rdtk g (unpackE x))
  | 0x0D => some (.yield g (unpackE x))
  | 0x0E => some (.signal g (unpackE x))
  | _ => none

/-- The scalar slot's opcodes (R76) with the forms of R77. -/
def scalarOf (op : Nat) (g : Gate) (x : BitVec 45) : Option Instr :=
  match op with
  | 0x01 => some (.add g (unpackA x))
  | 0x02 => some (.sub g (unpackA x))
  | 0x03 => some (.addi g (unpackB x))
  | 0x04 => some (.mul g (unpackA x))
  | 0x05 => some (.mulh g (unpackA x))
  | 0x06 => some (.mulhn g (unpackA x))
  | 0x07 => some (.div g (unpackA x))
  | 0x08 => some (.divn g (unpackA x))
  | 0x09 => some (.rem g (unpackA x))
  | 0x0A => some (.remn g (unpackA x))
  | 0x0B => some (.and g (unpackA x))
  | 0x0C => some (.or g (unpackA x))
  | 0x0D => some (.xor g (unpackA x))
  | 0x0E => some (.shl g (unpackA x))
  | 0x0F => some (.shr g (unpackA x))
  | 0x10 => some (.sar g (unpackA x))
  | 0x11 => some (.min g (unpackA x))
  | 0x12 => some (.max g (unpackA x))
  | 0x13 => some (.minn g (unpackA x))
  | 0x14 => some (.maxn g (unpackA x))
  | 0x15 => some (.clz g (unpackA x))
  | 0x16 => some (.popc g (unpackA x))
  | 0x17 => some (.li g (unpackB x))
  | 0x18 => some (.lih g (unpackB x))
  | 0x19 => some (.sel g (unpackA x))
  | 0x1A => some (.cmp g (unpackA x))
  | 0x1B => some (.plog g (unpackA x))
  | 0x1C => some (.br g (unpackD x))
  | 0x1D => some (.brp g (unpackD x))
  | 0x1E => some (.call g (unpackD x))
  | 0x1F => some (.ret g (unpackA x))
  | 0x20 => some (.loop g (unpackA x))
  | 0x21 => some (.lbrk g (unpackA x))
  | 0x22 => some (.lstr g (unpackA x))
  | 0x23 => some (.realign g (unpackA x))
  | 0x24 => some (.trap g (unpackA x))
  | 0x25 => some (.rtt g (unpackA x))
  | 0x26 => some (.halt g (unpackA x))
  | 0x27 => some (.mfc g (unpackA x))
  | 0x28 => some (.mtc g (unpackA x))
  | _ => none

/-- The load slot's opcodes (R76) with the forms of R77. -/
def loadOf (op : Nat) (g : Gate) (x : BitVec 45) : Option Instr :=
  match op with
  | 0x01 => some (.lds g (unpackC x))
  | 0x02 => some (.ldv g (unpackC x))
  | 0x03 => some (.ldvs g (unpackC x))
  | 0x04 => some (.ldvx g (unpackC x))
  | 0x05 => some (.ldvb g (unpackC x))
  | 0x06 => some (.ldk g (unpackC x))
  | _ => none

/-- The store slot's opcodes (R76) with the forms of R77. -/
def storeOf (op : Nat) (g : Gate) (x : BitVec 45) : Option Instr :=
  match op with
  | 0x01 => some (.sts g (unpackC x))
  | 0x02 => some (.stv g (unpackC x))
  | 0x03 => some (.stvm g (unpackC x))
  | 0x04 => some (.stvx g (unpackC x))
  | 0x05 => some (.stk g (unpackC x))
  | 0x06 => some (.strs g (unpackC x))
  | 0x07 => some (.strv g (unpackC x))
  | _ => none

/-- The vector slot's opcodes (R76) with the forms of R77. -/
def vectorOf (op : Nat) (g : Gate) (x : BitVec 45) : Option Instr :=
  match op with
  | 0x01 => some (.vadd g (unpackA x))
  | 0x02 => some (.vsub g (unpackA x))
  | 0x03 => some (.vmul g (unpackA x))
  | 0x04 => some (.vmulh g (unpackA x))
  | 0x05 => some (.vmin g (unpackA x))
  | 0x06 => some (.vmax g (unpackA x))
  | 0x07 => some (.vabs g (unpackA x))
  | 0x08 => some (.vneg g (unpackA x))
  | 0x09 => some (.vand g (unpackA x))
  | 0x0A => some (.vor g (unpackA x))
  | 0x0B => some (.vxor g (unpackA x))
  | 0x0C => some (.vnot g (unpackA x))
  | 0x0D => let f := unpackA x; some (if fld f.func 8 1 == 1 then .vshlImm g f else .vshl g f)
  | 0x0E => let f := unpackA x; some (if fld f.func 8 1 == 1 then .vshrImm g f else .vshr g f)
  | 0x0F => let f := unpackA x; some (if fld f.func 8 1 == 1 then .vsarImm g f else .vsar g f)
  | 0x10 => some (.vadds g (unpackA x))
  | 0x11 => some (.vsubs g (unpackA x))
  | 0x12 => some (.vfadd g (unpackA x))
  | 0x13 => some (.vfsub g (unpackA x))
  | 0x14 => some (.vfmul g (unpackA x))
  | 0x15 => some (.vfma g (unpackA x))
  | 0x16 => some (.vfms g (unpackA x))
  | 0x17 => some (.vfdiv g (unpackA x))
  | 0x18 => some (.vfsqrt g (unpackA x))
  | 0x19 => some (.vfmin g (unpackA x))
  | 0x1A => some (.vfmax g (unpackA x))
  | 0x1B => some (.vfabs g (unpackA x))
  | 0x1C => some (.vfneg g (unpackA x))
  | 0x1D => some (.vfcls g (unpackA x))
  | 0x1E => some (.vcmp g (unpackA x))
  | 0x1F => some (.vfcmp g (unpackA x))
  | 0x20 => some (.vsel g (unpackA x))
  | 0x21 => some (.vcas g (unpackA x))
  | 0x22 => some (.vtest g (unpackA x))
  | 0x23 => some (.vperm g (unpackA x))
  | 0x24 => some (.vbcast g (unpackA x))
  | 0x25 => some (.vrot g (unpackA x))
  | 0x26 => some (.vslide g (unpackA x))
  | 0x27 => some (.vred g (unpackA x))
  | 0x28 => some (.vscan g (unpackA x))
  | 0x29 => some (.vcvt g (unpackA x))
  | 0x2A => some (.vnrw g (unpackA x))
  | 0x2B => some (.vnrwf g (unpackA x))
  | 0x2C => some (.vwid g (unpackA x))
  | 0x2D => some (.vbexp g (unpackA x))
  | 0x2E => some (.vqb g (unpackA x))
  | 0x2F => some (.vdqb g (unpackA x))
  | 0x30 => let f := unpackA x; some (if fld f.func 0 1 == 1 then .vmxCvt g f else .vmxFit g f)
  | 0x31 => some (.vexp2 g (unpackA x))
  | 0x32 => some (.vlog2 g (unpackA x))
  | 0x33 => some (.vrcp g (unpackA x))
  | 0x34 => some (.vrsq g (unpackA x))
  | 0x35 => some (.vbias g (unpackA x))
  | 0x36 => some (.vrng g (unpackA x))
  | 0x37 => some (.vmov g (unpackA x))
  | 0x38 => some (.kand g (unpackA x))
  | 0x39 => some (.kor g (unpackA x))
  | 0x3A => some (.kxor g (unpackA x))
  | 0x3B => some (.knot g (unpackA x))
  | 0x3C => some (.kpop g (unpackA x))
  | 0x3D => some (.kfirst g (unpackA x))
  | _ => none

/-- The matrix slot's opcodes (R76) with the forms of R77. -/
def matrixOf (op : Nat) (g : Gate) (x : BitVec 45) : Option Instr :=
  match op with
  | 0x01 => some (.mlds g (unpackE x))
  | 0x02 => some (.mldst g (unpackE x))
  | 0x03 => some (.mswap g (unpackE x))
  | 0x04 => some (.mmul g (unpackE x))
  | 0x05 => some (.mmul64 g (unpackE x))
  | 0x06 => some (.mzero g (unpackE x))
  | 0x07 => some (.mrdz g (unpackE x))
  | 0x08 => some (.mwrz g (unpackE x))
  | 0x09 => some (.mgang g (unpackE x))
  | 0x0A => some (.mscl g (unpackE x))
  | 0x0B => some (.mchk g (unpackE x))
  | 0x0C => some (.mec g (unpackE x))
  | _ => none

/-- The copy slot's opcodes (R76) with the forms of R77. -/
def copyOf (op : Nat) (g : Gate) (x : BitVec 45) : Option Instr :=
  match op with
  | 0x01 => some (.cpt g (unpackE x))
  | 0x02 => some (.cptx g (unpackE x))
  | 0x03 => some (.cph g (unpackE x))
  | 0x04 => some (.cpw g (unpackE x))
  | 0x05 => some (.cpg g (unpackE x))
  | 0x06 => some (.cps g (unpackE x))
  | 0x07 => some (.cpm g (unpackE x))
  | 0x08 => some (.cpd g (unpackE x))
  | 0x09 => some (.cpf g (unpackE x))
  | 0x0A => some (.cdisc g (unpackE x))
  | 0x0B => some (.cwany g (unpackE x))
  | 0x0C => some (.cwall g (unpackE x))
  | 0x0D => some (.cfirst g (unpackE x))
  | 0x0E => some (.ctags g (unpackE x))
  | 0x0F => some (.ccancel g (unpackE x))
  | _ => none

/-- The barrel opcode map (R80). -/
def barrelOf (op : Nat) : Option Instr :=
  match op with
  | 0x01 => some .barrelAdd
  | 0x02 => some .barrelAddi
  | 0x03 => some .barrelSub
  | 0x04 => some .barrelMul
  | 0x05 => some .barrelMulh
  | 0x06 => some .barrelMulhn
  | 0x07 => some .barrelDiv
  | 0x08 => some .barrelDivn
  | 0x09 => some .barrelRem
  | 0x0A => some .barrelRemn
  | 0x0B => some .barrelAnd
  | 0x0C => some .andi
  | 0x0D => some .barrelOr
  | 0x0E => some .ori
  | 0x0F => some .barrelXor
  | 0x10 => some .xori
  | 0x11 => some .barrelShl
  | 0x12 => some .shli
  | 0x13 => some .barrelShr
  | 0x14 => some .shri
  | 0x15 => some .barrelSar
  | 0x16 => some .sari
  | 0x17 => some .slt
  | 0x18 => some .sltn
  | 0x19 => some .slti
  | 0x1A => some .barrelLih
  | 0x1B => some .barrelClz
  | 0x1C => some .barrelPopc
  | 0x1D => some .sext
  | 0x1E => some .zext
  | 0x20 => some .fadd
  | 0x21 => some .fsub
  | 0x22 => some .fmul
  | 0x23 => some .fdiv
  | 0x24 => some .fsqrt
  | 0x25 => some .fma
  | 0x26 => some .fms
  | 0x27 => some .fnma
  | 0x28 => some .fmin
  | 0x29 => some .fmax
  | 0x2A => some .fcmp
  | 0x2B => some .fcls
  | 0x2C => some .fcvt
  | 0x2D => some .fsgn
  | 0x2E => some .frnd
  | 0x2F => some .fgetf
  | 0x30 => some .fsetf
  | 0x38 => some .ld
  | 0x39 => some .st
  | 0x3A => some .lde
  | 0x3B => some .ste
  | 0x3C => some .ldp
  | 0x3D => some .amo
  | 0x3E => some .cas
  | 0x3F => some .barrelFence
  | 0x40 => some .wld
  | 0x41 => some .wst
  | 0x42 => some .wpost
  | 0x48 => some .beq
  | 0x49 => some .bne
  | 0x4A => some .blt
  | 0x4B => some .bge
  | 0x4C => some .bltn
  | 0x4D => some .bgen
  | 0x4E => some .jmp
  | 0x4F => some .jmpr
  | 0x50 => some .barrelCall
  | 0x51 => some .callr
  | 0x52 => some .barrelRet
  | 0x58 => some .fork
  | 0x59 => some .join
  | 0x5A => some .yld
  | 0x5B => some .park
  | 0x5C => some .wake
  | 0x5D => some .tqget
  | 0x5E => some .tqput
  | 0x5F => some .emigr
  | 0x60 => some .send
  | 0x61 => some .recv
  | 0x62 => some .mcast
  | 0x63 => some .tokpass
  | 0x64 => some .tokwait
  | 0x68 => some .sfn
  | 0x69 => some .rngpx
  | 0x70 => some .sxopen
  | 0x71 => some .sxapp
  | 0x72 => some .sxqry
  | 0x73 => some .sxrep
  | 0x74 => some .sxsave
  | 0x75 => some .sxload
  | 0x76 => some .sxclose
  | 0x77 => some .smpd
  | 0x78 => some .propen
  | 0x79 => some .barrelPrel
  | 0x7A => some .barrelPseal
  | 0x7B => some .pcheck
  | 0x7C => some .prest
  | 0x7D => some .prpt
  | 0x80 => some .barrelTrap
  | 0x81 => some .rte
  | 0x82 => some .getc
  | 0x83 => some .setc
  | 0x84 => some .exit
  | _ => none

/-- The opcode and packed operand of a slot instruction, from R76 and R68. -/
def slotParts (i : Instr) : Option (Gate × Nat × BitVec 45) :=
  match i with
  | .waitt g f => some (g, 0x01, packE f)
  | .wopen g f => some (g, 0x02, packE f)
  | .wshut g f => some (g, 0x03, packE f)
  | .getpost g f => some (g, 0x04, packE f)
  | .bar g f => some (g, 0x05, packE f)
  | .rcnt g f => some (g, 0x06, packE f)
  | .fence g f => some (g, 0x07, packE f)
  | .prel g f => some (g, 0x08, packE f)
  | .pseal g f => some (g, 0x09, packE f)
  | .coll g f => some (g, 0x0A, packE f)
  | .cabort g f => some (g, 0x0B, packE f)
  | .rdtk g f => some (g, 0x0C, packE f)
  | .yield g f => some (g, 0x0D, packE f)
  | .signal g f => some (g, 0x0E, packE f)
  | .add g f => some (g, 0x01, packA f)
  | .sub g f => some (g, 0x02, packA f)
  | .addi g f => some (g, 0x03, packB f)
  | .mul g f => some (g, 0x04, packA f)
  | .mulh g f => some (g, 0x05, packA f)
  | .mulhn g f => some (g, 0x06, packA f)
  | .div g f => some (g, 0x07, packA f)
  | .divn g f => some (g, 0x08, packA f)
  | .rem g f => some (g, 0x09, packA f)
  | .remn g f => some (g, 0x0A, packA f)
  | .and g f => some (g, 0x0B, packA f)
  | .or g f => some (g, 0x0C, packA f)
  | .xor g f => some (g, 0x0D, packA f)
  | .shl g f => some (g, 0x0E, packA f)
  | .shr g f => some (g, 0x0F, packA f)
  | .sar g f => some (g, 0x10, packA f)
  | .min g f => some (g, 0x11, packA f)
  | .max g f => some (g, 0x12, packA f)
  | .minn g f => some (g, 0x13, packA f)
  | .maxn g f => some (g, 0x14, packA f)
  | .clz g f => some (g, 0x15, packA f)
  | .popc g f => some (g, 0x16, packA f)
  | .li g f => some (g, 0x17, packB f)
  | .lih g f => some (g, 0x18, packB f)
  | .sel g f => some (g, 0x19, packA f)
  | .cmp g f => some (g, 0x1A, packA f)
  | .plog g f => some (g, 0x1B, packA f)
  | .br g f => some (g, 0x1C, packD f)
  | .brp g f => some (g, 0x1D, packD f)
  | .call g f => some (g, 0x1E, packD f)
  | .ret g f => some (g, 0x1F, packA f)
  | .loop g f => some (g, 0x20, packA f)
  | .lbrk g f => some (g, 0x21, packA f)
  | .lstr g f => some (g, 0x22, packA f)
  | .realign g f => some (g, 0x23, packA f)
  | .trap g f => some (g, 0x24, packA f)
  | .rtt g f => some (g, 0x25, packA f)
  | .halt g f => some (g, 0x26, packA f)
  | .mfc g f => some (g, 0x27, packA f)
  | .mtc g f => some (g, 0x28, packA f)
  | .lds g f => some (g, 0x01, packC f)
  | .ldv g f => some (g, 0x02, packC f)
  | .ldvs g f => some (g, 0x03, packC f)
  | .ldvx g f => some (g, 0x04, packC f)
  | .ldvb g f => some (g, 0x05, packC f)
  | .ldk g f => some (g, 0x06, packC f)
  | .sts g f => some (g, 0x01, packC f)
  | .stv g f => some (g, 0x02, packC f)
  | .stvm g f => some (g, 0x03, packC f)
  | .stvx g f => some (g, 0x04, packC f)
  | .stk g f => some (g, 0x05, packC f)
  | .strs g f => some (g, 0x06, packC f)
  | .strv g f => some (g, 0x07, packC f)
  | .vadd g f => some (g, 0x01, packA f)
  | .vsub g f => some (g, 0x02, packA f)
  | .vmul g f => some (g, 0x03, packA f)
  | .vmulh g f => some (g, 0x04, packA f)
  | .vmin g f => some (g, 0x05, packA f)
  | .vmax g f => some (g, 0x06, packA f)
  | .vabs g f => some (g, 0x07, packA f)
  | .vneg g f => some (g, 0x08, packA f)
  | .vand g f => some (g, 0x09, packA f)
  | .vor g f => some (g, 0x0A, packA f)
  | .vxor g f => some (g, 0x0B, packA f)
  | .vnot g f => some (g, 0x0C, packA f)
  | .vshl g f => some (g, 0x0D, packA f)
  | .vshlImm g f => some (g, 0x0D, packA f)
  | .vshr g f => some (g, 0x0E, packA f)
  | .vshrImm g f => some (g, 0x0E, packA f)
  | .vsar g f => some (g, 0x0F, packA f)
  | .vsarImm g f => some (g, 0x0F, packA f)
  | .vadds g f => some (g, 0x10, packA f)
  | .vsubs g f => some (g, 0x11, packA f)
  | .vfadd g f => some (g, 0x12, packA f)
  | .vfsub g f => some (g, 0x13, packA f)
  | .vfmul g f => some (g, 0x14, packA f)
  | .vfma g f => some (g, 0x15, packA f)
  | .vfms g f => some (g, 0x16, packA f)
  | .vfdiv g f => some (g, 0x17, packA f)
  | .vfsqrt g f => some (g, 0x18, packA f)
  | .vfmin g f => some (g, 0x19, packA f)
  | .vfmax g f => some (g, 0x1A, packA f)
  | .vfabs g f => some (g, 0x1B, packA f)
  | .vfneg g f => some (g, 0x1C, packA f)
  | .vfcls g f => some (g, 0x1D, packA f)
  | .vcmp g f => some (g, 0x1E, packA f)
  | .vfcmp g f => some (g, 0x1F, packA f)
  | .vsel g f => some (g, 0x20, packA f)
  | .vcas g f => some (g, 0x21, packA f)
  | .vtest g f => some (g, 0x22, packA f)
  | .vperm g f => some (g, 0x23, packA f)
  | .vbcast g f => some (g, 0x24, packA f)
  | .vrot g f => some (g, 0x25, packA f)
  | .vslide g f => some (g, 0x26, packA f)
  | .vred g f => some (g, 0x27, packA f)
  | .vscan g f => some (g, 0x28, packA f)
  | .vcvt g f => some (g, 0x29, packA f)
  | .vnrw g f => some (g, 0x2A, packA f)
  | .vnrwf g f => some (g, 0x2B, packA f)
  | .vwid g f => some (g, 0x2C, packA f)
  | .vbexp g f => some (g, 0x2D, packA f)
  | .vqb g f => some (g, 0x2E, packA f)
  | .vdqb g f => some (g, 0x2F, packA f)
  | .vmxFit g f => some (g, 0x30, packA f)
  | .vmxCvt g f => some (g, 0x30, packA f)
  | .vexp2 g f => some (g, 0x31, packA f)
  | .vlog2 g f => some (g, 0x32, packA f)
  | .vrcp g f => some (g, 0x33, packA f)
  | .vrsq g f => some (g, 0x34, packA f)
  | .vbias g f => some (g, 0x35, packA f)
  | .vrng g f => some (g, 0x36, packA f)
  | .vmov g f => some (g, 0x37, packA f)
  | .kand g f => some (g, 0x38, packA f)
  | .kor g f => some (g, 0x39, packA f)
  | .kxor g f => some (g, 0x3A, packA f)
  | .knot g f => some (g, 0x3B, packA f)
  | .kpop g f => some (g, 0x3C, packA f)
  | .kfirst g f => some (g, 0x3D, packA f)
  | .mlds g f => some (g, 0x01, packE f)
  | .mldst g f => some (g, 0x02, packE f)
  | .mswap g f => some (g, 0x03, packE f)
  | .mmul g f => some (g, 0x04, packE f)
  | .mmul64 g f => some (g, 0x05, packE f)
  | .mzero g f => some (g, 0x06, packE f)
  | .mrdz g f => some (g, 0x07, packE f)
  | .mwrz g f => some (g, 0x08, packE f)
  | .mgang g f => some (g, 0x09, packE f)
  | .mscl g f => some (g, 0x0A, packE f)
  | .mchk g f => some (g, 0x0B, packE f)
  | .mec g f => some (g, 0x0C, packE f)
  | .cpt g f => some (g, 0x01, packE f)
  | .cptx g f => some (g, 0x02, packE f)
  | .cph g f => some (g, 0x03, packE f)
  | .cpw g f => some (g, 0x04, packE f)
  | .cpg g f => some (g, 0x05, packE f)
  | .cps g f => some (g, 0x06, packE f)
  | .cpm g f => some (g, 0x07, packE f)
  | .cpd g f => some (g, 0x08, packE f)
  | .cpf g f => some (g, 0x09, packE f)
  | .cdisc g f => some (g, 0x0A, packE f)
  | .cwany g f => some (g, 0x0B, packE f)
  | .cwall g f => some (g, 0x0C, packE f)
  | .cfirst g f => some (g, 0x0D, packE f)
  | .ctags g f => some (g, 0x0E, packE f)
  | .ccancel g f => some (g, 0x0F, packE f)
  | _ => none

/-- The opcode of a barrel instruction, from R80. -/
def barrelOpcode (i : Instr) : Option Nat :=
  match i with
  | .barrelAdd => some 0x01
  | .barrelAddi => some 0x02
  | .barrelSub => some 0x03
  | .barrelMul => some 0x04
  | .barrelMulh => some 0x05
  | .barrelMulhn => some 0x06
  | .barrelDiv => some 0x07
  | .barrelDivn => some 0x08
  | .barrelRem => some 0x09
  | .barrelRemn => some 0x0A
  | .barrelAnd => some 0x0B
  | .andi => some 0x0C
  | .barrelOr => some 0x0D
  | .ori => some 0x0E
  | .barrelXor => some 0x0F
  | .xori => some 0x10
  | .barrelShl => some 0x11
  | .shli => some 0x12
  | .barrelShr => some 0x13
  | .shri => some 0x14
  | .barrelSar => some 0x15
  | .sari => some 0x16
  | .slt => some 0x17
  | .sltn => some 0x18
  | .slti => some 0x19
  | .barrelLih => some 0x1A
  | .barrelClz => some 0x1B
  | .barrelPopc => some 0x1C
  | .sext => some 0x1D
  | .zext => some 0x1E
  | .fadd => some 0x20
  | .fsub => some 0x21
  | .fmul => some 0x22
  | .fdiv => some 0x23
  | .fsqrt => some 0x24
  | .fma => some 0x25
  | .fms => some 0x26
  | .fnma => some 0x27
  | .fmin => some 0x28
  | .fmax => some 0x29
  | .fcmp => some 0x2A
  | .fcls => some 0x2B
  | .fcvt => some 0x2C
  | .fsgn => some 0x2D
  | .frnd => some 0x2E
  | .fgetf => some 0x2F
  | .fsetf => some 0x30
  | .ld => some 0x38
  | .st => some 0x39
  | .lde => some 0x3A
  | .ste => some 0x3B
  | .ldp => some 0x3C
  | .amo => some 0x3D
  | .cas => some 0x3E
  | .barrelFence => some 0x3F
  | .wld => some 0x40
  | .wst => some 0x41
  | .wpost => some 0x42
  | .beq => some 0x48
  | .bne => some 0x49
  | .blt => some 0x4A
  | .bge => some 0x4B
  | .bltn => some 0x4C
  | .bgen => some 0x4D
  | .jmp => some 0x4E
  | .jmpr => some 0x4F
  | .barrelCall => some 0x50
  | .callr => some 0x51
  | .barrelRet => some 0x52
  | .fork => some 0x58
  | .join => some 0x59
  | .yld => some 0x5A
  | .park => some 0x5B
  | .wake => some 0x5C
  | .tqget => some 0x5D
  | .tqput => some 0x5E
  | .emigr => some 0x5F
  | .send => some 0x60
  | .recv => some 0x61
  | .mcast => some 0x62
  | .tokpass => some 0x63
  | .tokwait => some 0x64
  | .sfn => some 0x68
  | .rngpx => some 0x69
  | .sxopen => some 0x70
  | .sxapp => some 0x71
  | .sxqry => some 0x72
  | .sxrep => some 0x73
  | .sxsave => some 0x74
  | .sxload => some 0x75
  | .sxclose => some 0x76
  | .smpd => some 0x77
  | .propen => some 0x78
  | .barrelPrel => some 0x79
  | .barrelPseal => some 0x7A
  | .pcheck => some 0x7B
  | .prest => some 0x7C
  | .prpt => some 0x7D
  | .barrelTrap => some 0x80
  | .rte => some 0x81
  | .getc => some 0x82
  | .setc => some 0x83
  | .exit => some 0x84
  | _ => none

/-- The slots an instruction may stand in: 3 and 2 for vector instructions, its own slot otherwise, 8 and 9 for crossings,
10 for barrel words, 11 for mailbox commands, none for events (R63). -/
def slotsOf (i : Instr) : List Nat :=
  match i with
  | .waitt _ _ | .wopen _ _ | .wshut _ _ | .getpost _ _ | .bar _ _ | .rcnt _ _ | .fence _ _ | .prel _ _ | .pseal _ _
  | .coll _ _ | .cabort _ _ | .rdtk _ _ | .yield _ _ | .signal _ _ => [7]
  | .add _ _ | .sub _ _ | .addi _ _ | .mul _ _ | .mulh _ _ | .mulhn _ _ | .div _ _ | .divn _ _ | .rem _ _ | .remn _ _
  | .and _ _ | .or _ _ | .xor _ _ | .shl _ _ | .shr _ _ | .sar _ _ | .min _ _ | .max _ _ | .minn _ _ | .maxn _ _ | .clz _ _
  | .popc _ _ | .li _ _ | .lih _ _ | .sel _ _ | .cmp _ _ | .plog _ _ | .br _ _ | .brp _ _ | .call _ _ | .ret _ _ | .loop _ _
  | .lbrk _ _ | .lstr _ _ | .realign _ _ | .trap _ _ | .rtt _ _ | .halt _ _ | .mfc _ _ | .mtc _ _ => [6]
  | .lds _ _ | .ldv _ _ | .ldvs _ _ | .ldvx _ _ | .ldvb _ _ | .ldk _ _ => [5]
  | .sts _ _ | .stv _ _ | .stvm _ _ | .stvx _ _ | .stk _ _ | .strs _ _ | .strv _ _ => [4]
  | .vadd _ _ | .vsub _ _ | .vmul _ _ | .vmulh _ _ | .vmin _ _ | .vmax _ _ | .vabs _ _ | .vneg _ _ | .vand _ _ | .vor _ _
  | .vxor _ _ | .vnot _ _ | .vshl _ _ | .vshlImm _ _ | .vshr _ _ | .vshrImm _ _ | .vsar _ _ | .vsarImm _ _ | .vadds _ _
  | .vsubs _ _ | .vfadd _ _ | .vfsub _ _ | .vfmul _ _ | .vfma _ _ | .vfms _ _ | .vfdiv _ _ | .vfsqrt _ _ | .vfmin _ _
  | .vfmax _ _ | .vfabs _ _ | .vfneg _ _ | .vfcls _ _ | .vcmp _ _ | .vfcmp _ _ | .vsel _ _ | .vcas _ _ | .vtest _ _
  | .vperm _ _ | .vbcast _ _ | .vrot _ _ | .vslide _ _ | .vred _ _ | .vscan _ _ | .vcvt _ _ | .vnrw _ _ | .vnrwf _ _
  | .vwid _ _ | .vbexp _ _ | .vqb _ _ | .vdqb _ _ | .vmxFit _ _ | .vmxCvt _ _ | .vexp2 _ _ | .vlog2 _ _ | .vrcp _ _
  | .vrsq _ _ | .vbias _ _ | .vrng _ _ | .vmov _ _ | .kand _ _ | .kor _ _ | .kxor _ _ | .knot _ _ | .kpop _ _ | .kfirst _ _ => [3, 2]
  | .mlds _ _ | .mldst _ _ | .mswap _ _ | .mmul _ _ | .mmul64 _ _ | .mzero _ _ | .mrdz _ _ | .mwrz _ _ | .mgang _ _
  | .mscl _ _ | .mchk _ _ | .mec _ _ => [1]
  | .cpt _ _ | .cptx _ _ | .cph _ _ | .cpw _ _ | .cpg _ _ | .cps _ _ | .cpm _ _ | .cpd _ _ | .cpf _ _ | .cdisc _ _
  | .cwany _ _ | .cwall _ _ | .cfirst _ _ | .ctags _ _ | .ccancel _ _ => [0]
  | .xin _ _ => [8]
  | .xout _ _ _ => [9]
  | .barrelAdd | .barrelAddi | .barrelSub | .barrelMul | .barrelMulh | .barrelMulhn | .barrelDiv | .barrelDivn | .barrelRem
  | .barrelRemn | .barrelAnd | .andi | .barrelOr | .ori | .barrelXor | .xori | .barrelShl | .shli | .barrelShr | .shri
  | .barrelSar | .sari | .slt | .sltn | .slti | .barrelLih | .barrelClz | .barrelPopc | .sext | .zext | .fadd | .fsub
  | .fmul | .fdiv | .fsqrt | .fma | .fms | .fnma | .fmin | .fmax | .fcmp | .fcls | .fcvt | .fsgn | .frnd | .fgetf | .fsetf
  | .ld | .st | .lde | .ste | .ldp | .amo | .cas | .barrelFence | .wld | .wst | .wpost | .beq | .bne | .blt | .bge | .bltn
  | .bgen | .jmp | .jmpr | .barrelCall | .callr | .barrelRet | .fork | .join | .yld | .park | .wake | .tqget | .tqput
  | .emigr | .send | .recv | .mcast | .tokpass | .tokwait | .sfn | .rngpx | .sxopen | .sxapp | .sxqry | .sxrep | .sxsave
  | .sxload | .sxclose | .smpd | .propen | .barrelPrel | .barrelPseal | .pcheck | .prest | .prpt | .barrelTrap | .rte
  | .getc | .setc | .exit => [10]
  | .neg _ | .write _ | .read _ | .ctxnew _ | .ctxrel _ | .stage _ | .commitSystemImage _ | .commitFirmware _ | .attest _
  | .evread _ => [11]
  | _ => []

/-- The instruction an opcode names in a slot (R63, R76). -/
def slotOf (slot op : Nat) (g : Gate) (x : BitVec 45) : Option Instr :=
  match slot with
  | 7 => syncOf op g x
  | 6 => scalarOf op g x
  | 5 => loadOf op g x
  | 4 => storeOf op g x
  | 3 | 2 => vectorOf op g x
  | 1 => matrixOf op g x
  | 0 => copyOf op g x
  | _ => none

/-- The first failing check, as an illegal-field error. -/
def firstBad (cs : List Check) : Option DecodeError :=
  match cs.find? (fun c => !c.1) with
  | some c => some (.illegalField c.2)
  | none => none

/-- Decode one slot: none for its NOP (R66); the iter field is checked first, then the opcode, then the operand fields (R74). -/
def decodeSlot (slot : Nat) (x : BitVec 58) : Except DecodeError (Option Instr) :=
  let g : Gate := ⟨x.extractLsb' 56 2, x.extractLsb' 52 4⟩
  let op := (x.extractLsb' 45 7).toNat
  if g.iter == 3 then .error (.illegalField 56)
  else if op == 0 then
    if x == 0 then .ok none
    else .error (.illegalField (if g.iter != 0 then 56 else if g.guard != 0 then 52 else 0))
  else match slotOf slot op g (x.extractLsb' 0 45) with
    | none => .error (.illegalOpcode op)
    | some i => match firstBad (fieldChecks slot i) with
      | some e => .error e
      | none => .ok (some i)

/-- The bits of a slot instruction, none for what has no slot (R66). -/
def encodeSlot (i : Instr) : Option (BitVec 58) :=
  match slotParts i with
  | some (g, op, x) => some (g.iter ++ g.guard ++ BitVec.ofNat 7 op ++ x)
  | none => none

/-- The xin field of a bundle, 13 bits with the valid bit on top (R65). -/
def decodeXin (x : BitVec 13) : Except DecodeError (Option Instr) :=
  let src := x.extractLsb' 6 6; let dst := x.extractLsb' 0 6
  if x.extractLsb' 12 1 == 0 then
    if src != 0 then .error (.illegalField 501) else if dst != 0 then .error (.illegalField 495) else .ok none
  else match firstBad (fieldChecks 8 (.xin src dst)) with
    | some e => .error e
    | none => .ok (some (.xin src dst))

/-- The xout field of a bundle, 18 bits with the valid bit on top (R65). -/
def decodeXout (x : BitVec 18) : Except DecodeError (Option Instr) :=
  let src := x.extractLsb' 11 6; let lane := x.extractLsb' 6 5; let dst := x.extractLsb' 0 6
  if x.extractLsb' 17 1 == 0 then
    if src != 0 then .error (.illegalField 488) else if lane != 0 then .error (.illegalField 483)
    else if dst != 0 then .error (.illegalField 477) else .ok none
  else match firstBad (fieldChecks 9 (.xout src lane dst)) with
    | some e => .error e
    | none => .ok (some (.xout src lane dst))

def encodeXin (i : Instr) : Option (BitVec 13) :=
  match i with
  | .xin src dst => some (1#1 ++ src ++ dst)
  | _ => none

def encodeXout (i : Instr) : Option (BitVec 18) :=
  match i with
  | .xout src lane dst => some (1#1 ++ src ++ lane ++ dst)
  | _ => none

/-- A decoded bundle: its stop bit and its instructions with their positions, slots 7 down to 0, then xin (8) and xout (9). -/
structure Bundle where
  stop   : Bool
  instrs : List (Nat × Instr)
  deriving DecidableEq, Repr

/-- Where a bundle fails to decode: the position for TSLOT, and the error with its bit counted inside the bundle (R75). -/
structure BundleError where
  position : Nat
  error    : DecodeError
  deriving DecidableEq, Repr

/-- The bits of slot `k` of a bundle (R63). -/
def slotBits (b : BitVec 512) (k : Nat) : BitVec 58 := b.extractLsb' (58 * k) 58

/-- Move a slot-relative bit to the bundle's numbering. -/
def DecodeError.shift (e : DecodeError) (base : Nat) : DecodeError :=
  match e with
  | .illegalField bit => .illegalField (base + bit)
  | e => e

/-- Decode the slots listed, in order, stopping at the first failure (R74). -/
def decodeSlots (b : BitVec 512) : List Nat → Except BundleError (List (Nat × Instr))
  | [] => .ok []
  | k :: ks =>
    match decodeSlot k (slotBits b k) with
    | .error e => .error ⟨k, e.shift (58 * k)⟩
    | .ok none => decodeSlots b ks
    | .ok (some i) => match decodeSlots b ks with
      | .error e => .error e
      | .ok is => .ok ((k, i) :: is)

/-- Decode a bundle: the header first, then slots 7 down to 0, then xin and xout (R63, R74). -/
def decodeBundle (b : BitVec 512) : Except BundleError Bundle :=
  if b.extractLsb' 509 2 != 0 then .error ⟨15, .illegalField 509⟩
  else if b.extractLsb' 508 1 != 0 then .error ⟨15, .illegalField 508⟩
  else if b.extractLsb' 464 13 != 0 then .error ⟨15, .illegalField 464⟩
  else match decodeSlots b [7, 6, 5, 4, 3, 2, 1, 0] with
    | .error e => .error e
    | .ok is =>
      match decodeXin (b.extractLsb' 495 13) with
      | .error e => .error ⟨8, e⟩
      | .ok xi => match decodeXout (b.extractLsb' 477 18) with
        | .error e => .error ⟨9, e⟩
        | .ok xo =>
          .ok ⟨b.extractLsb' 511 1 == 1, is ++ (match xi with | some i => [(8, i)] | none => []) ++
            (match xo with | some i => [(9, i)] | none => [])⟩

/-- A bundle that holds one instruction in the given slot or crossing and has its stop bit set. -/
def encodeBundle (slot : Nat) (i : Instr) : BitVec 512 :=
  (1#512 <<< 511) |||
  (match encodeSlot i with
   | some x => x.setWidth 512 <<< (58 * slot)
   | none => match encodeXin i with
     | some x => x.setWidth 512 <<< 495
     | none => match encodeXout i with
       | some x => x.setWidth 512 <<< 477
       | none => 0)

/-- The fields of a barrel word besides its opcode (R78). -/
def unpackWord (x : BitVec 64) : BarrelWord :=
  ⟨x.extractLsb' 48 8, x.extractLsb' 40 8, x.extractLsb' 32 8, x.extractLsb' 0 32⟩

/-- The first register field of a barrel word that names no register, or no x register where one must stand (R79, R333). DESIGN
CHOICE (log 43): values of 144 .. 255 go first, then x-only fields, each from the highest field down, and both go before the count
of the thread (`Machine.overCount`), whichever field is the higher. -/
def badRegister (i : Instr) (w : BarrelWord) : Option (Nat × Nat) :=
  match (regFields i w).find? (fun r => 144 ≤ r.2) with
  | some r => some r
  | none => (xOnlyFields i w).find? (fun r => 128 ≤ r.2)

/-- Decode a barrel word: opcode, then unread fields and func, then register fields (R78, R79, R333). The instruction comes with the
fields of its word. -/
def decodeBarrel (x : BitVec 64) : Except DecodeError (Instr × BarrelWord) :=
  let op := (x.extractLsb' 56 8).toNat
  match barrelOf op with
  | none => .error (.illegalOpcode op)
  | some i =>
    match firstBad (wordChecks i (unpackWord x)) with
    | some e => .error e
    | none => match badRegister i (unpackWord x) with
      | some r => .error (.illegalRegister r.1 r.2)
      | none => .ok (i, unpackWord x)

/-- The word of a barrel instruction with the given fields (R78). -/
def encodeBarrel (i : Instr) (w : BarrelWord) : Option (BitVec 64) :=
  match barrelOpcode i with
  | some op => some (BitVec.ofNat 8 op ++ w.d ++ w.a ++ w.b ++ w.imm)
  | none => none

/-- Word 0 of a mailbox command without its opcode, and its other words (R460). -/
def unpackCommand (x : BitVec 512) : MailboxCommand :=
  ⟨x.extractLsb' 48 16, x.extractLsb' 33 15, x.extractLsb' 32 1, x.extractLsb' 16 16, x.extractLsb' 8 8, x.extractLsb' 64 64,
    x.extractLsb' 128 384⟩

/-- Decode a mailbox command; none is refused with status 2 (R460). -/
def decodeCommand (x : BitVec 512) : Option Instr :=
  let c := unpackCommand x
  if c.reserved != 0 || c.ctx == 0xFFFF then none
  else match (x.extractLsb' 0 8).toNat with
    | 1 => some (.neg c)
    | 2 => some (.write c)
    | 3 => some (.read c)
    | 4 => some (.ctxnew c)
    | 5 => some (.ctxrel c)
    | 6 => some (.stage c)
    | 7 => if c.data.extractLsb' 0 64 == 0 then some (.commitSystemImage c)
           else if c.data.extractLsb' 0 64 == 1 then some (.commitFirmware c) else none
    | 8 => some (.attest c)
    | 9 => some (.evread c)
    | _ => none

/-- Opcode and fields of a mailbox command (R460). -/
def commandParts (i : Instr) : Option (Nat × MailboxCommand) :=
  match i with
  | .neg c => some (1, c)
  | .write c => some (2, c)
  | .read c => some (3, c)
  | .ctxnew c => some (4, c)
  | .ctxrel c => some (5, c)
  | .stage c => some (6, c)
  | .commitSystemImage c => some (7, c)
  | .commitFirmware c => some (7, c)
  | .attest c => some (8, c)
  | .evread c => some (9, c)
  | _ => none

/-- The 64 bytes of a mailbox command (R460). -/
def encodeCommand (i : Instr) : Option (BitVec 512) :=
  match commandParts i with
  | some (op, c) =>
    some (c.data ++ c.word1 ++ c.tag ++ c.reserved ++ c.phys ++ c.ctx ++ c.len ++ BitVec.ofNat 8 op)
  | none => none

/-- Where an instruction's bits stand. -/
inductive Place where
  | slot (slot : Nat)
  | xin
  | xout
  | barrel (fields : BarrelWord)
  | command
  deriving DecidableEq, Repr

/-- What an instruction's encoding is and where it stands. -/
inductive Encoding where
  | slot (slot : Nat) (bits : BitVec 58)
  | xin (bits : BitVec 13)
  | xout (bits : BitVec 18)
  | barrel (bits : BitVec 64)
  | command (bits : BitVec 512)
  deriving DecidableEq, Repr

/-- The encoding of an instruction at a place. Events have none. -/
def encode (p : Place) (i : Instr) : Option Encoding :=
  match p with
  | .slot k => (encodeSlot i).map (.slot k)
  | .xin => (encodeXin i).map .xin
  | .xout => (encodeXout i).map .xout
  | .barrel w => (encodeBarrel i w).map .barrel
  | .command => (encodeCommand i).map .command

/-- Decode an encoding. -/
def decode (e : Encoding) : Option Instr :=
  match e with
  | .slot k x => match decodeSlot k x with | .ok r => r | .error _ => none
  | .xin x => match decodeXin x with | .ok r => r | .error _ => none
  | .xout x => match decodeXout x with | .ok r => r | .error _ => none
  | .barrel x => match decodeBarrel x with | .ok r => some r.1 | .error _ => none
  | .command x => decodeCommand x

/-- Little-endian value of bytes. -/
def bytesToNat : List Byte → Nat
  | [] => 0
  | b :: bs => b.toNat + 256 * bytesToNat bs

/-- The instruction read from the first `nbits` bits of `w` and zeros above them: 64 bits are a barrel word (R78), 512 a bundle
(R63) that holds one instruction. -/
def decodeTableWord (nbits w : Nat) : Option Instr :=
  if nbits ≤ 64 then
    match decodeBarrel (BitVec.ofNat 64 w) with
    | .ok r => some r.1
    | .error _ => none
  else match decodeBundle (BitVec.ofNat 512 w) with
    | .ok ⟨_, [(_, i)]⟩ => some i
    | _ => none

end Sys2Proof
end

