-- ==== Sys2Proof/Machine/TimedTypes.lean ====
section
/-! DEFINITION. The data of a timed core: sequencer, vector, matrix, copy, and clock and window engine (05_sequencer to 09_windows). -/

namespace Sys2Proof.Machine

open Sys2Proof

/-- The condition of a timed core (01_machine R29); the middle ones are the drains that lead to the last ones. -/
inductive RunState where
  | idle | running | halting | stopping | parking | preempting | halted | stopped | contained | parked | preempted
  deriving DecidableEq, Repr

/-- A level of the loop stack (05_sequencer R127). -/
structure LoopLevel where
  left    : Word
  index   : Word
  start   : BitVec 64
  last    : BitVec 64
  strides : List (Nat × Word)
  deriving DecidableEq, Repr

/-- What a result writes when it lands (R118, R119, 06_vector R156). Vector writes carry a mask of the bits they write. -/
inductive Landing where
  | s (n : Nat) (v : Word)
  | a (n : Nat) (v : Word)
  | p (n : Nat) (v : Bool)
  | v (n : Nat) (x : VReg) (bits : VReg)
  | pv (n : Nat) (x : Mask) (bits : Mask)
  | k (n : Nat) (x : Mask) (bits : Mask)
  /-- A stride add of R129, applied after every other landing of its tick. -/
  | stride (n : Nat) (v : Word)
  /-- An MTC (R121). -/
  | creg (n : Nat) (v : Word)
  /-- The effects of MEC (07_matrix R216). -/
  | energy (rate : BitVec 32)
  /-- CTAGS with clear (08_copy R244): the vector (2 err, 3 cxl) and the mask. -/
  | tagClear (sel : Nat) (mask : Word)
  /-- MSWAP (R207). -/
  | swapPlanes
  /-- MWRZ (R212): tile and first container index, and the containers. -/
  | zrow (tile first : Nat) (xs : List Word)
  /-- MGANG (R201). -/
  | matrixGang (mask : Nat)
  /-- WOPEN (09_windows R274): window, base, size, close tick, action, expected mask, defaults. -/
  | openWindow (n : Nat) (base size close : Word) (action : Nat) (expect : BitVec 4) (posts : Vector Word 4)
  /-- WSHUT (R275). -/
  | shut (window : Nat)
  /-- GETPOST's read at offset 1 (R276): destination, window, post, status form. -/
  | post (d window k : Nat) (st : Bool)
  deriving DecidableEq, Repr

/-- Which flag group a result raises into (R121). -/
inductive FlagGroup where
  | none | va | vb | mx
  deriving DecidableEq, Repr

/-- A result in flight: its landing period, its issue order, the bundle and slot that issued it, and the flags of each lane that
raised any. -/
structure Flight where
  due      : Nat
  seq      : Nat
  issued   : Nat
  slot     : Nat
  opcode   : Nat
  pc       : BitVec 64
  landings : List Landing
  group    : FlagGroup
  flags    : List (Nat × Flags)
  /-- A reserved block code found (06_vector R175): lane and TVAL. -/
  park     : Option (Nat × Word)
  deriving DecidableEq, Repr

/-- A fault: what the trap registers record (05_sequencer R143, R145). -/
structure FaultInfo where
  cause : Nat
  slot  : Nat
  lane  : Nat
  pc    : BitVec 64
  val   : Word
  deriving DecidableEq, Repr

/-- A fault waiting for its tick's resolution (R144): the period its instruction issued in, and how it acts. -/
inductive FaultAct where
  | trap
  /-- A reserved block code: the core parks (R48). -/
  | park
  /-- An uncorrectable error: the program is contained (R145). -/
  | contain
  deriving DecidableEq, Repr

structure FaultRec where
  issued : Nat
  act    : FaultAct
  info   : FaultInfo
  deriving DecidableEq, Repr

/-- Scalar, address, predicate and vector registers (R118, 06_vector R152); `v` 56 .. 59 are la0–la3 and 60 .. 63 lb0–lb3. -/
structure TimedRegs where
  s  : Vector Word 64
  a  : Vector Word 16
  p  : BitVec 16
  v  : Vector VReg 64
  k  : Vector Mask 8
  pv : Vector Mask 16
  deriving DecidableEq, Repr

/-- The trap and control registers of R120 and R121. -/
structure TimedControl where
  plevel : Nat
  psav   : Word
  tvec   : Word
  inh    : Bool
  lost   : Bool
  tcause : Nat
  tbpc   : Word
  trpc   : Word
  tslot  : Nat
  tlane  : Nat
  ttick  : Word
  tval   : Word
  tscr   : Vector Word 4
  va     : Flags
  vb     : Flags
  mx     : Flags
  rnd    : Nat
  vae    : Flags
  vbe    : Flags
  mxe    : Flags
  keyA   : Word
  ctrA   : BitVec 128
  keyB   : Word
  ctrB   : BitVec 128
  keyM   : Word
  ctrM   : BitVec 128
  deriving DecidableEq, Repr

/-- A group being issued (03_encoding R71, R73): its first bundle's address, the bundles not yet issued, and the iteration
condition fixed for it (R67). -/
structure Group where
  base    : BitVec 64
  index   : Nat
  bundles : List Bundle
  first   : Bool
  last    : Bool
  deriving DecidableEq, Repr

/-- A REALIGN whose next group waits (05_sequencer R136). -/
structure Realign where
  address : BitVec 64
  /-- Period of its arrival, the issue of the last bundle of its group. -/
  arrived : Option Nat
  timeout : Nat
  /-- Destination; none when its guard was false. -/
  dest    : Option Nat
  /-- Once released: the ticks it waited, and whether the wait ended by timeout. -/
  release : Option (Nat × Bool)
  deriving DecidableEq, Repr

/-- A BAR whose group waits (09_windows R267, R268). -/
structure BarWait where
  barrier : Nat
  dom     : Bool
  mask    : Word
  arrived : Nat
  /-- Period of its timeout, with `to` (R277). -/
  limit   : Option Nat
  /-- Period in which the group may issue. -/
  release : Option Nat
  deriving DecidableEq, Repr

/-- A gang stall of R265 seen by one member. -/
structure GangStall where
  owner   : Nat
  window  : Nat
  from'   : Nat
  until'  : Option Nat
  deriving DecidableEq, Repr

/-- What a control instruction makes follow its bundle: HALT, TRAP, YIELD, or an admissible iteration end by LBRK. -/
inductive AfterBundle where
  | halt | trap | yield | boundary
  deriving DecidableEq, Repr

/-- The sequencer (05_sequencer R123 to R131): `pc` is the next bundle to issue. -/
structure Sequencer where
  pc        : BitVec 64
  loops     : List LoopLevel
  pending   : List (Nat × Word)
  rstack    : List (BitVec 64)
  group     : Option Group
  /-- Target of a transfer taken in the bundle now issuing, and whether the next group issues two ticks later. -/
  taken     : Option (BitVec 64)
  slow      : Bool
  /-- What follows the bundle now issuing. -/
  after     : Option AfterBundle
  trapVal   : Word
  /-- Period in which the next bundle is due to issue, or its group's waits are looked at. -/
  notBefore : Nat
  realign   : Option Realign
  bar       : Option BarWait
  stalls    : List GangStall
  /-- The trap has been taken and the handler has not yet started, or the core is draining to stop. -/
  drained   : Bool
  /-- Period in which the core last trapped, ended or was pre-empted: a REALIGN awaits it to the end of that period (R136). -/
  ceased    : Nat
  /-- The bundle of the last HALT. -/
  haltPc    : BitVec 64
  /-- The fault that a stopping or parking core reports (R145, R48). -/
  fault     : FaultInfo
  /-- The tags that each tag wait of the group observes, by bundle (08_copy R242). -/
  observed  : List (BitVec 64 × Word)
  /-- Barriers of the waiting group that have released (09_windows R267). -/
  barsDone  : Nat
  /-- TICK at the landing of the last pre-emption (R149). -/
  landed    : Word
  /-- The tick at which a resumed program issues its first group (09_windows R256). -/
  startAt   : Word
  /-- The number before the writes of the last context image (13_proof R407). -/
  saveFrom  : Nat
  deriving DecidableEq, Repr

/-- A slack window (09_windows R259, R271). -/
structure Window where
  base     : Word
  size     : Word
  openAt   : Word
  close    : Word
  action   : Nat
  rcvd     : BitVec 4
  expect   : BitVec 4
  stalling : Bool
  absent   : Bool
  missed   : Bool
  isOpen   : Bool
  target   : Word
  pst      : Vector Word 4
  /-- A redirect is owed (R264). -/
  owed     : Bool
  /-- Issue period of the last WOPEN (R275). -/
  opener   : Option Nat
  deriving DecidableEq, Repr

/-- The clock and window engine and the remote-store counts (R271, 04_ordering R101, R103). -/
structure ClockEngine where
  windows   : Vector Window 16
  wrpc      : Word
  rshift    : Word
  siglost   : Word
  prq       : Bool
  counts    : Vector Nat 3
  refused   : Vector Bool 3
  refusedAt : Vector Word 3
  /-- PRSEQ issued and done, and PRERR: sequence, sealed-failure and mirror-lost marks (13_proof R409). -/
  prIssued  : BitVec 32
  prDone    : BitVec 32
  prErr     : BitVec 32
  prSfail   : Bool
  prMlost   : Bool
  deriving DecidableEq, Repr

/-- A plane of the array (07_matrix R183, R184). -/
structure Plane where
  elems  : Memory
  scales : Memory
  valid  : Bool
  stype  : Nat
  deriving DecidableEq, Repr

/-- An accumulator tile: its mode, and 256 × 128 containers by 128 × row + column; an unlisted one holds `fill`. -/
structure Tile where
  f64   : Bool
  fill  : Word
  cells : Table Word
  deriving DecidableEq, Repr

/-- What a matrix command does at its end. -/
inductive MatrixKind where
  | load (mx tr : Bool)
  | product (tile n : Nat) (ovr : Bool)
  | product64 (tile n rnd : Nat) (ovr : Bool)
  | zero (tile : Nat) (f64 : Bool)
  | scale (tile : Nat) (n : Int) (rnd : Nat)
  deriving DecidableEq, Repr

/-- A matrix command in flight: what its reads have returned (R193 to R195), at offsets from its addresses, and for a product the
active planes of the cells that take part. -/
structure MatrixCommand where
  id        : Nat
  issued    : Nat
  ends      : Nat
  opcode    : Nat
  pc        : BitVec 64
  kind      : MatrixKind
  record    : Word
  address   : Nat
  scaleAt   : Nat
  elems     : Memory
  scales    : Memory
  planes    : List (Nat × Plane)
  abandoned : Bool
  deriving DecidableEq, Repr

/-- The matrix engine (R183, R189). A busy bit reads set until its clear period: z0–z3, shadow, array. -/
structure Matrix where
  active  : Plane
  shadow  : Plane
  z       : Vector Tile 4
  clears  : Vector Nat 6
  fmt     : Vector Word 4
  mask    : BitVec 4
  formed  : Bool
  leader  : Bool
  rank    : Nat
  rate    : BitVec 32
  cap     : BitVec 32
  bucket  : Word
  resid   : BitVec 128
  /-- Columns whose residue the next product will find wrong (R198, log entry 7). -/
  badCols : BitVec 128
  cmds    : List MatrixCommand
  deriving DecidableEq, Repr

/-- A completion tag (08_copy R219, R220). -/
structure Tag where
  count : Nat
  done  : Bool
  armed : Bool
  err   : Bool
  cxl   : Bool
  slots : Nat
  /-- Records of collectives that stay in use until the tag is done: base and length (14_fabric R444). -/
  records : List (Nat × Nat)
  deriving DecidableEq, Repr

/-- A timed copy in its channel (R222 to R225). -/
structure TimedCopy where
  id     : Nat
  pc     : BitVec 64
  issued : Nat
  frees  : Nat
  data   : Table (BitVec 512)
  /-- Its core-store ranges in its own core: base and length (R274). -/
  ranges : List (Nat × Nat)
  dead   : Bool
  deriving DecidableEq, Repr

/-- Where the data of a tagged-copy line comes from and goes. -/
inductive LineEnd where
  /-- A core-store offset of a cell, and the gang position of a multicast target (128 when the copy is none). -/
  | core (cell offset position : Nat)
  /-- A device virtual address of the copy's context. -/
  | global (address : Nat)
  /-- Zeros (zero fill and discards). -/
  | zeros
  /-- The source of a collective's participant, from a core-store offset (14_fabric R446). -/
  | collect (offset : Nat)
  deriving DecidableEq, Repr

/-- One line of a tagged copy not yet performed: its targets, its stage, and the data read. -/
structure CopyLine where
  id      : Nat
  src     : LineEnd
  dsts    : List LineEnd
  /-- 0 waits for the translation of its global address, 1 at the point of that address, 2 for the side port of its source, 3 for the
  side port of its destination; 4 is on the packet network: to the point of its global address, or, read there, to its core store. -/
  stage   : Nat
  /-- Whether the source has been read. -/
  read    : Bool
  physical : Nat
  data    : BitVec 512
  /-- Bytes written, 64 but for the last line of a collective's destination. -/
  bytes   : Nat
  discard : Bool
  deriving DecidableEq, Repr

/-- A page list being read (R233, R234): its address, entries and page size, the copy's core-store address, direction and fill, the
lines still to read, and the bytes read so far at their core-store addresses. -/
structure PageList where
  address : Nat
  entries : Nat
  g       : Nat
  core    : Nat
  gather  : Bool
  zf      : Bool
  left    : Nat
  data    : Memory
  deriving DecidableEq, Repr

/-- A tagged copy, or a collective that takes its slot (R226 to R230, 14_fabric R442). -/
structure TaggedCopy where
  id     : Nat
  tag    : Nat
  pc     : BitVec 64
  issued : Nat
  lines  : List CopyLine
  /-- The copy waits for its page list (R234). -/
  list   : Option PageList
  /-- A core-store range of the copy in its own core: base and length (R274). -/
  ranges : List (Nat × Nat)
  /-- Slices whose dead-range table had no room for this discard (R241). -/
  fallen : List Nat
  /-- A collective waits for its completion. -/
  coll   : Bool
  /-- Whether it writes global memory, for the PREL that covers it (04_ordering R115). -/
  proof  : Bool
  deriving DecidableEq, Repr

/-- Slice prefetches not yet requested (R237, R240): next address and lines left. -/
structure Prefetch where
  id      : Nat
  address : Nat
  lines   : Nat
  deriving DecidableEq, Repr

/-- The copy engine (R219, R221). -/
structure CopyEngine where
  tags   : Vector Tag 64
  etrap  : Bool
  cmask  : BitVec 80
  cfmask : BitVec 80
  eValid : Bool
  eMore  : Bool
  eTag   : Nat
  eCause : Nat
  errPc  : Word
  errA   : Word
  drop   : Word
  zfall  : Word
  timed  : List TimedCopy
  tagged : List TaggedCopy
  ahead  : List Prefetch
  deriving DecidableEq, Repr

/-- A timed core. -/
structure Core where
  run     : RunState
  ctx     : Nat
  gang    : Nat
  gangPos : Nat
  gangSize : Nat
  regs    : TimedRegs
  ctl     : TimedControl
  seq     : Sequencer
  clock   : ClockEngine
  mtx     : Matrix
  cpy     : CopyEngine
  flights : List Flight
  faults  : List FaultRec
  /-- TICK when the core last became idle (09_windows R254). -/
  idleAt  : Word
  deriving DecidableEq, Repr

def TimedRegs.reset : TimedRegs :=
  { s := Vector.replicate 64 0, a := Vector.replicate 16 0, p := 0, v := Vector.replicate 64 0, k := Vector.replicate 8 0,
    pv := Vector.replicate 16 0 }

def TimedControl.reset : TimedControl :=
  { plevel := 0, psav := 0, tvec := 0, inh := false, lost := false, tcause := 0, tbpc := 0, trpc := 0, tslot := 0, tlane := 0,
    ttick := 0, tval := 0, tscr := Vector.replicate 4 0, va := 0, vb := 0, mx := 0, rnd := 0, vae := 0, vbe := 0, mxe := 0,
    keyA := 0, ctrA := 0, keyB := 0, ctrB := 0, keyM := 0, ctrM := 0 }

def Sequencer.reset : Sequencer :=
  { pc := 0, loops := [], pending := [], rstack := [], group := none, taken := none, slow := false, after := none, trapVal := 0,
    notBefore := 0, realign := none, bar := none, stalls := [], drained := false, ceased := 0, haltPc := 0, fault := { cause := 0, slot := 0, lane := 0, pc := 0, val := 0 }, observed := [], barsDone := 0, landed := 0, startAt := 0, saveFrom := 0 }

def Window.reset : Window :=
  { base := 0, size := 0, openAt := 0, close := 0, action := 0, rcvd := 0, expect := 0, stalling := false, absent := false,
    missed := false, isOpen := false, target := 0, pst := Vector.replicate 4 0, owed := false, opener := none }

def ClockEngine.reset : ClockEngine :=
  { windows := Vector.replicate 16 Window.reset, wrpc := 0, rshift := 0, siglost := 0, prq := false,
    counts := Vector.replicate 3 0, refused := Vector.replicate 3 false, refusedAt := Vector.replicate 3 0, prIssued := 0,
    prDone := 0, prErr := 0, prSfail := false, prMlost := false }

def Plane.reset : Plane := { elems := [], scales := [], valid := false, stype := 0 }

def Tile.reset : Tile := { f64 := false, fill := 0, cells := [] }

def Matrix.reset : Matrix :=
  { active := Plane.reset, shadow := Plane.reset, z := Vector.replicate 4 Tile.reset, clears := Vector.replicate 6 0,
    fmt := Vector.replicate 4 0, mask := 0, formed := false, leader := false, rank := 0, rate := 0, cap := 0, bucket := 0,
    resid := 0, badCols := 0, cmds := [] }

def Tag.reset : Tag := { count := 0, done := true, armed := false, err := false, cxl := false, slots := 0, records := [] }

def CopyEngine.reset : CopyEngine :=
  { tags := Vector.replicate 64 Tag.reset, etrap := true, cmask := 0, cfmask := 0, eValid := false, eMore := false, eTag := 0,
    eCause := 0, errPc := 0, errA := 0, drop := 0, zfall := 0, timed := [], tagged := [], ahead := [] }

/-- A core that no program runs on (R28, R121). -/
def Core.reset : Core :=
  { run := .idle, ctx := 0, gang := 0, gangPos := 0, gangSize := 0, regs := TimedRegs.reset, ctl := TimedControl.reset,
    seq := Sequencer.reset, clock := ClockEngine.reset, mtx := Matrix.reset, cpy := CopyEngine.reset, flights := [], faults := [], idleAt := 0 }

end Sys2Proof.Machine
end

