-- ==== Sys2Proof/Machine/PackageTypes.lean ====
section
/-! DEFINITION. The data of the package: contexts, quads, plates, gangs, timed accesses in flight, translation, slices, links and
collectives (01_machine, 04_ordering, 09_windows, 14_fabric, 15_causes). -/

namespace Sys2Proof.Machine

open Sys2Proof

/-- What a load delivers (05_sequencer R139). -/
inductive LoadDest where
  | scalar (n type : Nat)
  | vector (n : Nat)
  | broadcast (n type : Nat)
  | mask (n : Nat)
  deriving DecidableEq, Repr

inductive AccessKind where
  | load (dest : LoadDest) (land : Nat)
  | store (data mask : Nat)
  /-- A read of the matrix engine: its command, and whether it reads scales. -/
  | matrix (command : Nat) (scale : Bool)
  /-- Read or write of line `u` of a timed copy (08_copy R222). -/
  | copyRead (copy u : Nat)
  | copyWrite (copy u : Nat)
  /-- Read of a page list (R234), of a collective record (14_fabric R444), and of the record of a CABORT (R449). -/
  | pageList (copy : Nat)
  | record (copy : Nat)
  | abortRecord
  deriving DecidableEq, Repr

/-- One line or element of a timed access: its address in its space's layout (01_machine R13), its bytes, its line index. -/
structure AccessLine where
  address : Nat
  len     : Nat
  lane    : Nat
  deriving DecidableEq, Repr

/-- A timed access in flight (04_ordering R96): `space` is form C's code. -/
structure Access where
  due    : Nat
  seq    : Nat
  issued : Nat
  cell   : Nat
  slot   : Nat
  pc     : BitVec 64
  space  : Nat
  lines  : List AccessLine
  kind   : AccessKind
  deriving DecidableEq, Repr

/-- A live gang (01_machine R22): members by ascending cell number. -/
structure Gang where
  ctx     : Nat
  members : List Nat
  /-- The schedule entries of pre-emptions in progress, oldest first (09_windows R255). -/
  preempt : List Nat
  deriving DecidableEq, Repr

/-- A context block (01_machine R23), translation and proof registers (14_fabric R429, 13_proof R390), and its mark as killed. -/
structure Context where
  live   : Bool
  quads  : BitVec 80
  rnd    : Nat
  vae    : Flags
  vbe    : Flags
  mxe    : Flags
  fsRnd  : Nat
  fsEn   : Flags
  cap    : BitVec 32
  lend   : Bool
  b      : Nat
  a      : Nat
  qrej   : Bool
  ceiling : BitVec 32
  killed : Bool
  xen    : Bool
  root   : Nat
  ranges : Vector (Nat × Nat) 4
  quota  : Nat
  mto    : Nat
  g      : Nat
  partner : Nat
  mlost  : Bool
  mirror : Bool
  pen    : Bool
  slotA  : Nat
  slotB  : Nat
  slotSz : Nat
  attempts : Table (BitVec 16)
  /-- PRPI, PRPA and PRPS (13_proof R409). -/
  prpi   : Nat
  prpa   : Nat
  prpImp : Nat
  prpOpen : Bool
  prpState : Nat
  deriving DecidableEq, Repr

/-- A message for a supervisor mailbox (11_barrel_traps R347); the poster adds seq and tick. -/
structure Message where
  kind   : Nat
  cause  : Nat
  cell   : Nat
  thread : Nat
  ctx    : Nat
  pc     : Word
  val    : Word
  deriving DecidableEq, Repr

/-- What takes dynamic slots of a plate's stacks besides sweeps (09_windows R270): the fill of a line of a slice, a line of a write-back
buffer, a write-through. -/
inductive HbmJob where
  | fill (slice line : Nat)
  | back (slice line : Nat)
  | through (id line : Nat)
  deriving DecidableEq, Repr

/-- A plate: its slot ratio (R23), supervisor mailbox (11_barrel_traps R346) and schedule table (09_windows R252). -/
structure Plate where
  set    : Bool
  lend   : Bool
  b      : Nat
  a      : Nat
  supEn  : Bool
  supBox : Nat
  supThread : Nat
  supCell : Nat
  mbNext : Nat
  mbSeq  : BitVec 16
  mbOff  : Word
  queue  : List Message
  table  : Table (BitVec 512)
  /-- Argument-block faults of armed launch entries (01_machine R28): cause and address. -/
  argFaults : Table (Nat × Nat)
  /-- Bursts of tagged-copy lines that wait for a timed slot: channel-aligned address, cell, copy line (R270). -/
  bursts : List (Nat × Nat × Nat)
  /-- Accesses to the plate's stacks that wait for a dynamic slot, or a lent one, oldest first (R270). -/
  dyn    : List HbmJob
  deriving DecidableEq, Repr

/-- What waits at a side port besides window accesses, one line each: a line of a tagged copy, a line of a remote store (04_ordering R101),
the status word of a collective's participant (14_fabric R447). -/
inductive PortJob where
  | copy (cell line : Nat)
  | remote (store line : Nat)
  | status (cell copy : Nat)
  deriving DecidableEq, Repr

/-- A side port of a core-store bank: the window requests and the lines that wait, and which kind it served last. -/
structure SidePort where
  windows  : List (Nat × Nat)
  lines    : List PortJob
  servedAt : Nat
  lastLine : Bool
  deriving DecidableEq, Repr

/-- A cached leaf (14_fabric R433): plate, context, first page, size in bytes, physical base, w, x, proof. -/
structure CachedLeaf where
  plate : Nat
  ctx   : Nat
  base  : Nat
  size  : Nat
  pa    : Nat
  w     : Bool
  x     : Bool
  proof : Bool
  deriving DecidableEq, Repr

/-- The machine's own units that reach memory: a translation walk (14_fabric R433); a cluster's suffix index unit (12_draft R368); the proof
keeper, for a request (13_proof R400); the mailbox engine (16_host R460); the copy of an entry's argument block (01_machine R28), and the
reading of its images (09_windows R256); the writing of a core's image (05_sequencer R150). -/
inductive MemUnit where
  | walk (id : Nat)
  | suffix (cluster : Nat)
  | keeper (request : Nat)
  | mailbox
  | args (plate index : Nat)
  | resume (plate index : Nat)
  | image (cell : Nat)
  deriving DecidableEq, Repr

/-- Who waits for a translation: a line of a tagged copy, a slice prefetch of a core, a barrel memory request, the fetch of a barrel
thread, by its name, or a unit. -/
inductive WalkUser where
  | line (cell line : Nat)
  | prefetch (cell : Nat)
  | request (id : Nat)
  | fetch (cell thread uid : Nat)
  | unit (u : MemUnit)
  deriving DecidableEq, Repr

/-- A translation walk (14_fabric R432, R433): it waits until a walker of its plate is free. -/
structure Walk where
  plate   : Nat
  ctx     : Nat
  va      : Nat
  write   : Bool
  fetch   : Bool
  user    : WalkUser
  started : Bool
  /-- An invalidation of its context leaves it nothing to cache (R434). -/
  caches  : Bool
  deriving DecidableEq, Repr

/-- A translation that a unit was refused: its page, whether it was to write, and the cause. -/
structure RefusedPage where
  plate : Nat
  ctx   : Nat
  page  : Nat
  write : Bool
  cause : Nat
  deriving DecidableEq, Repr

/-- A piece of memory that a unit has read: its address, bytes and value, whether it is poisoned, and for the mailbox engine the number
below which every write had performed at the read. -/
structure ReadPiece where
  pa   : Nat
  len  : Nat
  x    : Nat
  bad  : Bool
  upTo : Nat
  deriving DecidableEq, Repr

/-- A piece of memory that a unit writes. -/
structure WritePiece where
  pa  : Nat
  len : Nat
  x   : Nat
  deriving DecidableEq, Repr

/-- What a unit has gathered for what it does now: translations, pieces read; the writes it has still to perform, once it knows them; and
the access or walk it waits for. -/
structure UnitJob where
  user    : MemUnit
  leaves  : List CachedLeaf
  refused : List RefusedPage
  reads   : List ReadPiece
  left    : Option (List WritePiece)
  waits   : Option Nat
  deriving DecidableEq, Repr

/-- The unit now at work: what it has gathered, whether it reaches memory at once, and what it writes. -/
structure UnitContext where
  job    : UnitJob
  force  : Bool
  writes : List WritePiece
  deriving DecidableEq, Repr

/-- A written-through line on its way to its HBM stack (13_proof R391): its agent, its place in that agent's order, and whether the
stack has it. -/
structure WriteThrough where
  line  : Nat
  data  : BitVec 512
  ctx   : Nat
  agent : Nat
  order : Nat
  reached : Bool
  deriving DecidableEq, Repr

/-- What waits at a slice: a request of a barrel thread, or a line of a tagged copy. -/
inductive SliceUser where
  | request (id : Nat)
  | line (cell line : Nat)
  deriving DecidableEq, Repr

/-- A cache slice (14_fabric R424 to R427), numbered 16 × plate + slice. -/
structure Slice where
  /-- Lines held in the ways, clean or dirty. -/
  ways   : List Nat
  dirty  : List Nat
  /-- Lines being fetched, oldest first (R425). -/
  misses : List Nat
  /-- Accesses that wait for a line, for the miss table, behind another to their line, or as held writes, in order of arrival. -/
  waiting : List SliceUser
  /-- The write-back buffer (R426). -/
  buffer : List Nat
  /-- The dead-range table (R427): the discard each entry belongs to and its lines not yet swept. -/
  dead   : List (Nat × List Nat)
  /-- Lines of the buffer or of the dead ranges that have a dynamic slot now. -/
  granted : List Nat
  deriving DecidableEq, Repr

/-- A timed-link port (14_fabric R436, R437): queued beats by class. -/
structure Link where
  en    : Bool
  /-- The period from which its training is complete, once it is in service. -/
  upAt  : Option Nat
  nbr   : Nat
  lat   : Nat
  err   : Word
  queue : List (Nat × Beat)
  /-- What the port sends in this tick, with TICK (R437). -/
  wire  : Option (Word × Beat)
  /-- Beats that have come in and wait for their delivery TICK (R438). -/
  arriving : List Beat
  deriving DecidableEq, Repr

/-- Where a participant stands: it reads its source, waits for the others, writes its destination, or has abandoned its instance. -/
inductive Phase where
  | collecting | waiting | delivering
  | abandoned (cause : Nat)
  /-- Its status word waits at the side port, or is being served there (R447). -/
  | ending (cause : Nat)
  | served (cause : Nat)
  deriving DecidableEq, Repr

/-- A participant of a collective (14_fabric R442 to R447): its copy, the address and words of its record, its gang position. -/
structure Participant where
  cell     : Nat
  copy     : Nat
  record   : Nat
  words    : List Word
  position : Nat
  issued   : Nat
  phase    : Phase
  source   : Memory
  flags    : Flags
  deriving DecidableEq, Repr

/-- A collective instance of this package (R442): its number; the participants here, and the positions of those that have ended; of each
other package of its masks, by domain position, how many of that package's partials for earlier instances of its name and attempt come
before the one for it; whether its partial has been sent, whether its results have been delivered, whether records differ (R450). -/
structure Collective where
  no      : Nat
  ctx     : Nat
  gang    : Nat
  plate   : Nat
  id      : Nat
  attempt : BitVec 16
  size    : Nat
  here    : List Participant
  gone    : List Nat
  orders  : Table Nat
  sent    : Bool
  given   : Bool
  differ  : Bool
  deriving DecidableEq, Repr

/-- Another package's partial (R446) as far as its beats have come: that package's domain position, how many of its partials of this name
and attempt came before, the partial's length, and the pieces here by their offsets. -/
structure RemotePartial where
  ctx     : Nat
  gang    : Nat
  id      : Nat
  place   : Nat
  order   : Nat
  size    : Nat
  attempt : BitVec 16
  words   : List Word
  total   : Nat
  pieces  : Table (List Byte)
  flags   : Flags
  deriving DecidableEq, Repr

/-- A domain barrier (09_windows R268): the arrivals of other packages, by domain position, and for each plate of this package whose gang
barrier has completed the mask and the tick of that; `seen` is the tick of a position's last arrival, of which a second copy comes on the
other lane (14_fabric R438). -/
structure DomainBarrier where
  gang    : Nat
  barrier : Nat
  plates  : Table (Word × Word)
  ticks   : Table Word
  seen    : Table Word
  deriving DecidableEq, Repr

/-- A posted remote store (04_ordering R101): its class, whether it has reached its destination and been let to the side ports, the
64-byte lines that have not performed, the line that a side port serves now, whether the destination refused any of them, and whether
the program that issued it still has its core and counts it. -/
structure RemoteStore where
  source  : Nat
  cell    : Nat
  offset  : Nat
  len     : Nat
  data    : Nat
  cls     : Nat
  arrived : Bool
  queued  : Bool
  left    : List Nat
  turn    : Option Nat
  refused : Bool
  counted : Bool
  deriving DecidableEq, Repr

/-- Error class settings (15_causes R456). -/
structure ErrorClass where
  en     : Bool
  thresh : Nat
  wlog   : Nat
  deriving DecidableEq, Repr

/-- An error counter (R456): total, window count, and whether a message was posted in this window. -/
structure ErrorCount where
  total  : Nat
  win    : Nat
  posted : Bool
  deriving DecidableEq, Repr

/-- A plate reset in progress (13_proof R393): its plate, its next step, and the lines lost in step 2. -/
structure PlateReset where
  plate : Nat
  step  : Nat
  lost  : Nat
  deriving DecidableEq, Repr

structure Package where
  /-- DOMCFG, DOMST.skew and DOMLAT (01_machine R23, 09_windows R271). -/
  indom   : Bool
  domSize : Nat
  domPos  : Nat
  skew    : Bool
  domLat  : Nat
  domBars : List DomainBarrier
  /-- The slew step owed (09_windows R249): an advance or a retard step. -/
  slew    : Option Bool
  retired : BitVec 320
  /-- Clock period in which a cell was retired (15_causes R457). -/
  retiredAt : Table Nat
  errCfg  : Vector ErrorClass 7
  errCnt  : Table ErrorCount
  ctxs    : Table Context
  plates  : Vector Plate 4
  txbase  : Table Nat
  imgbase : Table Nat
  gangs   : Table Gang
  /-- KCONT (09_windows R258). -/
  kPlate  : Nat
  kGang   : Nat
  kCtx    : Nat
  kBusy   : Bool
  /-- SXREG per package cluster (01_machine R14). -/
  sxreg   : Vector Nat 40
  ports   : Table SidePort
  cached  : List CachedLeaf
  /-- XINVA and XINVC (14_fabric R434). -/
  xinva   : Nat
  xinvCount : Nat
  xinvCtx : Nat
  xinvBusy : Bool
  slices  : Table Slice
  links   : Vector Link 12
  map     : Table (BitVec 192)
  colls   : List Collective
  partials : List RemotePartial
  /-- Instances begun here, and partials that have come, under the current attempt, by context, gang, id and domain position (R442). -/
  begun    : Table Nat
  came     : Table Nat
  collDrop : Word
  poison  : List Nat
  /-- KPRST requests, oldest first. -/
  resets  : List PlateReset
  deriving DecidableEq, Repr

def UnitJob.fresh (u : MemUnit) : UnitJob := { user := u, leaves := [], refused := [], reads := [], left := none, waits := none }
def UnitContext.reset : UnitContext := { job := UnitJob.fresh .mailbox, force := false, writes := [] }

def Context.reset : Context :=
  { live := false, quads := 0, rnd := 0, vae := 0, vbe := 0, mxe := 0, fsRnd := 0, fsEn := 0, cap := 0, lend := false, b := 1,
    a := 3, qrej := false, ceiling := 0, killed := false, xen := false, root := 0, ranges := Vector.replicate 4 (0, 0), quota := 0,
    mto := 20, g := 12, partner := 0, mlost := false, mirror := false, pen := false, slotA := 0, slotB := 0, slotSz := 0x1000,
    attempts := [], prpi := 0, prpa := 0, prpImp := 0, prpOpen := false, prpState := 0 }

def Plate.reset : Plate :=
  { set := false, lend := false, b := 0, a := 0, supEn := false, supBox := 0, supThread := 0, supCell := 0, mbNext := 0, mbSeq := 0,
    mbOff := 0, queue := [], table := [], argFaults := [], bursts := [], dyn := [] }

def SidePort.reset : SidePort := { windows := [], lines := [], servedAt := 0, lastLine := false }

def Slice.reset : Slice := { ways := [], dirty := [], misses := [], waiting := [], buffer := [], dead := [], granted := [] }

def Link.reset : Link := { en := false, upAt := none, nbr := 0, lat := 0, err := 0, queue := [], wire := none, arriving := [] }

def Package.reset : Package :=
  { indom := false, domSize := 0, domPos := 0, skew := false, domLat := 8, domBars := [], slew := none, retired := 0, retiredAt := [],
    errCfg := Vector.replicate 7 { en := true, thresh := 16, wlog := 32 }, errCnt := [], ctxs := [(0, { Context.reset with live := true })],
    plates := Vector.replicate 4 Plate.reset, txbase := [], imgbase := [], gangs := [], kPlate := 0, kGang := 0,
    kCtx := 0, kBusy := false, sxreg := Vector.replicate 40 0, ports := [], cached := [], xinva := 0, xinvCount := 0, xinvCtx := 0,
    xinvBusy := false, slices := [], links := Vector.replicate 12 Link.reset, map := [], colls := [], partials := [], begun := [], came := [], collDrop := 0, poison := [], resets := [] }

end Sys2Proof.Machine
end

