-- ==== Sys2Proof/Machine/DynamicTypes.lean ====
section
/-! DEFINITION. The data of the dynamic plane: barrel cores and their threads, memory requests, the draft engine and the proof engine
(10_barrel, 11_barrel_traps, 12_draft, 13_proof). -/

namespace Sys2Proof.Machine

open Sys2Proof

/-- The states of a thread in a slot (01_machine R30). -/
inductive ThreadState where
  | runnable | blocked | parked | migrating
  deriving DecidableEq, Repr

/-- What a blocked or parked thread waits for. -/
inductive Wait where
  | none
  /-- A special-function result it names, or a free entry of the queue (10_barrel R326, R327). -/
  | sfn
  | request (id : Nat)
  /-- Its earlier accesses (R313), then the ready period of the FENCE: its kind and scope. -/
  | fence (kind scope : Nat)
  | join (d : Nat)
  | recv (d a n scope : Nat)
  | park
  /-- EMIGR: its destination and the position it asks for, 8 for the idlest (R321). -/
  | migrate (d target : Nat)
  | exit
  | token (d group : Nat)
  /-- Its next instruction's translation walk (14_fabric R433). -/
  | fetch
  /-- TOKPASS waits for the thread's earlier accesses, which it releases (12_draft R378). -/
  | pass (d group : Nat)
  /-- SMPD waits for mask row `j` (12_draft R376): the word that counts the rows, the row, and its request. -/
  | mask (word j id : Nat)
  /-- A killed thread waits for its special-function results (11_barrel_traps R342): cause, epc, TVAL, whether a message is sent. -/
  | dying (cause : Nat) (epc : BitVec 48) (val : Word) (report : Bool)
  deriving DecidableEq, Repr

/-- The registers of a trap level (11_barrel_traps R336). -/
structure TrapLevel where
  cause : Nat
  epc   : BitVec 48
  val   : Word
  scr   : Word
  deriving DecidableEq, Repr

/-- A trap not yet entered (R330, R332): cause, TVAL, epc and issue period of the faulting instruction, and the period in which the fault
is detected. -/
structure BarrelFault where
  cause    : Nat
  val      : Word
  epc      : BitVec 48
  issued   : Nat
  detected : Nat
  deriving DecidableEq, Repr

/-- An agent as the scopes of 04_ordering R104 name it: a barrel thread; the timed core and engines of a cell; a cluster's suffix index
unit; a plate's slices, stream unit and supervisor; the mailbox engine; the host. -/
inductive Agent where
  | thread (cell thread : Nat)
  | engines (cell : Nat)
  | suffix (cluster : Nat)
  | plate (plate : Nat)
  | mailbox
  | host
  deriving DecidableEq, Repr

/-- A write that some agents may still read past (04_ordering R94, R107): its number, its agent, its bytes before and after, and those
agents' numbers. -/
structure PastWrite where
  id    : Nat
  agent : Agent
  pa    : Nat
  len   : Nat
  old   : Nat
  new   : Nat
  open' : List Nat
  deriving DecidableEq, Repr

/-- A release whose value stands in memory (04_ordering R106, R108): its bytes and their value, its agent and its scope. -/
structure ReleaseMark where
  pa    : Nat
  len   : Nat
  value : Nat
  agent : Agent
  scope : Nat
  deriving DecidableEq, Repr

/-- A release that a thread's read has met: whose, its scope, and the number below which every write had performed at the read. -/
structure ReadMark where
  agent : Agent
  scope : Nat
  upTo  : Nat
  deriving DecidableEq, Repr

/-- What a thread's fences need of its past (04_ordering R108): the widest scope of a release fence; the numbers below which every write
had performed at its own last write and at its reads that met no release; the releases that its other reads met. -/
structure OrderView where
  fenced : Option Nat
  wrote  : Nat
  read   : Nat
  marks  : List ReadMark
  deriving DecidableEq, Repr

def OrderView.fresh : OrderView := { fenced := none, wrote := 0, read := 0, marks := [] }

/-- A message of a receive queue (10_barrel R322, R324): the sender's id and the words; as a release, its agent and scope, none from
another package (04_ordering R104). -/
structure BarrelMessage where
  sender  : Word
  words   : List Word
  release : Option (Agent × Nat)
  deriving DecidableEq, Repr

/-- The other copy of a paired thread (R354). -/
structure Pair where
  cell    : Nat
  thread  : Nat
  primary : Bool
  /-- Requests sent so far. -/
  sent    : Nat
  deriving DecidableEq, Repr

/-- A barrel thread in a slot (10_barrel R287 to R294). `uid` names it for as long as the machine runs. -/
structure Thread where
  uid     : Nat
  ctx     : Nat
  state   : ThreadState
  wait    : Wait
  pc      : BitVec 48
  /-- Physical address that a translation walk has given for its next instruction. -/
  fetched : Option Nat
  ready   : Nat
  /-- The period of its last issue. -/
  issued  : Nat
  /-- YLD (R290): the slots that must still issue and the latest period. -/
  yields  : List Nat
  until'  : Nat
  fault   : Option BarrelFault
  count   : Nat
  base    : Nat
  rnd     : Nat
  en      : Flags
  flags   : Flags
  felim   : Nat
  sdom    : Nat
  live    : Nat
  killed  : Nat
  tspb    : Nat
  tspl    : Nat
  spcnt   : Nat
  srk     : Word
  src     : BitVec 128
  tfmt    : BitVec 48
  tscl    : BitVec 48
  auto    : Bool
  level   : Nat
  tvec    : BitVec 48
  tsave   : BitVec 48
  levels  : Vector TrapLevel 2
  /-- Return-address store, newest first (R316). -/
  returns : List (BitVec 48)
  /-- Parent: its cell, slot and uid (R317). -/
  parent  : Option (Nat × Nat × Nat)
  wake    : Bool
  inbox   : List BarrelMessage
  /-- SENDs that wait for a place in the receive queue (R323). -/
  senders : List Nat
  pair    : Option Pair
  sampler : Bool
  /-- PRSEQ (13_proof R410). -/
  prIssued : BitVec 32
  prDone  : BitVec 32
  view    : OrderView
  deriving DecidableEq, Repr

/-- A register or control write of a barrel instruction (R288, 11_barrel_traps R339). -/
inductive BarrelWrite where
  /-- A register field value: 1 .. 127 or 128 .. 143. -/
  | reg (n : Nat) (v : Word)
  | flags (f : Flags)
  | fstat (v : Word)
  | creg (n : Nat) (v : Word)
  deriving DecidableEq, Repr

/-- Writes in flight: their period, issue rank and thread. -/
structure BarrelFlight where
  due    : Nat
  seq    : Nat
  thread : Nat
  uid    : Nat
  writes : List BarrelWrite
  deriving DecidableEq, Repr

/-- A special-function request (R326, R327): its result is fixed by its operand. -/
structure SfnRequest where
  thread  : Nat
  uid     : Nat
  dest    : Nat
  value   : Word
  flags   : Flags
  single  : Bool
  entered : Nat
  /-- Landing period, once started. -/
  lands   : Option Nat
  deriving DecidableEq, Repr

/-- An entry of a task queue (R301): its context and its eight words. -/
structure TaskPacket where
  ctx   : Nat
  words : List Word
  deriving DecidableEq, Repr

/-- An entry of a deque (R302). -/
structure DequeEntry where
  ctx    : Nat
  entry  : BitVec 48
  count  : Nat
  args   : Word × Word
  parent : Nat × Nat × Nat
  thid   : Word
  tfmt   : BitVec 48
  tscl   : BitVec 48
  sdom   : Nat
  deriving DecidableEq, Repr

/-- A slot and run held for a thread, by its name, that is to arrive (11_barrel_traps R352). -/
structure Reservation where
  uid   : Nat
  slot  : Nat
  base  : Nat
  count : Nat
  deriving DecidableEq, Repr

/-- A barrel core (10_barrel). The register file lists no zero entry. -/
structure BarrelCore where
  threads  : Table Thread
  common   : Vector Word 16
  file     : Table Word
  last     : Nat
  flights  : List BarrelFlight
  sfn      : List SfnRequest
  /-- Start of the last special function, if one ever started, and its landing. -/
  sfnStart : Option Nat
  sfnLand  : Nat
  tasks    : List TaskPacket
  /-- Bottom entry first. -/
  deque    : List DequeEntry
  reserved : List Reservation
  /-- Requests that wait for a slot or the port, oldest first (R297), the slots in use, and the period of the port's last grant. -/
  waiting  : List Nat
  slots    : Nat
  portAt   : Nat
  /-- MIGCFG (R350), PAIRMAP (R354), SMPCFG and SMPENT (12_draft R387). -/
  migEn    : Bool
  migHi    : Nat
  migDiff  : Nat
  pairOn   : Bool
  pairCell : Nat
  smpRegs  : Nat
  smpWv    : Bool
  smpTag   : Nat
  smpEn    : Bool
  smpEnt   : BitVec 48
  /-- The sampler thread waits for its slot and run (12_draft R374). -/
  smpStart : Bool
  /-- Poisoned common registers (11_barrel_traps R343). -/
  poison   : BitVec 16
  deriving DecidableEq, Repr

/-- What a request does at its target. -/
inductive RequestKind where
  | load (d size : Nat) (sx : Bool)
  | store (size : Nat) (data : Word)
  | lde (d : Nat) (force : Bool)
  | ste (data : Word) (force : Bool)
  | ldp (d : Nat)
  | amo (d op size : Nat) (sx : Bool) (operand : Word)
  | cas (d size : Nat) (sx : Bool) (expect new : Word)
  | wld (d window : Nat)
  | wst (window : Nat) (data : Word)
  | wpost (window post : Nat) (data : Word)
  | spill (data : BitVec 48)
  | refill
  | wake (d cell thread : Nat)
  /-- A message: its target, its words, and for MCAST the cells still to send to and the copies discarded. -/
  | send (d cell thread : Nat) (words : List Word) (more : List Nat) (lost : Nat) (mcast : Bool)
  /-- A message to another package (14_fabric R441): position, target id. -/
  | remoteSend (d position : Nat) (target : Word) (words : List Word)
  /-- MCAST reads its record (10_barrel R325). -/
  | record (d thread : Nat) (words : List Word)
  /-- TQPUT reads its packet, then posts it (R320): destination, target core, and the operand that named it. -/
  | packet (d cell : Nat) (target : Word)
  | taskPut (d cell : Nat) (words : List Word)
  /-- TQGET: destination, the context of the packet taken, and its words, none before it is taken. -/
  | taskGet (d ctx : Nat) (words : List Word)
  /-- A suffix-index request (12_draft R380): opcode, destination, operands a, b and d, func. -/
  | suffix (op d : Nat) (x y z : Word) (func : Nat)
  /-- SMPD (12_draft R375, R376): destination, position j, req. -/
  | sample (d : Nat) (j : Word) (req : Bool)
  /-- A proof-engine request (13_proof R411). -/
  | proof (op d : Nat) (x y : Word) (func : Nat)
  /-- An access of a unit: a read, or a write with its data, its agent and its place in the agent's order (13_proof R391). -/
  | unit (u : MemUnit) (write : Option (Nat × Nat × Nat))
  deriving DecidableEq, Repr

/-- Where a request stands. -/
inductive Stage where
  /-- It waits for its translation. -/
  | translating
  /-- It waits for earlier accesses of its thread, a slot and the port. -/
  | ready
  /-- Its paired comparison (11_barrel_traps R355). -/
  | comparing (arrived : Option Nat)
  /-- On its way to its target, or waiting there. -/
  | away
  /-- It waits on a full-empty word (10_barrel R299). -/
  | parked
  | served
  deriving DecidableEq, Repr

/-- A request of a barrel thread (R297). -/
structure Request where
  cell    : Nat
  thread  : Nat
  uid     : Nat
  ctx     : Nat
  kind    : RequestKind
  /-- Virtual or local address, physical address, bytes. -/
  va      : Nat
  pa      : Nat
  len     : Nat
  sp      : Bool
  posted  : Bool
  /-- It must follow every earlier access of its thread (04_ordering R106). -/
  release : Bool
  /-- Its ordering and scope codes, as a paired comparison reads them. -/
  ord     : Nat
  scope   : Nat
  issued  : Nat
  /-- It has waited longer than 256 ticks (R297). -/
  promoted : Bool
  pc      : BitVec 48
  stage   : Stage
  /-- It holds a request slot. -/
  slot    : Bool
  /-- Bank turns still to take. -/
  turns   : Nat
  /-- Full-empty wait limit (R299). -/
  felim   : Nat
  /-- Number among the compared requests of a paired thread: 2 k + 2 for the primary's k-th, 2 k + 3 for the shadow's, else 0. -/
  index   : Nat
  /-- What returned: values for the destinations, or a fault: cause and TVAL; cause 380 kills (11_barrel_traps R343). -/
  answer  : List Word
  fault   : Option (Nat × Word)
  /-- PRPS.state when a PSEAL issued (13_proof R404). -/
  before  : Nat
  deriving DecidableEq, Repr

/-! ## Draft engine -/

/-- A way of a bucket (12_draft R360). -/
structure Way where
  pos : Nat
  tag : BitVec 32
  deriving DecidableEq, Repr

/-- An open sequence (R360): `table` lists the buckets that are not wholly empty, each of four ways. -/
structure Sequence where
  ctx    : Nat
  failed : Bool
  n      : Nat
  logC   : Nat
  ring   : Nat
  b      : Nat
  table  : Table (List (Option Way))
  vocab  : Nat
  padlo  : Nat
  padhi  : Nat
  repn   : Nat
  mode   : Nat
  /-- SXST and SPOS (R366). -/
  sxst   : Word
  spos   : Word
  /-- First granule of its run (R361). -/
  run    : Nat
  deriving DecidableEq, Repr

/-- A suffix index unit (R359, R368): `after` is the answer of the request whose writes are performing. -/
structure SuffixUnit where
  gens  : Table Nat
  open' : Table Sequence
  queue : List Nat
  after : Option (List Word)
  deriving DecidableEq, Repr

/-- A serving group (R377, R378): the token's cell, its holder's cell, slot and uid, the cell at which it was taken, and the waiting
threads in order of arrival. -/
structure ServingGroup where
  mask    : BitVec 320
  en      : Bool
  first   : Nat
  ctx     : Nat
  orphan  : Bool
  round   : Nat
  cell    : Nat
  holder  : Option (Nat × Nat × Nat)
  taken   : Nat
  waiters : List (Nat × Nat)
  deriving DecidableEq, Repr

/-! ## Proof engine -/

/-- A participant of an impression (13_proof R400): kind, target cell, TICK and payload. -/
structure ImpressionPart where
  kind    : Nat
  cell    : Nat
  tick    : Word
  payload : List Word
  deriving DecidableEq, Repr

/-- The physical pages that the keeper holds for a seal slot (R399): the slot's 4 KiB pages and those of the check pages in set order. -/
structure SlotPages where
  slot  : List Nat
  pages : List Nat
  deriving DecidableEq, Repr

/-- Who asked for a seal: a timed core, or a barrel request. -/
inductive SealAsker where
  | core (cell : Nat)
  | request (id : Nat)
  deriving DecidableEq, Repr

/-- How far a seal has come (R401 to R404): not asked for; asked for, on its way to the keeper; waiting for releases; waiting for the
page set to reach HBM; writing its record; taking back a record that could not be mirrored. -/
inductive SealStage where
  | open | called | waiting | draining | writing | undoing
  deriving DecidableEq, Repr

/-- An open impression (R399): its extents, the 4 KiB pages of its set in order and of both slots, its participants; for a seal who
asked, PRPS.state before, the releases it waits for, t0, and the number before its record's writes. -/
structure Impression where
  n       : Nat
  extents : List (Nat × Nat)
  pages   : List Nat
  slotA   : List Nat
  slotB   : List Nat
  parts   : List ImpressionPart
  stage   : SealStage
  asker   : SealAsker
  before  : Nat
  waits   : List Nat
  t0      : Word
  start   : Nat
  deriving DecidableEq, Repr

/-- A recovery release outstanding (R395): what it covers is every write of its agent of an order below `bound`; whether the keeper has
it, and whether the program that issued it still owns its core. -/
structure Release where
  id       : Nat
  agent    : Nat
  number   : BitVec 32
  ctx      : Nat
  bound    : Nat
  mirrored : Bool
  /-- The barrel request that waits for it. -/
  request  : Option Nat
  reached  : Bool
  live     : Bool
  deriving DecidableEq, Repr

/-- A line sent to the partner and not yet acknowledged (R392), or counted as never mirrored; `since` is the period it was first sent. -/
structure MirrorLine where
  ctx   : Nat
  line  : Nat
  data  : BitVec 512
  agent : Nat
  order : Nat
  since : Nat
  lost  : Bool
  deriving DecidableEq, Repr

/-- What has arrived at the proof keeper: a barrel request, or a timed core's release. -/
inductive KeeperUser where
  | request (id : Nat)
  | release (id : Nat)
  deriving DecidableEq, Repr

def TrapLevel.reset : TrapLevel := { cause := 0, epc := 0, val := 0, scr := 0 }

def BarrelCore.reset : BarrelCore :=
  { threads := [], common := Vector.replicate 16 0, file := [], last := 63, flights := [], sfn := [], sfnStart := none, sfnLand := 0,
    tasks := [], deque := [], reserved := [], waiting := [], slots := 0, portAt := 0, migEn := false, migHi := 48, migDiff := 8, pairOn := false,
    pairCell := 0, smpRegs := 8, smpWv := false, smpTag := 0, smpEn := false, smpEnt := 0, smpStart := false, poison := 0 }

def SuffixUnit.reset : SuffixUnit := { gens := [], open' := [], queue := [], after := none }

def ServingGroup.reset : ServingGroup :=
  { mask := 0, en := false, first := 0, ctx := 0, orphan := false, round := 0, cell := 0, holder := none, taken := 0, waiters := [] }

end Sys2Proof.Machine
end

