-- ==== Sys2Proof/Machine/ManagementTypes.lean ====
section
/-! DEFINITION. The data of the management processor and the mailbox engine (16_host R459 to R468). -/

namespace Sys2Proof.Machine

open Sys2Proof

/-- A firmware slot (R465): its image, its failures of step 4 in a row, and its mark as failed. -/
structure FirmwareSlot where
  image  : Memory
  fails  : Nat
  failed : Bool
  deriving DecidableEq, Repr

structure Management where
  /-- MBSTS (R459): ready, rec, neg and ovf. -/
  ready    : Bool
  rec'     : Bool
  neg      : Bool
  ovf      : Bool
  /-- The agreed features (R462). -/
  agreed   : Word
  /-- MBRSP: page-aligned host physical base, and log2 of the ring's entries. -/
  rspBase  : Nat
  rspSize  : Nat
  /-- Responses written, and MBRCON (R461). -/
  written  : BitVec 16
  consumed : BitVec 16
  /-- Commands not yet applied, oldest first: opcode and fields. -/
  queue    : List (Nat × MailboxCommand)
  /-- The response that a full ring holds back. -/
  held     : Option (List Word)
  /-- The staging buffer. -/
  staging  : Memory
  slots    : Vector FirmwareSlot 2
  /-- The slot that boots at the next reset, and the slot that runs. -/
  active   : Nat
  running  : Nat
  /-- The fused floor of security versions. -/
  floor    : Nat
  /-- Event log (R466), by index; the sequence number of the next entry. -/
  log      : Table (List Word)
  logSeq   : Nat
  /-- MR0 .. MR7 (R467), byte 0 lowest; an extend in progress: the register and the words so far. -/
  mrs      : Vector (BitVec 512) 8
  mrWrite  : Option (Nat × List Word)
  /-- Firmware's policy ceiling (R468). -/
  policy   : Nat
  /-- The period from which the IEEE 1588 engine is locked, and whether firmware joins a timed domain (R464). -/
  lockedAt : Nat
  joins    : Bool
  /-- The system image is in place; the plates are released (R463 steps 5 and 6); a thermal trip has stopped the clocks (R469). -/
  placed   : Bool
  released : Bool
  stopped  : Bool
  deriving DecidableEq, Repr

def FirmwareSlot.reset : FirmwareSlot := { image := [], fails := 0, failed := false }

def Management.reset : Management :=
  { ready := false, rec' := false, neg := false, ovf := false, agreed := 0, rspBase := 0, rspSize := 6, written := 0, consumed := 0, queue := [],
    held := none, staging := [], slots := Vector.replicate 2 FirmwareSlot.reset, active := 0, running := 0, floor := 0, log := [], logSeq := 0,
    mrs := Vector.replicate 8 0, mrWrite := none, policy := 0, lockedAt := 0, joins := false, placed := false, released := false, stopped := false }

end Sys2Proof.Machine
end

