-- ==== Sys2Proof/Machine/State.lean ====
section
/-! DEFINITION. The machine's state as plain data, its reasons to stop, and the state after reset. -/

namespace Sys2Proof.Machine

open Sys2Proof

/-- What a due event runs (log entry 6). -/
inductive Item where
  /-- A step of the opcode table that has no place in a program, or whose operands it carries. -/
  | op (i : Instr)
  /-- Position `k` of the bundle at `pc` of a timed core: 7 .. 0 its slots, 8 xin, 9 xout. -/
  | slot (cell : Nat) (pc : BitVec 64) (k : Nat)
  /-- The end of a bundle's issue on a timed core: control transfer and iteration ends (05_sequencer R129). -/
  | finish (cell : Nat)
  /-- The first fault of a tick on a timed core is taken (R144). -/
  | resolve (cell : Nat)
  /-- The instruction at the program counter of a barrel thread. -/
  | thread (cell thread : Nat)
  /-- The side port of a core-store bank serves one access (09_windows R261, 08_copy R226). -/
  | port (cell bank : Nat)
  /-- A request of a barrel thread reaches its target, or the acknowledgement of a posted store returns. -/
  | deliver (request : Nat)
  /-- A wake reaches a thread, of the context if one is given (10_barrel R319, 09_windows R284): `signal` is the timed core that counts
  it as lost when the slot holds no thread. -/
  | wake (cell thread : Nat) (ctx signal : Option Nat)
  /-- A timed core's recovery release is complete in its tick and sets out, or arrives at the proof keeper (13_proof R395). -/
  | release (cell id : Nat)
  /-- GETC reads a control register at offset 1 (11_barrel_traps R339): the thread, its name, the destination, the register. -/
  | getc (cell thread uid d n : Nat)
  /-- The arbiter of a barrel core grants a slot and the port (10_barrel R297). -/
  | grant (cell : Nat)
  /-- A network port of a vault bank performs a request that writes, after the timed ports of its period; what it reads is given (14_fabric
R419). -/
  | vaultPerform (request old : Nat)
  /-- Beats of a port whose delivery TICK has come (14_fabric R438). -/
  | beats (port : Nat)
  /-- The register writes due on a barrel core (10_barrel R288). -/
  | barrelLand (cell : Nat)
  /-- A slice's miss asks for its line: from its stack, or from the host over the port die (14_fabric R421, R425). -/
  | miss (slice line : Nat)
  /-- The images of a resume entry are read, ahead of its tick (09_windows R256). -/
  | images (plate index : Nat)
  /-- A line of a tagged copy reaches the device control space. -/
  | controlLine (cell line : Nat)
  /-- The mailbox engine applies its oldest command (16_host R461). -/
  | mailbox
  /-- The host submits a command of any opcode (16_host R459, R460). -/
  | command (op : Nat) (c : MailboxCommand)
  /-- The host stores bytes into its own memory (16_host R458). -/
  | hostStore (pa : Nat) (bytes : List Byte)
  /-- Firmware lowers or sets its policy ceiling (16_host R468). -/
  | policy (ceiling : BitVec 32)
  deriving DecidableEq, Repr

/-- A due event: its clock period, its phase in the period, its rank in the phase. -/
structure Event where
  due   : Nat
  phase : Nat
  key   : Nat
  item  : Item
  deriving DecidableEq, Repr

/-- The slot instruction now executing: its core, its bundle, its position, its group's iteration conditions and its issue rank. -/
structure TimedContext where
  cell  : Nat
  pc    : BitVec 64
  slot  : Nat
  first : Bool
  last  : Bool
  deriving DecidableEq, Repr

/-- The barrel instruction now executing: its core, its thread and the fields of its word (log entry 8). -/
structure BarrelContext where
  cell   : Nat
  thread : Nat
  word   : BarrelWord
  deriving DecidableEq, Repr

/-- A packet on the packet network (14_fabric R420, R421): the router it came from, the one it is at, the input it waits at there (512
where it entered the network) and since which period, the bridge router it heads for, its destination (320 is the port die), its class,
and what its arrival runs in which phase. -/
structure Packet where
  source : Nat
  here   : Nat
  input  : Nat
  since  : Nat
  via    : Option Nat
  dest   : Nat
  cls    : Nat
  phase  : Nat
  key    : Nat
  item   : Item
  deriving DecidableEq, Repr

/-- A router output (14_fabric R422): the period in which it last served a packet, and by class the input it served last. -/
structure RouterOutput where
  servedAt : Nat
  turns    : Table Nat
  deriving DecidableEq, Repr

/-- The machine. -/
structure State where
  /-- Clock periods since reset; offsets count them (09_windows R250). -/
  clk      : Nat
  /-- TICK (01_machine R26). -/
  tick     : Word
  /-- What the next TICK increment adds: 1, 2 on an advance step, 0 on a retard step (09_windows R249). -/
  stepBy   : Nat
  events   : List Event
  /-- Rank given to the next event or result, in issue order. -/
  rank     : Nat
  /-- Counter of free values (log entry 5). -/
  free     : Nat
  curT     : TimedContext
  curB     : BarrelContext
  /-- Coherent memory of the physical map (01_machine R16). -/
  mem      : Memory
  /-- The text stores: quad × 2^20 + offset (05_sequencer R123). -/
  text     : Memory
  /-- What the HBM stacks hold in the lines where that differs from `mem`: dirty, buffered, dead and written-through lines. -/
  hbmOld   : Table (BitVec 512)
  throughs : Table WriteThrough
  walks    : Table Walk
  /-- The units that wait for an access or a walk; the unit now at work. -/
  units    : List UnitJob
  curU     : UnitContext
  /-- Physical ranges whose writes a seal holds (13_proof R402): first byte and bytes. -/
  held     : List (Nat × Nat)
  /-- Queues of the network ports of the vault banks (14_fabric R419), by 128 × cluster + 16 × vault + bank, oldest first. -/
  vaultPorts : Table (List WalkUser)
  /-- Queues of the scratchpad banks (10_barrel R296), by 16 × cell + bank: rank and request, oldest first. -/
  scratchPorts : Table (List (Nat × Nat))
  barrels  : Table BarrelCore
  /-- CLOAD by package cluster (11_barrel_traps R350). -/
  cload    : Table Word
  requests : Table Request
  /-- The full words of the scratchpads, by physical address (R295), and the requests that wait on a word. -/
  full     : List Nat
  parked   : Table (List Nat)
  /-- Writes that some agent may still read past, in the order they performed (04_ordering R107), and the releases in memory (R106). -/
  past     : List PastWrite
  marks    : List ReleaseMark
  suffix   : Table SuffixUnit
  groups   : Vector ServingGroup 16
  impressions : Table Impression
  /-- Pages held for a seal slot, by 2 × context + slot. -/
  slotPages : Table SlotPages
  releases : List Release
  mirrors  : Table MirrorLine
  /-- What has arrived at the proof keeper, in order, with its period. -/
  keeper   : List (Nat × KeeperUser)
  /-- Messages that wait at a context's kill for its agents to stop (11_barrel_traps R344), by context. -/
  kills    : Table Message
  cores    : Table Core
  accesses : List Access
  packets  : Table Packet
  /-- Router outputs, by 1024 × router + next router, 1023 where packets leave the network. -/
  outputs  : Table RouterOutput
  /-- Injection period of the last packet of a source, destination and class (R421). -/
  lastSent : Table Nat
  remotes  : Table RemoteStore
  /-- Number given to the next packet, request or copy. -/
  nextId   : Nat
  pkg      : Package
  mgmt     : Management
  deriving DecidableEq, Repr

/-- Why the machine stops. -/
inductive Fault where
  /-- A thermal trip has stopped the plates' clocks and nothing from the host or the board is due (16_host R469): raised by `step`. Safe:
  the hardware does nothing either. -/
  | clocksStopped
  deriving DecidableEq, Repr

/-- Why a step has no meaning. -/
inductive Refusal where
  /-- An instruction whose meaning is not written: raised by `exec`. Safe: nothing follows from a run that needs it. -/
  | notModelled (mnemonic : String)
  deriving DecidableEq, Repr

/-- The machine right after package reset: its boot ROM is about to run (16_host R463, R464). -/
def State.reset : State :=
  { clk := 0, tick := 0, stepBy := 1, events := [{ due := 0, phase := 0, key := 0, item := .op .packageReset }], rank := 0, free := 0,
    curT := { cell := 0, pc := 0, slot := 0, first := true, last := true },
    curB := { cell := 0, thread := 0, word := { d := 0, a := 0, b := 0, imm := 0 } },
    mem := [], text := [], hbmOld := [], throughs := [], walks := [], units := [], curU := UnitContext.reset, held := [], vaultPorts := [], scratchPorts := [], barrels := [], cload := [], requests := [], full := [], parked := [], past := [], marks := [],
    suffix := [], groups := Vector.replicate 16 ServingGroup.reset, impressions := [], slotPages := [], releases := [], mirrors := [],
    keeper := [], kills := [], cores := [], accesses := [], packets := [], outputs := [], lastSent := [], remotes := [], nextId := 0, pkg := Package.reset,
    mgmt := Management.reset }

end Sys2Proof.Machine
end

