-- ==== Sys2Proof/Machine/Ops.lean ====
section
/-! DEFINITION. The named operations over events, registers, messages and results, and the taking of a timed-core trap. -/

namespace Sys2Proof.Machine

open Sys2Proof

/-! ## Geometry (01_machine R10, 14_fabric R417) -/

def plateOf (cell : Nat) : Nat := cell / 80
/-- Package cluster of a cell. -/
def clusterOf (cell : Nat) : Nat := cell / 8
def quadOf (cell : Nat) : Nat := cell / 4
def posOf (cell : Nat) : Nat := cell % 8
def meshX (cell : Nat) : Nat := 2 * (cell % 80 / 8 % 5) + cell % 8 % 2
def meshY (cell : Nat) : Nat := 4 * (cell % 80 / 8 / 5) + cell % 8 / 2

/-- Distance of two naturals. -/
def absDiff (a b : Nat) : Nat := if a ≤ b then b - a else a - b

/-- Hop count between package clusters (R417). -/
def hops (c1 c2 : Nat) : Nat :=
  absDiff (c1 % 10 % 5) (c2 % 10 % 5) + absDiff (c1 % 10 / 5) (c2 % 10 / 5) + (if c1 / 10 == c2 / 10 then 0 else 4)

/-- CELLID (R11). -/
def cellId (domPos cell : Nat) : Word :=
  BitVec.ofNat 64 (domPos * 2 ^ 25 + quadOf cell * 2 ^ 18 + posOf cell * 2 ^ 15 + cell % 80 / 8 * 2 ^ 11 + plateOf cell * 2 ^ 9 + cell)

def coreStoreSize : Nat := 0x300000
/-- Physical address of core-store byte 0 of a cell (R16). -/
def coreStoreBase (cell : Nat) : Nat := 0x020000000000 + cell * 2 ^ 22
/-- Physical address of vault byte 0 of a package cluster (R16). -/
def vaultBase (cluster : Nat) : Nat := 0x010000000000 + cluster * 2 ^ 26
def scratchBase (cell : Nat) : Nat := 0x030000000000 + cell * 2 ^ 19

/-- Physical address of an address in form C's space (R13). -/
def spacePhys (cell space address : Nat) : Nat :=
  match space with
  | 0 => coreStoreBase cell + address
  | 1 => 0x010000000000 + address
  | _ => coreStoreBase (address / 2 ^ 22) + address % 2 ^ 22

/-- Cluster that an address of a space lies in, seen from a cell. -/
def spaceCluster (cell space address : Nat) : Nat :=
  match space with
  | 0 => clusterOf cell
  | 1 => address / 2 ^ 26
  | _ => clusterOf (address / 2 ^ 22)

/-! ## Words -/

def sgn (w : Word) : Int := w.toInt
/-- Sign extension of the low `n` bits of a number to a word. -/
def sextNat (n x : Nat) : Word := (BitVec.ofNat n x).signExtend 64
def word (n : Nat) : Word := BitVec.ofNat 64 n
def wordBool (b : Bool) : Word := if b then 1 else 0

/-! ## Events -/

/-- Insert an event by (due, phase, key), after those of the same rank. -/
def insertEvent (e : Event) : List Event → List Event
  | [] => [e]
  | x :: t =>
    if x.due < e.due || (x.due == e.due && (x.phase < e.phase || (x.phase == e.phase && x.key ≤ e.key))) then
      x :: insertEvent e t
    else e :: x :: t

/-- Schedule an item, once, at an absolute period. -/
def State.at' (s : State) (due phase key : Nat) (item : Item) : State :=
  let e : Event := { due, phase, key, item }
  if s.events.contains e then s else { s with events := insertEvent e s.events }

/-- Schedule an item some periods from now. -/
def State.after (s : State) (delay phase key : Nat) (item : Item) : State := s.at' (s.clk + delay) phase key item

/-- Take the next free value as a duration of at least one period (log entry 5). -/
def State.drawDelay (s : State) : Nat × State := (Config.freeDelay s.free + 1, { s with free := s.free + 1 })

/-- Take the next free value (each use has its own log entry). -/
def State.drawValue (s : State) : Nat × State := (Config.freeValue s.free, { s with free := s.free + 1 })

/-- The phases of a clock period (log entry 6). -/
def phClock : Nat := 0
def phTick : Nat := 1
def phLand : Nat := 2
def phPerform : Nat := 3
def phTrap : Nat := 4
def phIssue : Nat := 5
def phNet : Nat := 6
def phDispatch : Nat := 7
def phBarrelLand : Nat := 8
def phBarrel : Nat := 9
def phSample : Nat := 10

/-! ## Cores -/

def State.core (s : State) (cell : Nat) : Core := s.cores.getD cell Core.reset
def State.setCore (s : State) (cell : Nat) (c : Core) : State := { s with cores := s.cores.set cell c }
def State.updCore (s : State) (cell : Nat) (f : Core → Core) : State := s.setCore cell (f (s.core cell))
def State.cur (s : State) : Core := s.core s.curT.cell
def State.updCur (s : State) (f : Core → Core) : State := s.updCore s.curT.cell f

def Core.s' (c : Core) (n : Nat) : Word := c.regs.s[n]?.getD 0
def Core.a' (c : Core) (n : Nat) : Word := c.regs.a[n]?.getD 0
/-- p0 reads true (R118). -/
def Core.p' (c : Core) (n : Nat) : Bool := n == 0 || c.regs.p.getLsbD n
def Core.v' (c : Core) (n : Nat) : VReg := c.regs.v[n]?.getD 0
def Core.k' (c : Core) (n : Nat) : Mask := c.regs.k[n]?.getD 0
/-- pv0 reads all ones (06_vector R152). -/
def Core.pv' (c : Core) (n : Nat) : Mask := if n == 0 then BitVec.allOnes 256 else c.regs.pv[n]?.getD 0

/-- Merge a value into a register under a bit mask (R156). -/
def mergeBits {n : Nat} (old x bits : BitVec n) : BitVec n := (old &&& ~~~bits) ||| (x &&& bits)

def TimedRegs.setS (r : TimedRegs) (n : Nat) (v : Word) : TimedRegs := { r with s := r.s.setIfInBounds n v }
def TimedRegs.setA (r : TimedRegs) (n : Nat) (v : Word) : TimedRegs := { r with a := r.a.setIfInBounds n v }
/-- Writes to p0 are discarded (R118). -/
def TimedRegs.setP (r : TimedRegs) (n : Nat) (v : Bool) : TimedRegs :=
  if n == 0 then r else { r with p := mergeBits r.p (if v then BitVec.allOnes 16 else 0) (BitVec.twoPow 16 n) }
def TimedRegs.setV (r : TimedRegs) (n : Nat) (x bits : VReg) : TimedRegs :=
  { r with v := r.v.setIfInBounds n (mergeBits (r.v[n]?.getD 0) x bits) }
/-- Writes to pv0 are discarded (R152). -/
def TimedRegs.setPv (r : TimedRegs) (n : Nat) (x bits : Mask) : TimedRegs :=
  if n == 0 then r else { r with pv := r.pv.setIfInBounds n (mergeBits (r.pv[n]?.getD 0) x bits) }
def TimedRegs.setK (r : TimedRegs) (n : Nat) (x bits : Mask) : TimedRegs :=
  { r with k := r.k.setIfInBounds n (mergeBits (r.k[n]?.getD 0) x bits) }

/-- The current period's `cell`, `bundle` and `slot` as the place of a fault. -/
def State.faultHere (s : State) (cause lane : Nat) (val : Word) : FaultInfo :=
  { cause, slot := s.curT.slot, lane, pc := s.curT.pc, val }

/-- Put a result into flight: it lands `offset` periods from now, ranked by issue order (R118, R119). -/
def State.flight (s : State) (offset : Nat) (opcode : Nat) (landings : List Landing) (group : FlagGroup)
    (flags : List (Nat × Flags)) (park : Option (Nat × Word)) : State :=
  let f : Flight := { due := s.clk + offset, seq := s.rank, issued := s.clk, slot := s.curT.slot, opcode, pc := s.curT.pc,
                      landings, group, flags, park }
  (({ s with rank := s.rank + 1 }).updCur fun c => { c with flights := c.flights ++ [f] }).after offset phLand s.curT.cell
    (.op (.resultLanding s.curT.cell))

/-- A result without flags. -/
def State.fly (s : State) (offset : Nat) (landings : List Landing) : State := s.flight offset 0 landings .none [] none

/-! ## Messages (11_barrel_traps R346 to R348) -/

def State.plate (s : State) (p : Nat) : Plate := s.pkg.plates[p]?.getD Plate.reset
def State.updPkg (s : State) (f : Package → Package) : State := { s with pkg := f s.pkg }
def State.updPlate (s : State) (p : Nat) (f : Plate → Plate) : State :=
  s.updPkg fun k => { k with plates := k.plates.setIfInBounds p (f (s.plate p)) }

/-- What the event log records (16_host R466), by its place in the spec's list. -/
def evRetired : Nat := 0
def evSlice : Nat := 1
def evThermal : Nat := 2
def evKill : Nat := 3
def evFirmware : Nat := 4
def evSignature : Nat := 5

/-- Enter an event in the log: words 2 and 3 are open (log entry 4). -/
def State.logEvent (s : State) (kind cause : Nat) : State :=
  let a := s.drawValue
  let b := a.2.drawValue
  let m := s.mgmt
  let w0 : Word := word ((Config.eventKind kind).toNat + m.logSeq % 65536 * 2 ^ 16 + cause * 2 ^ 32)
  { b.2 with mgmt := { m with log := m.log.set (m.logSeq % 4096) [w0, if m.released then s.tick else 0, word a.1, word b.1]
                              logSeq := m.logSeq + 1 } }

/-- Hand a message to a plate's poster, which is woken when it has nothing to post. -/
def State.postMessage (s : State) (plate : Nat) (m : Message) : State :=
  let s1 := s.updPlate plate fun p => { p with queue := p.queue ++ [m] }
  if (s.plate plate).queue.isEmpty then s1.after 0 phNet plate (.op (.mailboxPost plate)) else s1

/-- A message of a timed core to its own plate's supervisor. -/
def State.postCore (s : State) (cell kind cause : Nat) (pc : Word) (val : Word) : State :=
  s.postMessage (plateOf cell) { kind, cause, cell, thread := 0, ctx := (s.core cell).ctx, pc, val }

/-! ## Contexts, gangs and partitions (R19 to R23) -/

def State.ctx (s : State) (id : Nat) : Context := s.pkg.ctxs.getD id Context.reset
def State.updCtx (s : State) (id : Nat) (f : Context → Context) : State :=
  s.updPkg fun k => { k with ctxs := k.ctxs.set id (f (k.ctxs.getD id Context.reset)) }
/-- Whether a cell lies in a context's partition. -/
def State.holds (s : State) (ctx cell : Nat) : Bool := (s.ctx ctx).quads.getLsbD (quadOf cell)
/-- A cell that a wake, message or task packet of a context may name (R470). -/
def State.mayName (s : State) (ctx cell : Nat) : Bool :=
  decide (cell < 320) && (s.holds ctx cell || (ctx == 0 && !s.pkg.retired.getLsbD cell))
def State.retired (s : State) (cell : Nat) : Bool := s.pkg.retired.getLsbD cell
/-- A retired cell refuses what comes to it, from the period after its retirement (15_causes R457). -/
def State.turnsAway (s : State) (cell : Nat) : Bool := s.retired cell && s.pkg.retiredAt.get? cell != some s.clk

def gangKey (plate gang : Nat) : Nat := plate * 128 + gang
def State.gangOf (s : State) (cell : Nat) : Option Gang := s.pkg.gangs.get? (gangKey (plateOf cell) (s.core cell).gang)
/-- The members of a core's gang; the core alone when it belongs to none. -/
def State.members (s : State) (cell : Nat) : List Nat :=
  match s.gangOf cell with
  | some g => if g.members.contains cell then g.members else [cell]
  | none => [cell]

/-- Running or in its handler, and not halted, contained, stopped or pre-empted (09_windows R267). -/
def RunState.live (r : RunState) : Bool :=
  match r with
  | .running | .halting | .stopping | .parking => true
  | _ => false
/-- A program occupies the core: it runs, drains or is pre-empted (R27, R20). -/
def RunState.occupied (r : RunState) : Bool :=
  match r with
  | .running | .halting | .stopping | .parking | .preempting | .preempted => true
  | _ => false
/-- It will never issue again (R29). -/
def RunState.ended (r : RunState) : Bool :=
  match r with
  | .halted | .stopped | .contained | .parked => true
  | _ => false

/-! ## Waits at barriers (R267, R268) -/

/-- Cores of a gang that wait at a barrier without a release. -/
def State.waitingAt (s : State) (cells : List Nat) (n : Nat) : List Nat :=
  cells.filter fun m => match (s.core m).seq.bar with
    | some b => b.barrier == n && b.release.isNone
    | none => false

/-- The gang of a plate goes on from, or leaves, a domain barrier: the arrivals of other packages go with its last gang. -/
def DomainBarrier.leave (b : DomainBarrier) (plate : Nat) : DomainBarrier :=
  let plates := b.plates.erase plate
  { b with plates, ticks := if plates.isEmpty then [] else b.ticks }

/-- A core waits no longer at its barrier (09_windows R267). When no core of its gang waits at a domain barrier any more, the gang's
arrival is withdrawn with it, and a later one is a new arrival (R268). DESIGN CHOICE (log 46): so are those of other packages. -/
def State.leaveBarrier (s : State) (cell : Nat) : State :=
  let left (b : DomainBarrier) : Bool := b.gang == (s.core cell).gang && (b.plates.get? (plateOf cell)).isSome &&
    (s.waitingAt (s.members cell) b.barrier).isEmpty
  s.updPkg fun k => { k with domBars := k.domBars.map fun b => if left b then b.leave (plateOf cell) else b }

/-! ## Control registers of the trap path (05_sequencer R143 to R147) -/

def drainSlot (slot : Nat) : Bool := slot == 6 || slot == 5 || slot == 3 || slot == 2 || slot == 8 || slot == 9

/-- The landing period of the last scalar, load, vector or crossing result in flight (R146). -/
def State.drainTick (s : State) (cell : Nat) : Nat :=
  let fl := (s.core cell).flights.foldl (fun m f => if drainSlot f.slot && f.issued < s.clk then max m f.due else m) (s.clk + 1)
  s.accesses.foldl (fun m a => match a.kind with
    | .load _ land => if a.cell == cell && a.issued < s.clk then max m land else m
    | _ => m) fl

/-- Timed-copy channels in use (R224). -/
def CopyEngine.channels (e : CopyEngine) (clk : Nat) : Nat := (e.timed.filter fun t => decide (clk < t.frees)).length

/-- Every result of the core has landed and every timed access of it has performed (R138). -/
def State.quiet (s : State) (cell : Nat) : Bool :=
  let c := s.core cell
  c.flights.isEmpty && !(s.accesses.any fun a => a.cell == cell) && c.mtx.cmds.isEmpty && c.cpy.channels s.clk == 0 &&
    c.cpy.tagged.isEmpty && c.clock.counts.toList.all (· == 0)

/-- Record the trap registers (R145). -/
def TimedControl.record (t : TimedControl) (i : FaultInfo) (rpc : BitVec 64) (tick : Word) : TimedControl :=
  { t with tcause := i.cause, tbpc := i.pc, trpc := rpc, tslot := i.slot, tlane := i.lane, ttick := tick,
           tval := i.val }

/-- TSTAT.lost rises (R144), with the handler-lost message when it was clear (11_barrel_traps R348). -/
def State.markLost (s : State) (cell : Nat) : State :=
  let c := s.core cell
  let s1 := s.updCore cell fun c => { c with ctl := { c.ctl with lost := true } }
  if c.ctl.lost then s1 else s1.postCore cell 0x0B 0 c.ctl.tbpc 0

/-- A REALIGN that waits lands its destination: the periods waited, with bit 63 when it ended by timeout (R136). -/
def State.landRealign (s : State) (cell : Nat) : State :=
  match (s.core cell).seq.realign with
  | none => s
  | some r =>
    let n := match r.release, r.arrived with
      | some x, _ => x.1 % 2 ^ 63 + x.2.toNat * 2 ^ 63
      | none, some t => s.clk - 1 - t
      | none, none => 0
    s.updCore cell fun c => { c with
      regs := match r.dest with
        | some d => c.regs.setS d (word n)
        | none => c.regs
      seq := { c.seq with realign := none } }

/-- Taking a trap (R145): the handler starts after the drain of R146, or the core stops. `rpc` is the resume address. -/
def State.takeTrap (s0 : State) (cell : Nat) (i : FaultInfo) (rpc : BitVec 64) : State :=
  let s := s0.landRealign cell
  let c := s.core cell
  let q := { c.seq with group := none, taken := none, after := none, realign := none, bar := none, observed := [], fault := i }
  if c.ctl.inh || c.ctl.tvec == 0 then
    ((s.setCore cell { c with run := .stopping, seq := { q with pc := rpc } }).leaveBarrier cell).after 1 phTrap cell (.op (.timedCoreStop cell))
  else
    ((s.setCore cell { c with
        ctl := { c.ctl.record i rpc s.tick with inh := true }
        seq := { q with pc := c.ctl.tvec, drained := true, ceased := s.clk, notBefore := s.drainTick cell } }).leaveBarrier cell).at'
      (s.drainTick cell) phTrap cell (.op (.handlerStart cell))

/-- A reserved block code parks the core (02_numbers R48, 06_vector R175). -/
def State.parkCore (s0 : State) (cell : Nat) (i : FaultInfo) : State :=
  let s := s0.landRealign cell
  let c := s.core cell
  ((s.setCore cell { c with run := .parking
                            ctl := c.ctl.record i c.ctl.trpc s.tick
                            seq := { c.seq with group := none, taken := none, after := none, realign := none, bar := none, observed := [],
                                                fault := i } }).leaveBarrier cell).after 1 phTrap cell (.op (.timedCoreStop cell))

/-- Note a perform-time fault for this period's resolution (R143, R144). -/
def State.noteFault (s : State) (cell issued : Nat) (act : FaultAct) (i : FaultInfo) : State :=
  (s.updCore cell fun c => { c with faults := c.faults ++ [{ issued, act, info := i }] }).after 0 phTrap cell (.resolve cell)

/-- Rank of a position among faults of one bundle (R144): slots 7 to 0, then xin and xout. -/
def slotRank (slot : Nat) : Nat := if slot ≤ 7 then 7 - slot else slot

/-- The first fault of a period: earlier issue, then position (R144). -/
def firstFault : List FaultRec → Option FaultRec
  | [] => none
  | f :: t => match firstFault t with
    | none => some f
    | some g => if g.issued < f.issued || (g.issued == f.issued && slotRank g.info.slot < slotRank f.info.slot) then some g else some f

/-- An issue-time fault of the bundle now issuing (R143): nothing of it takes effect and TRPC is TBPC. -/
def State.issueTrap (s : State) (cause lane : Nat) (val : Word) : Host.Outcome State Fault Refusal :=
  .next (s.takeTrap s.curT.cell (s.faultHere cause lane val) s.curT.pc)

/-! ## Windows (09_windows R259 to R266) -/

def Core.window (c : Core) (n : Nat) : Window := c.clock.windows[n]?.getD Window.reset
def State.updClock (s : State) (cell : Nat) (f : ClockEngine → ClockEngine) : State :=
  s.updCore cell fun c => { c with clock := f c.clock }
def State.setWindow (s : State) (cell n : Nat) (w : Window) : State :=
  s.updClock cell fun k => { k with windows := k.windows.setIfInBounds n w }

/-- Every expected post was accepted. -/
def Window.hit (w : Window) : Bool := w.expect &&& ~~~w.rcvd == 0

/-- Open for an access of this tick (R111, R262). -/
def Window.openNow (w : Window) (tick : Word) : Bool := w.isOpen && decide (w.openAt.toNat ≤ tick.toNat)

/-- The first address of `a .. a + n - 1` inside a region, if any. -/
def Window.meet (w : Window) (a n : Nat) : Option Nat :=
  if decide (0 < w.size.toNat) && decide (0 < n) && decide (a < w.base.toNat + w.size.toNat) && decide (w.base.toNat < a + n) then some (max a w.base.toNat) else none

/-- The lowest byte of a core-store range inside an open window's region (R142). -/
def State.regionHit (s : State) (cell a n : Nat) : Option Nat :=
  (s.core cell).clock.windows.toList.foldl (fun r w => match (if w.openNow s.tick then w.meet a n else none), r with
    | some x, some y => some (min x y)
    | some x, none => some x
    | none, r => r) none

/-- The members' stall on a window of `owner` ends at period `x` (R265). -/
def State.endStall (s : State) (owner n x : Nat) : State :=
  (s.members owner).foldl (fun s m => s.updCore m fun c => { c with seq := { c.seq with
    stalls := c.seq.stalls.map fun g => if g.owner == owner && g.window == n && g.until'.isNone then { g with until' := some x } else g } }) s

/-- Close a window in this tick (R262, R263): its status, WCLOSE, and the redirect a `br` miss owes. -/
def State.closeWindow (s : State) (cell n : Nat) (absent : Bool) : State :=
  let w := (s.core cell).window n
  if !w.isOpen then s
  else s.setWindow cell n { w with isOpen := false, stalling := false, absent := absent, missed := !w.hit, close := s.tick,
                                   owed := w.owed || (!absent && !w.hit && w.action == 1) }

/-- Close every open window of a core as absent (R266) and end the stalls on them. -/
def State.closeAbsent (s : State) (cell : Nat) : State :=
  (List.range 16).foldl (fun s n =>
    if ((s.core cell).window n).isOpen then (s.closeWindow cell n true).endStall cell n (s.clk + 9) else s) s

/-! ## Barriers (R267) -/

/-- Whether every live member waits at barrier `n`. -/
def State.allArrived (s : State) (cells : List Nat) (n : Nat) : Bool :=
  let live := cells.filter fun m => (s.core m).run.live
  !(s.waitingAt cells n).isEmpty && live.all fun m => (s.waitingAt cells n).contains m

/-- Fire the barriers of a gang that have become complete. -/
def State.checkBarriers (s : State) (cell : Nat) : State :=
  let cells := s.members cell
  (List.range 16).foldl (fun s n =>
    if s.allArrived cells n then
      let dom := cells.any fun m => match (s.core m).seq.bar with
        | some b => b.barrier == n && b.dom
        | none => false
      s.after 0 phIssue (320 * 32) (.op (if dom then .domainBarrierRelease (plateOf cell) (s.core cell).gang n
        else .barrierRelease (plateOf cell) (s.core cell).gang n))
    else s) s

/-! ## Matrix gangs (07_matrix R201) -/

def State.updMtx (s : State) (cell : Nat) (f : Matrix → Matrix) : State := s.updCore cell fun c => { c with mtx := f c.mtx }

/-- The quad's cores that a mask names. -/
def maskCells (cell : Nat) (mask : BitVec 4) : List Nat :=
  (List.range 4).filterMap fun i => if mask.getLsbD i then some (quadOf cell * 4 + i) else none

/-- A core leaves its matrix gang, formed or pending: its mask clears; of a formed gang formed, leader and rank clear, and the other
members' masks stay pending. -/
def State.dissolve (s : State) (cell : Nat) : State :=
  let m := (s.core cell).mtx
  (if m.formed then
    (maskCells cell m.mask).foldl (fun s x => s.updMtx x fun m => { m with formed := false, leader := false, rank := 0 }) s
  else s).updMtx cell fun m => { m with mask := 0 }

/-! ## Ends of a program (R29) -/

/-- A pre-empted gang is complete when every member has ended or saved its image: the plate answers the entries in the next period
(09_windows R255). -/
def State.preemptCheck (s : State) (cell : Nat) : State :=
  match s.gangOf cell with
  | none => s
  | some g =>
    if g.members.all fun m => (s.core m).run.ended || (s.core m).run == .preempted then
      g.preempt.foldl (fun s i => s.after 1 phClock (plateOf cell) (.op (.schedulePreempt (plateOf cell) i))) s
    else s

/-- A member has halted, stopped, parked or been contained: barriers may release and the gang may retire. -/
def State.memberEnded (s : State) (cell : Nat) : State :=
  let s1 := ((s.updCore cell fun c => { c with idleAt := s.tick, seq := { c.seq with ceased := s.clk } }).preemptCheck cell).checkBarriers cell
  match s1.gangOf cell with
  | none => s1
  | some g =>
    if g.members.contains cell && g.members.all (fun m => (s1.core m).run.ended) then
      s1.updPkg fun k => { k with gangs := k.gangs.erase (gangKey (plateOf cell) (s1.core cell).gang) }
    else s1

/-- Take back a copy's count on its tag (08_copy R220): it has performed, failed or been dropped in every line. -/
def CopyEngine.countDown (e : CopyEngine) (tag : Nat) : CopyEngine :=
  let g := e.tags[tag]?.getD Tag.reset
  { e with tags := e.tags.setIfInBounds tag { g with count := g.count - 1, done := g.done || g.count ≤ 1
                                                     records := if g.count ≤ 1 then [] else g.records } }

/-- A line that a cancel stops: it is at no slice and at no side port, or it is a line of a discard (R245). A line at a vault bank or
at the control space counts as one at a slice, and one on the packet network as not there yet (log entry 44). -/
def CopyLine.stops (l : CopyLine) : Bool := l.stage == 0 || l.stage == 4 || l.discard

/-- What a cancel leaves of a copy. -/
def TaggedCopy.cut (t : TaggedCopy) : TaggedCopy := { t with lines := t.lines.filter fun l => !l.stops, list := none }

/-- CCANCEL on a mask of tags (R245, R246): lines in flight at a slice or a side port complete, the others never perform; a collective
goes on to its own end. -/
def CopyEngine.cancel (e : CopyEngine) (mask : Word) : CopyEngine :=
  let marked : Vector Tag 64 := (List.range 64).foldl (fun (ts : Vector Tag 64) t =>
    let g := ts[t]?.getD Tag.reset
    if mask.getLsbD t && g.count != 0 then ts.setIfInBounds t { g with cxl := true } else ts) e.tags
  let drops (t : TaggedCopy) : Bool := mask.getLsbD t.tag && !t.coll
  let kept : List TaggedCopy := e.tagged.map fun t => if drops t then t.cut else t
  let gone (t : TaggedCopy) : Bool := drops t && t.lines.isEmpty
  (kept.filter gone).foldl (fun e t => e.countDown t.tag) { e with tags := marked, tagged := kept.filter fun t => !gone t }

/-- After a change of a copy engine, `old` before it: a watched tag that has become done wakes the cell's sampler thread (12_draft R374),
and the keeper looks at the core's recovery releases (13_proof R395). -/
def State.copyWatch (s : State) (cell : Nat) (old : CopyEngine) : State :=
  let b := s.barrels.getD cell BarrelCore.reset
  let done (e : CopyEngine) : Bool := (e.tags[b.smpTag]?.getD Tag.reset).done
  let s1 := if b.smpWv && !done old && done (s.core cell).cpy then s.after 0 phNet (cell * 64 + 63) (.wake cell 63 none none) else s
  if s.releases.any fun r => r.agent == cell * 128 then s1.after 0 phNet 0 (.op .proofKeeperRequestService) else s1

/-- Contain a core's program (R29, R258, 08_copy R246). Its collectives are abandoned by `COLLECTIVE_COMPLETE` (14_fabric R450). -/
def State.containCore (s : State) (cell : Nat) : State :=
  let c := s.core cell
  if c.run == .idle || c.run == .halted || c.run == .contained then s
  else
    let s1 := (s.updCore cell fun c => { c with
      run := .contained
      clock := { c.clock with prq := false }
      cpy := c.cpy.cancel (BitVec.allOnes 64)
      seq := { c.seq with group := none, taken := none, after := none, realign := none, bar := none, observed := [] } }).copyWatch cell c.cpy
        |>.leaveBarrier cell |>.closeAbsent cell
    let s2 := c.cpy.tagged.foldl (fun s t => if t.coll then s.after 0 phNet cell (.op (.collectiveTimeout cell t.id)) else s) s1
    (s2.dissolve cell).memberEnded cell

/-- A core has consumed an uncorrectable error: its program is contained (R145, R29). -/
def State.errorContains (s : State) (cell : Nat) (i : FaultInfo) : State := (s.postCore cell 0x02 380 i.pc i.val).containCore cell

/-- Take the first fault of a tick in a core that issues or halts; an uncorrectable error only records the registers here (R145). -/
def State.takeFirst (s : State) (cell : Nat) (f : FaultRec) : State :=
  let c := s.core cell
  let rpc := if c.run == .halting then c.seq.haltPc else c.seq.pc
  let s1 := s.updCore cell fun c => { c with run := .running }
  match f.act with
  | .trap => s1.takeTrap cell f.info rpc
  | .park => s1.parkCore cell f.info
  | .contain => s1.updCore cell fun c => { c with ctl := c.ctl.record f.info rpc s.tick }

/-- The first fault of a tick is taken (R144, R145): a draining core only marks it lost. An uncorrectable error contains the program
whether its fault is the one recorded or not. -/
def State.resolveFaults (s : State) (cell : Nat) : State :=
  let c := s.core cell
  let s0 := s.updCore cell fun c => { c with faults := [] }
  match firstFault c.faults with
  | none => s0
  | some f =>
    if c.run.ended || c.run == .idle || c.run == .preempted then s0
    else
      let drains := c.seq.drained || c.run == .stopping || c.run == .parking || c.run == .preempting
      let s1 := if drains then s0 else s0.takeFirst cell f
      let s2 := if drains || 1 < c.faults.length then s1.markLost cell else s1
      match firstFault (c.faults.filter fun f => f.act == .contain) with
      | some e => s2.errorContains cell e.info
      | none => s2

end Sys2Proof.Machine
end

