-- ==== Sys2Proof/Machine/Flags.lean ====
section
/-! DEFINITION. The flag groups of the timed core (02_numbers R39, 05_sequencer R121, 06_vector R157). -/

namespace Sys2Proof.Machine

open Sys2Proof

/-- The enables of a group (FMODE). -/
def TimedControl.enables (t : TimedControl) (g : FlagGroup) : Flags :=
  match g with
  | .none => 0
  | .va => t.vae
  | .vb => t.vbe
  | .mx => t.mxe

/-- Raise flags into a group: flags are sticky (R39). -/
def TimedControl.raise (t : TimedControl) (g : FlagGroup) (f : Flags) : TimedControl :=
  match g with
  | .none => t
  | .va => { t with va := t.va ||| f }
  | .vb => { t with vb := t.vb ||| f }
  | .mx => { t with mx := t.mx ||| f }

/-- The arithmetic cause of a group (06_vector R182, 07_matrix R218). -/
def FlagGroup.cause (g : FlagGroup) : Nat :=
  match g with
  | .none => 0
  | .va => 17
  | .vb => 18
  | .mx => 19

/-- All flags that the lanes of a result raised. -/
def unionFlags (fs : List (Nat × Flags)) : Flags := fs.foldl (fun a f => a ||| f.2) 0

/-- The first lane, in the order given, that raised one of the flags. -/
def firstLane (fs : List (Nat × Flags)) (en : Flags) : Nat :=
  match fs.find? (fun f => f.2 &&& en != 0) with
  | some f => f.1
  | none => 0

/-- TVAL of an arithmetic trap: the flags raised and the opcode (R182, R218). -/
def arithVal (f : Flags) (opcode : Nat) : Word := word (f.toNat + opcode % 128 * 2 ^ 8)

/-- FLAGS as a register (R121). -/
def TimedControl.flagsWord (t : TimedControl) : Word := word (t.va.toNat + t.vb.toNat * 2 ^ 8 + t.mx.toNat * 2 ^ 16)
/-- FMODE as a register (R121). -/
def TimedControl.fmodeWord (t : TimedControl) : Word :=
  word (t.vae.toNat + t.vbe.toNat * 2 ^ 8 + t.mxe.toNat * 2 ^ 16 + t.rnd % 8 * 2 ^ 24)

/-- The rounding that a rnd field selects: 6 is dyn (R40). -/
def TimedControl.rounding (t : TimedControl) (rnd : Nat) : Nat := if rnd == 6 then t.rnd else rnd

end Sys2Proof.Machine
end

