-- ==== Sys2Proof/Machine/Operands.lean ====
section
/-! DEFINITION. The operand forms of the timed slots: gates, register fields and the control registers (03_encoding R66 to R70,
05_sequencer R120, R132). -/

namespace Sys2Proof.Machine

open Sys2Proof

/-- The outcome of an instruction. -/
abbrev Result := Host.Outcome State Fault Refusal

/-- The iteration condition, fixed for the group (R67, R131). -/
def State.iterates (s : State) (g : Gate) : Bool :=
  match g.iter.toNat with
  | 1 => s.curT.first
  | 2 => s.curT.last
  | _ => true

/-- A scalar-guarded instruction takes effect (R67). -/
def State.issues (s : State) (g : Gate) : Bool := s.iterates g && s.cur.p' g.guard.toNat

/-- Run an effect when the instruction issues; otherwise nothing happens (R67). -/
def State.when (s : State) (g : Gate) (k : State → Result) : Result := if s.issues g then k s else .next s

/-- A field that names an s or an a register by its class bit (R132). -/
def Core.cls (c : Core) (isA : Bool) (n : BitVec 6) : Word := if isA then c.a' n.toNat else c.s' n.toNat
def landCls (isA : Bool) (n : BitVec 6) (v : Word) : Landing := if isA then .a n.toNat v else .s n.toNat v

/-- Bit `i` of a func field. -/
def fbit {n : Nat} (f : BitVec n) (i : Nat) : Bool := f.getLsbD i

/-- The address of a form C access: base plus offset modulo 2^64 (R13, R70). -/
def Core.formC (c : Core) (f : FormC) : Nat := (c.a' f.base.toNat + f.offset.signExtend 64).toNat

/-- The target of a form D transfer (R70). -/
def branchTarget (pc : BitVec 64) (f : FormD) : BitVec 64 := ((pc + (f.target.signExtend 64 <<< 6)).setWidth 48).setWidth 64

/-! ## Control registers (R120, R121, 06_vector R158, 07_matrix R189, 08_copy R221, 09_windows R271, 13_proof R409) -/

/-- Busy bits that read set in this period: z0–z3, shadow, array (07_matrix R190). -/
def Matrix.busy (m : Matrix) (clk : Nat) : BitVec 6 :=
  (List.range 6).foldl (fun b i => if clk < m.clears[i]?.getD 0 then b ||| BitVec.twoPow 6 i else b) 0

def packTags (ts : Vector Tag 64) (f : Tag → Bool) : Word :=
  (List.range 64).foldl (fun w i => if f (ts[i]?.getD Tag.reset) then w ||| BitVec.twoPow 64 i else w) 0

/-- Copy slots in use (R219, R220). -/
def CopyEngine.slots (e : CopyEngine) : Nat := e.tags.toList.foldl (fun n t => n + t.slots) 0

def Window.stat (w : Window) : Word :=
  word (w.action * 2 ^ 12 + w.rcvd.toNat * 2 ^ 8 + w.expect.toNat * 16 + w.stalling.toNat * 8 + w.absent.toNat * 4 +
    w.missed.toNat * 2 + w.isOpen.toNat)

/-- SLOTR of a plate (R271). -/
def Plate.slotr (p : Plate) : Word := word (p.lend.toNat * 2 ^ 8 + p.b * 16 + p.a)

/-- MSTAT (R189). -/
def Matrix.stat (m : Matrix) (clk : Nat) : Word :=
  let busy := m.busy clk
  -- [3:0] z3..z0, [4] shadow, [5] array
  word (m.shadow.valid.toNat * 2 ^ 24 + m.shadow.stype * 2 ^ 19 + m.active.valid.toNat * 2 ^ 17 + m.active.stype * 2 ^ 12 +
    ((m.z.toList.zip [1, 2, 4, 8]).foldl (fun n x => if x.1.f64 then n + x.2 else n) 0) * 2 ^ 8 + busy.toNat)

def Matrix.gst (m : Matrix) : Word :=
  word (m.rank * 2 ^ 6 + m.leader.toNat * 32 + m.formed.toNat * 16 + m.mask.toNat)

/-- PRPS (13_proof R409). -/
def Context.prps (x : Context) : Word := word (x.prpImp * 2 ^ 32 + x.prpOpen.toNat * 8 + x.prpState)

/-- SEQST (R120). -/
def Sequencer.stat (q : Sequencer) : Word :=
  word (q.loops.length + q.rstack.length * 2 ^ 8 + q.pending.length * 2 ^ 16)

/-- BARST (R271). -/
def Sequencer.barst (q : Sequencer) : Word :=
  match q.bar with
  | some b => word (2 ^ b.barrier + b.dom.toNat * 2 ^ 16)
  | none => 0

/-- The value of a timed control register in this tick. -/
def State.readCreg (s : State) (cell n : Nat) : Word :=
  let c := s.core cell
  let t := c.ctl
  if n == 0 then cellId s.pkg.domPos cell
  else if n == 1 then s.tick
  else if n == 4 then word t.plevel
  else if n == 5 then t.psav
  else if n == 6 then word (s.pkg.txbase.getD (quadOf cell) 0)
  else if n == 7 then c.seq.stat
  else if n == 8 then t.tvec
  else if n == 9 then word (t.lost.toNat * 2 + t.inh.toNat)
  else if n == 0xA then word t.tcause
  else if n == 0xB then t.tbpc
  else if n == 0xC then t.trpc
  else if n == 0xD then word t.tslot
  else if n == 0xE then word t.tlane
  else if n == 0xF then t.ttick
  else if n == 0x10 then t.tval
  else if 0x11 ≤ n && n ≤ 0x14 then t.tscr[n - 0x11]?.getD 0
  else if n == 0x20 then t.flagsWord
  else if n == 0x21 then t.fmodeWord
  else if n == 0x40 then t.keyA
  else if n == 0x41 then t.ctrA.setWidth 64
  else if n == 0x42 then (t.ctrA >>> 64).setWidth 64
  else if n == 0x43 then t.keyB
  else if n == 0x44 then t.ctrB.setWidth 64
  else if n == 0x45 then (t.ctrB >>> 64).setWidth 64
  else if 0x80 ≤ n && n ≤ 0x83 then c.mtx.fmt[n - 0x80]?.getD 0
  else if n == 0x84 then c.mtx.stat s.clk
  else if n == 0x85 then c.mtx.gst
  else if n == 0x86 then c.mtx.rate.setWidth 64
  else if n == 0x87 then c.mtx.cap.setWidth 64
  else if n == 0x88 then c.mtx.bucket
  else if n == 0x89 then c.mtx.resid.setWidth 64
  else if n == 0x8A then (c.mtx.resid >>> 64).setWidth 64
  else if n == 0x8B then t.keyM
  else if n == 0x8C then t.ctrM.setWidth 64
  else if n == 0x8D then (t.ctrM >>> 64).setWidth 64
  else if n == 0xC0 then wordBool c.cpy.etrap
  else if n == 0xC1 then packTags c.cpy.tags (·.done)
  else if n == 0xC2 then packTags c.cpy.tags (·.armed)
  else if n == 0xC3 then packTags c.cpy.tags (·.err)
  else if n == 0xC4 then packTags c.cpy.tags (·.cxl)
  else if n == 0xC5 then word (c.cpy.channels s.clk * 2 ^ 16 + c.cpy.slots)
  else if n == 0xC6 then c.cpy.cmask.setWidth 64
  else if n == 0xC7 then (c.cpy.cmask >>> 64).setWidth 64
  else if n == 0xC8 then c.cpy.cfmask.setWidth 64
  else if n == 0xC9 then (c.cpy.cfmask >>> 64).setWidth 64
  else if n == 0xCA then word (c.cpy.eValid.toNat * 2 ^ 25 + c.cpy.eMore.toNat * 2 ^ 24 + c.cpy.eTag * 2 ^ 16 + c.cpy.eCause)
  else if n == 0xCB then c.cpy.errPc
  else if n == 0xCC then c.cpy.errA
  else if n == 0xCD then c.cpy.drop
  else if n == 0xCE then c.cpy.zfall
  else if 0x100 ≤ n && n ≤ 0x10F then (c.window (n - 0x100)).stat
  else if 0x110 ≤ n && n ≤ 0x11F then (c.window (n - 0x110)).target
  else if n == 0x120 then c.clock.wrpc
  else if n == 0x121 then (s.plate (plateOf cell)).slotr
  else if n == 0x122 then
    word (s.pkg.indom.toNat * 2 ^ 14 + s.pkg.skew.toNat * 2 ^ 13 + s.pkg.domSize * 2 ^ 6 + s.pkg.domPos)
  else if n == 0x123 then word s.pkg.domLat
  else if n == 0x124 then c.clock.rshift
  else if n == 0x125 then c.seq.barst
  else if n == 0x126 then c.clock.siglost
  else if n == 0x127 then wordBool c.clock.prq
  else if 0x130 ≤ n && n ≤ 0x13F then (c.window (n - 0x130)).close
  else if n == 0x140 then word (s.ctx c.ctx).prpi
  else if n == 0x141 then word (s.ctx c.ctx).prpa
  else if n == 0x142 then (s.ctx c.ctx).prps
  else if n == 0x143 then c.clock.prIssued ++ c.clock.prDone
  else if n == 0x144 then word (c.clock.prErr.toNat * 2 ^ 32 + c.clock.prSfail.toNat * 2 + c.clock.prMlost.toNat)
  else 0

/-- Replace one half of a stream counter. -/
def setHalf (x : BitVec 128) (high : Bool) (v : Word) : BitVec 128 :=
  if high then v ++ x.setWidth 64 else (x >>> 64).setWidth 64 ++ v

def flagsAt (v : Word) (lo : Nat) : Flags := v.extractLsb' lo 6

/-- Clear bits of a tag vector (CTERR and CTCXL are W1C, 08_copy R221, R244). -/
def clearTags (ts : Vector Tag 64) (mask : Word) (err cxl : Bool) : Vector Tag 64 :=
  (List.range 64).foldl (fun (ts : Vector Tag 64) i =>
    if mask.getLsbD i then
      let g := ts[i]?.getD Tag.reset
      ts.setIfInBounds i { g with err := g.err && !err, cxl := g.cxl && !cxl }
    else ts) ts

/-- An MTC lands: RW fields are written, W1C bits cleared, RO fields kept (R120, R121). -/
def Core.writeCreg (c : Core) (n : Nat) (v : Word) : Core :=
  let t := c.ctl
  let m := c.mtx
  let e := c.cpy
  let k := c.clock
  if n == 8 then { c with ctl := { t with tvec := v &&& ~~~63 } }
  else if n == 9 then { c with ctl := { t with lost := v.getLsbD 1 } }
  else if n == 0xC then { c with ctl := { t with trpc := v &&& ~~~63 } }
  else if 0x11 ≤ n && n ≤ 0x14 then { c with ctl := { t with tscr := t.tscr.setIfInBounds (n - 0x11) v } }
  else if n == 0x20 then { c with ctl := { t with va := flagsAt v 0, vb := flagsAt v 8, mx := flagsAt v 16 } }
  else if n == 0x21 then
    { c with ctl := { t with vae := flagsAt v 0, vbe := flagsAt v 8, mxe := flagsAt v 16, rnd := (v.extractLsb' 24 3).toNat } }
  else if n == 0x40 then { c with ctl := { t with keyA := v } }
  else if n == 0x41 then { c with ctl := { t with ctrA := setHalf t.ctrA false v } }
  else if n == 0x42 then { c with ctl := { t with ctrA := setHalf t.ctrA true v } }
  else if n == 0x43 then { c with ctl := { t with keyB := v } }
  else if n == 0x44 then { c with ctl := { t with ctrB := setHalf t.ctrB false v } }
  else if n == 0x45 then { c with ctl := { t with ctrB := setHalf t.ctrB true v } }
  else if 0x80 ≤ n && n ≤ 0x83 then { c with mtx := { m with fmt := m.fmt.setIfInBounds (n - 0x80) v } }
  else if n == 0x89 then { c with mtx := { m with resid := m.resid &&& ~~~(v.setWidth 128) } }
  else if n == 0x8A then { c with mtx := { m with resid := m.resid &&& ~~~(v.setWidth 128 <<< 64) } }
  else if n == 0x8B then { c with ctl := { t with keyM := v } }
  else if n == 0x8C then { c with ctl := { t with ctrM := setHalf t.ctrM false v } }
  else if n == 0x8D then { c with ctl := { t with ctrM := setHalf t.ctrM true v } }
  else if n == 0xC0 then { c with cpy := { e with etrap := v.getLsbD 0 } }
  else if n == 0xC3 then { c with cpy := { e with tags := clearTags e.tags v true false } }
  else if n == 0xC4 then { c with cpy := { e with tags := clearTags e.tags v false true } }
  else if n == 0xC6 then { c with cpy := { e with cmask := (e.cmask >>> 64).setWidth 16 ++ v } }
  else if n == 0xC7 then { c with cpy := { e with cmask := v.setWidth 16 ++ e.cmask.setWidth 64 } }
  else if n == 0xC8 then { c with cpy := { e with cfmask := e.cfmask &&& ~~~(v.setWidth 80) } }
  else if n == 0xC9 then { c with cpy := { e with cfmask := e.cfmask &&& ~~~(v.setWidth 80 <<< 64) } }
  else if n == 0xCA then
    let e1 := { e with eValid := v.getLsbD 25, eMore := v.getLsbD 24, eTag := (v.extractLsb' 16 6).toNat,
                       eCause := (v.extractLsb' 0 9).toNat }
    { c with cpy := if v == 0 then { e1 with errPc := 0, errA := 0 } else e1 }
  else if n == 0xCD then { c with cpy := { e with drop := v } }
  else if n == 0xCE then { c with cpy := { e with zfall := v } }
  else if 0x110 ≤ n && n ≤ 0x11F then
    let w := c.window (n - 0x110)
    { c with clock := { k with windows := k.windows.setIfInBounds (n - 0x110) { w with target := v &&& ~~~63 } } }
  else if n == 0x126 then { c with clock := { k with siglost := v } }
  else if n == 0x144 then
    { c with clock := { k with prErr := if v.getLsbD 0 then 0 else k.prErr, prSfail := k.prSfail && !v.getLsbD 1,
                               prMlost := k.prMlost && !v.getLsbD 0 } }
  else c

end Sys2Proof.Machine
end

