-- ==== Sys2Proof/Machine/Network.lean ====
section
/-! DEFINITION. The packet network (14_fabric R420, R421, R471) and the remote stores it posts (04_ordering R101 to R103). -/

namespace Sys2Proof.Machine

open Sys2Proof

/-- The port die's place in the numbering of routers; a cell's router is plate × 80 + y × 10 + x. -/
def portDie : Nat := 320
def routerOf (cell : Nat) : Nat := plateOf cell * 80 + meshY cell * 10 + meshX cell
def routerX (r : Nat) : Nat := r % 10
def routerY (r : Nat) : Nat := r % 80 / 10
/-- Router of slice k of a plate (R471). -/
def sliceRouter (plate k : Nat) : Nat := plate * 80 + (1 + 5 * (k / 8)) * 10 + (1 + k % 8)
def meshHops (a b : Nat) : Nat := absDiff (routerX a) (routerX b) + absDiff (routerY a) (routerY b)

/-- The bridge router of `r`'s plate nearer to `r`: (0, 4), or (9, 3) when strictly nearer (R471). -/
def bridgeOf (r : Nat) : Nat :=
  let base := r / 80 * 80
  if meshHops r (base + 39) < meshHops r (base + 40) then base + 39 else base + 40

/-- The bridge router a packet heads for when it leaves its plate. A packet from the port die enters by the one nearer its destination. -/
def viaOf (src dest : Nat) : Option Nat :=
  if src == portDie then (if dest == portDie then none else some (bridgeOf dest))
  else if dest == portDie || src / 80 != dest / 80 then some (bridgeOf src)
  else none

/-- One step inside a plate, x first and then y (R420). -/
def meshStep (here dest : Nat) : Nat :=
  if routerX here < routerX dest then here + 1
  else if routerX dest < routerX here then here - 1
  else if routerY here < routerY dest then here + 10
  else if routerY dest < routerY here then here - 10
  else here

/-- The next router of a packet. -/
def Packet.step (p : Packet) : Packet :=
  match p.via with
  | some b =>
    if p.here == portDie then { p with here := b, via := none }
    else if p.here == b then
      if p.dest == portDie then { p with here := portDie, via := none }
      else { p with here := p.dest / 80 * 80 + b % 80, via := none }
    else { p with here := meshStep p.here b }
  | none => { p with here := meshStep p.here p.dest }

/-- Send a packet: its injection takes an open time (log entry 5), never before an earlier packet of its source, destination and class. -/
def State.send (s : State) (src dest cls phase key : Nat) (item : Item) : State :=
  let d := s.drawDelay
  let k := (src * 512 + dest) * 8 + cls
  let due := max (s.clk + d.1) (s.lastSent.getD k 0)
  let id := s.nextId
  let p : Packet := { source := src, here := src, input := 512, since := due, via := viaOf src dest, dest, cls, phase, key, item }
  ({ d.2 with packets := s.packets.set id p, lastSent := s.lastSent.set k due, nextId := id + 1 }).at' due phNet 0 (.op (.packetForward id))

/-- The router that a packet goes to next; 1023 where it leaves the network. -/
def Packet.next (p : Packet) : Nat := if p.here == p.dest then 1023 else p.step.here

/-- The packets that wait for a router's output. -/
def State.atOutput (s : State) (here next : Nat) : List (Nat × Packet) :=
  s.packets.filter fun q => q.2.here == here && q.2.next == next && decide (q.2.since ≤ s.clk)

def State.outputOf (s : State) (here next : Nat) : Option RouterOutput := s.outputs.get? (1024 * here + next)

/-- Rank of a class at an output: 4, 1, 0, 3, 2 (R422). -/
def classRank (cls : Nat) : Nat :=
  match cls with
  | 4 => 0
  | 1 => 1
  | 0 => 2
  | 3 => 3
  | _ => 4

/-- Rank of a packet at an output: its class, then round-robin among the inputs after the one served last in that class (R422). -/
def Packet.turn (p : Packet) (o : Option RouterOutput) : Nat :=
  classRank p.cls * 1024 + (p.input + 1023 - ((o.map fun x => x.turns.getD p.cls 1023).getD 1023)) % 1024

/-- The least of some packets by a rank, then by age. -/
def firstPacket (key : Packet → Nat) : List (Nat × Packet) → Option (Nat × Packet)
  | [] => none
  | p :: ps => match firstPacket key ps with
    | none => some p
    | some q =>
      if key q.2 < key p.2 || (key q.2 == key p.2 && (q.2.since < p.2.since || (q.2.since == p.2.since && q.1 < p.1))) then some q else some p

/-- The packet that an output serves: the oldest that has waited 256 ticks, else by class and turn (R422). -/
def State.served (s : State) (here next : Nat) : Option (Nat × Packet) :=
  let ps := s.atOutput here next
  match firstPacket (fun _ => 0) (ps.filter fun p => decide (p.2.since + 256 ≤ s.clk)) with
  | some p => some p
  | none => firstPacket (fun p => p.turn (s.outputOf here next)) ps

/-- PACKET_FORWARD (R420 to R422): a packet waits until its router's output serves it, goes one hop, and at its destination its arrival
runs. An output serves one packet a period (log entry 5). -/
def execPacketForward (packet : Nat) (s : State) : Result :=
  match s.packets.get? packet with
  | none => .next s
  | some p =>
    let o := s.outputOf p.here p.next
    let free : Bool := o.all fun x => x.servedAt != s.clk
    let mine : Bool := (s.served p.here p.next).any fun q => q.1 == packet
    if !(free && mine) then .next (s.after 1 phNet 0 (.op (.packetForward packet)))
    else
      let turns : Table Nat := ((o.elim [] fun x => x.turns) : Table Nat).set p.cls p.input
      let s1 : State := { s with outputs := s.outputs.set (1024 * p.here + p.next) { servedAt := s.clk, turns } }
      if p.here == p.dest then .next ({ s1 with packets := s1.packets.erase packet }.after 0 p.phase p.key p.item)
      else
        let q : Packet := { p.step with input := p.here, since := s.clk + 1 }
        .next ({ s1 with packets := s1.packets.set packet q }.after 1 phNet 0 (.op (.packetForward packet)))

/-! ## Remote stores -/

/-- The class of a destination (R101). -/
def remoteClass (src dst : Nat) : Nat :=
  if clusterOf src == clusterOf dst then 1 else if plateOf src == plateOf dst then 2 else 3

/-- Post a remote store: its class count rises at issue (R141). -/
def State.postRemote (s : State) (src dst offset len data : Nat) : State :=
  let cls := remoteClass src dst
  let id := s.nextId
  let r : RemoteStore := { source := src, cell := dst, offset, len, data, cls, arrived := false, queued := false,
                           left := List.range (cdiv len 64), turn := none, refused := false, counted := true }
  let s1 := { s with remotes := s.remotes.set id r, nextId := id + 1 }.updClock src fun k =>
    { k with counts := k.counts.setIfInBounds (cls - 1) (k.counts[cls - 1]?.getD 0 + 1) }
  s1.send (routerOf src) (routerOf dst) 2 phNet 0 (.op (.remoteStoreArrival id))

/-- REMOTE_STORE_ACK (R101, R103): the count falls; a refusal sets the class's bit and, when it was clear, its first address. A store of
an earlier program of the core counts for nothing. -/
def execRemoteStoreAck (request : Nat) (s : State) : Result :=
  match s.remotes.get? request with
  | none => .next s
  | some r =>
    let i := r.cls - 1
    let s1 : State := { s with remotes := s.remotes.erase request }
    if !r.counted then .next s1
    else .next (s1.updClock r.source fun k =>
      let k1 := { k with counts := k.counts.setIfInBounds i (k.counts[i]?.getD 0 - 1) }
      if !r.refused then k1
      else { k1 with refused := k.refused.setIfInBounds i true
                     refusedAt := if k.refused[i]?.getD false then k.refusedAt
                       else k.refusedAt.setIfInBounds i (word (r.cell * 2 ^ 22 + r.offset)) })

/-- The refusal trap of a class (R103): its first refused address, if its bit is set. -/
def ClockEngine.refusal (k : ClockEngine) (cls : Nat) : Option Word :=
  if cls != 0 && k.refused[cls - 1]?.getD false then some (k.refusedAt[cls - 1]?.getD 0) else none

/-- Taking the refusal trap clears the bit (R103). -/
def State.clearRefusal (s : State) (cell cls : Nat) : State :=
  s.updClock cell fun k => { k with refused := k.refused.setIfInBounds (cls - 1) false, refusedAt := k.refusedAt.setIfInBounds (cls - 1) 0 }

/-- The lowest class of a list whose bit is set, with its address. -/
def ClockEngine.firstRefusal (k : ClockEngine) : List Nat → Option (Nat × Word)
  | [] => none
  | c :: cs => match k.refusal c with
    | some a => some (c, a)
    | none => k.firstRefusal cs

end Sys2Proof.Machine
end

