-- ==== Sys2Proof/Machine/Scalar.lean ====
section
/-! DEFINITION. The scalar slot's data instructions (05_sequencer R132, R133) and the crossings (03_encoding R65). -/

namespace Sys2Proof.Machine

open Sys2Proof

/-- A scalar result: computed from the core at offset 0, landing at the given offset (R118, R132). -/
def State.scalar (s : State) (g : Gate) (offset : Nat) (land : Core → Landing) : Result :=
  s.when g fun s => .next (s.fly offset [land s.cur])

/-- The classed two-source form (R132): func[9] for d, func[8] for a, func[7] for b. -/
def State.classed (s : State) (g : Gate) (f : FormA) (op : Word → Word → Word) : Result :=
  s.scalar g 1 fun c => landCls (fbit f.func 9) f.d (op (c.cls (fbit f.func 8) f.a) (c.cls (fbit f.func 7) f.b))

/-- A two-source form over s registers. -/
def State.binary (s : State) (g : Gate) (f : FormA) (offset : Nat) (op : Word → Word → Word) : Result :=
  s.scalar g offset fun c => .s f.d.toNat (op (c.s' f.a.toNat) (c.s' f.b.toNat))

def execAdd (g : Gate) (f : FormA) (s : State) : Result := s.classed g f (· + ·)
def execSub (g : Gate) (f : FormA) (s : State) : Result := s.classed g f (· - ·)
def execAnd (g : Gate) (f : FormA) (s : State) : Result := s.classed g f (· &&& ·)
def execOr (g : Gate) (f : FormA) (s : State) : Result := s.classed g f (· ||| ·)
def execXor (g : Gate) (f : FormA) (s : State) : Result := s.classed g f (· ^^^ ·)
def execShl (g : Gate) (f : FormA) (s : State) : Result := s.classed g f fun a b => a <<< (b.toNat % 64)
def execShr (g : Gate) (f : FormA) (s : State) : Result := s.classed g f fun a b => a >>> (b.toNat % 64)
def execSar (g : Gate) (f : FormA) (s : State) : Result := s.classed g f fun a b => a.sshiftRight (b.toNat % 64)

def execAddi (g : Gate) (f : FormB) (s : State) : Result :=
  s.scalar g 1 fun c => .s f.d.toNat (c.s' f.a.toNat + f.imm.signExtend 64)

/-- Bits [127:64] of a signed product (R132). -/
def mulHigh (a b : Word) : Word := BitVec.ofInt 64 (a.toInt * b.toInt / 2 ^ 64)
/-- Bits [127:64] of an unsigned product. -/
def mulHighN (a b : Word) : Word := word (a.toNat * b.toNat / 2 ^ 64)

def execMul (g : Gate) (f : FormA) (s : State) : Result := s.binary g f 3 (· * ·)
def execMulh (g : Gate) (f : FormA) (s : State) : Result := s.binary g f 3 mulHigh
def execMulhn (g : Gate) (f : FormA) (s : State) : Result := s.binary g f 3 mulHighN

/-- A division by zero traps at issue with TVAL s[a] (R133). -/
def State.divide (s : State) (g : Gate) (f : FormA) (op : Word → Word → Word) : Result :=
  s.when g fun s =>
    if s.cur.s' f.b.toNat == 0 then s.issueTrap 16 0 (s.cur.s' f.a.toNat)
    else .next (s.fly 18 [.s f.d.toNat (op (s.cur.s' f.a.toNat) (s.cur.s' f.b.toNat))])

/-- Truncated signed quotient; −2^63 / −1 wraps to −2^63 (R132). -/
def quot (a b : Word) : Word := BitVec.ofInt 64 (a.toInt.tdiv b.toInt)
def rem (a b : Word) : Word := BitVec.ofInt 64 (a.toInt.tmod b.toInt)

def execDiv (g : Gate) (f : FormA) (s : State) : Result := s.divide g f quot
def execDivn (g : Gate) (f : FormA) (s : State) : Result := s.divide g f (· / ·)
def execRem (g : Gate) (f : FormA) (s : State) : Result := s.divide g f rem
def execRemn (g : Gate) (f : FormA) (s : State) : Result := s.divide g f (· % ·)

def execMin (g : Gate) (f : FormA) (s : State) : Result := s.binary g f 1 fun a b => if a.toInt ≤ b.toInt then a else b
def execMax (g : Gate) (f : FormA) (s : State) : Result := s.binary g f 1 fun a b => if a.toInt ≤ b.toInt then b else a
def execMinn (g : Gate) (f : FormA) (s : State) : Result := s.binary g f 1 fun a b => if a.toNat ≤ b.toNat then a else b
def execMaxn (g : Gate) (f : FormA) (s : State) : Result := s.binary g f 1 fun a b => if a.toNat ≤ b.toNat then b else a

/-- Leading zeros of a word, 0 .. 64. -/
def leadingZeros (a : Word) : Word := if a == 0 then 64 else word (63 - Nat.log2 a.toNat)
/-- Number of one bits. -/
def onesIn : Nat → Nat → Nat
  | 0, _ => 0
  | n + 1, x => x % 2 + onesIn n (x / 2)
def popCount (a : Word) : Word := word (onesIn 64 a.toNat)

def execClz (g : Gate) (f : FormA) (s : State) : Result := s.scalar g 1 fun c => .s f.d.toNat (leadingZeros (c.s' f.a.toNat))
def execPopc (g : Gate) (f : FormA) (s : State) : Result := s.scalar g 1 fun c => .s f.d.toNat (popCount (c.s' f.a.toNat))

/-- LI and LIH: field a chooses the destination's class (R132). -/
def execLi (g : Gate) (f : FormB) (s : State) : Result := s.scalar g 1 fun _ => landCls (f.a == 1) f.d (f.imm.signExtend 64)
def execLih (g : Gate) (f : FormB) (s : State) : Result :=
  s.scalar g 1 fun c => landCls (f.a == 1) f.d (f.imm.setWidth 32 ++ (c.cls (f.a == 1) f.d).setWidth 32)

def execSel (g : Gate) (f : FormA) (s : State) : Result :=
  s.scalar g 1 fun c => landCls (fbit f.func 9) f.d
    (if c.p' f.c.toNat then c.cls (fbit f.func 8) f.a else c.cls (fbit f.func 7) f.b)

/-- CMP's condition (R133). -/
def compare (cc : Nat) (a b : Word) : Bool :=
  match cc with
  | 0 => a == b
  | 1 => a != b
  | 2 => decide (a.toInt < b.toInt)
  | 3 => decide (b.toInt ≤ a.toInt)
  | 4 => decide (a.toNat < b.toNat)
  | 5 => decide (b.toNat ≤ a.toNat)
  | _ => a &&& b != 0

def execCmp (g : Gate) (f : FormA) (s : State) : Result :=
  s.scalar g 1 fun c => .p f.d.toNat (compare (f.func.toNat % 8) (c.cls (fbit f.func 8) f.a) (c.cls (fbit f.func 7) f.b))

def execPlog (g : Gate) (f : FormA) (s : State) : Result :=
  s.scalar g 1 fun c => .p f.d.toNat (fbit f.func (2 * (c.p' f.a.toNat).toNat + (c.p' f.b.toNat).toNat))

def execMfc (g : Gate) (f : FormA) (s : State) : Result :=
  s.when g fun s => .next (s.fly 1 [.s f.d.toNat (s.readCreg s.curT.cell f.func.toNat)])

/-- A write of 5 .. 7 into FMODE.rnd traps at issue with TVAL 348 (R121). -/
def mtcFault (c : Core) (f : FormA) : Bool :=
  f.func == 0x21 && decide (4 < ((c.s' f.a.toNat).extractLsb' 24 3).toNat)

def execMtc (g : Gate) (f : FormA) (s : State) : Result :=
  s.when g fun s =>
    if mtcFault s.cur f then s.issueTrap 2 0 348 else .next (s.fly 1 [.creg f.func.toNat (s.cur.s' f.a.toNat)])

/-- Copies of a 64-bit value in every lane. -/
def repeat64 (v : Word) : VReg := BitVec.ofNat 2048 (v.toNat * ((2 ^ 2048 - 1) / (2 ^ 64 - 1)))

/-- The xin crossing (R65): landing at offset 3. -/
def execXin (source destination : BitVec 6) (s : State) : Result :=
  let d := destination.toNat
  if d < 56 then .next (s.fly 3 [.v d (repeat64 (s.cur.s' source.toNat)) (BitVec.allOnes 2048)])
  else .next (s.fly 3 [.pv (8 + (d - 56)) (if s.cur.p' source.toNat then BitVec.allOnes 256 else 0) (BitVec.allOnes 256)])

/-- The xout crossing (R65): landing at offset 4. -/
def execXout (source : BitVec 6) (lane : BitVec 5) (destination : BitVec 6) (s : State) : Result :=
  let n := source.toNat
  if n < 56 then .next (s.fly 4 [.s destination.toNat ((s.cur.v' n).extractLsb' (64 * lane.toNat) 64)])
  else .next (s.fly 4 [.p destination.toNat ((s.cur.pv' (8 + (n - 56))).getLsbD (8 * lane.toNat))])

end Sys2Proof.Machine
end

