-- ==== Sys2Proof/Machine/Vector.lean ====
section
/-! DEFINITION. The vector units (06_vector R152 to R182). -/

namespace Sys2Proof.Machine

open Sys2Proof

/-- Lane `i` of width `w` bytes (R153). -/
def lane (x : VReg) (w i : Nat) : Nat := x.toNat / 2 ^ (8 * w * i) % 2 ^ (8 * w)

/-- A lane's value in its place. -/
def placed (w i v : Nat) : Nat := v % 2 ^ (8 * w) * 2 ^ (8 * w * i)

/-- The bits of lane `i`. -/
def laneBits (w i : Nat) : Nat := placed w i (2 ^ (8 * w) - 1)

/-- Sum of placed lanes; the lanes listed are distinct. -/
def packLanes (w : Nat) (ls : List (Nat × Nat)) : VReg :=
  BitVec.ofNat 2048 (ls.foldl (fun x l => x + placed w l.1 l.2) 0)
def maskLanes (w : Nat) (ls : List Nat) : VReg := BitVec.ofNat 2048 (ls.foldl (fun x i => x + laneBits w i) 0)

/-- The bits of a predicate that belong to lane `i` (R164). -/
def predBits (w i : Nat) : Nat := (2 ^ w - 1) * 2 ^ (w * i)

/-- The enabled lanes under the guard (R154). -/
def enabledLanes (guard : Mask) (w : Nat) : List Nat := (List.range (256 / w)).filter fun i => guard.getLsbD (w * i)

/-- The unit's flag group: A in slot 3, B in slot 2. -/
def unitGroup (slot : Nat) : FlagGroup := if slot == 3 then .va else .vb

/-- Landing offset: a latch destination lands one tick earlier (R155). -/
def vOffset (offset d : Nat) : Nat := if d < 56 then offset else offset - 1

/-- Run a vector instruction when its iteration condition holds; its guard selects lanes (R67, R154). -/
def State.vector (s : State) (g : Gate) (k : State → Core → Mask → State) : Result :=
  if s.iterates g then .next (k s s.cur (s.cur.pv' g.guard.toNat)) else .next s

/-- The flags that lanes raised, lowest lane first. -/
def laneFlags (outs : List (Nat × Nat × Flags)) : List (Nat × Flags) :=
  (outs.map fun o => (o.1, o.2.2)).filter fun f => f.2 != 0

/-- A lane-wise result: each enabled lane computed by `op`, other lanes kept (R154, R156). -/
def State.lanewise (s : State) (g : Gate) (d : BitVec 6) (w offset opcode : Nat) (op : Core → Nat → Nat × Flags) : Result :=
  s.vector g fun s c en =>
    let outs := (enabledLanes en w).map fun i => (i, op c i)
    s.flight (vOffset offset d.toNat) opcode
      [.v d.toNat (packLanes w (outs.map fun o => (o.1, o.2.1))) (maskLanes w (outs.map (·.1)))]
      (unitGroup s.curT.slot) (laneFlags outs) none

/-- A lane-wise predicate result (R164). -/
def State.predwise (s : State) (g : Gate) (d : BitVec 6) (w offset opcode : Nat) (op : Core → Nat → Bool × Flags) : Result :=
  s.vector g fun s c en =>
    let outs := (enabledLanes en w).map fun i => (i, op c i)
    let x := outs.foldl (fun x o => if o.2.1 then x + predBits w o.1 else x) 0
    let bits := outs.foldl (fun x o => x + predBits w o.1) 0
    s.flight offset opcode [.pv d.toNat (BitVec.ofNat 256 x) (BitVec.ofNat 256 bits)] (unitGroup s.curT.slot)
      ((outs.map fun o => (o.1, o.2.2)).filter fun f => f.2 != 0) none

/-! ## Integer lanes (R161) -/

/-- A two-source integer instruction. -/
def State.vint (s : State) (g : Gate) (f : FormA) (offset opcode : Nat) (op : Nat → Int → Int → Int × Flags) : Result :=
  let t := f.type.toNat
  let w := typeBytes t
  s.lanewise g f.d w offset opcode fun c i =>
    let r := op t (intOf t (lane (c.v' f.a.toNat) w i)) (intOf t (lane (c.v' f.b.toNat) w i))
    (wrapBits (8 * w) r.1, r.2)

def noFlag (n : Int) : Int × Flags := (n, 0)
/-- Clamp to the type's range, raising sa (R34). -/
def saturate (t : Nat) (n : Int) : Int × Flags :=
  (clampInt (minInt t) (maxInt t) n, if n < minInt t || maxInt t < n then fSa else 0)

def execVadd (g : Gate) (f : FormA) (s : State) : Result := s.vint g f 2 0x01 fun _ a b => noFlag (a + b)
def execVsub (g : Gate) (f : FormA) (s : State) : Result := s.vint g f 2 0x02 fun _ a b => noFlag (a - b)
def execVmul (g : Gate) (f : FormA) (s : State) : Result := s.vint g f 4 0x03 fun _ a b => noFlag (a * b)
def execVmulh (g : Gate) (f : FormA) (s : State) : Result :=
  s.vint g f 4 0x04 fun t a b => noFlag (a * b / 2 ^ typeBits t)
def execVmin (g : Gate) (f : FormA) (s : State) : Result := s.vint g f 2 0x05 fun _ a b => noFlag (if a ≤ b then a else b)
def execVmax (g : Gate) (f : FormA) (s : State) : Result := s.vint g f 2 0x06 fun _ a b => noFlag (if a ≤ b then b else a)
def execVadds (g : Gate) (f : FormA) (s : State) : Result := s.vint g f 2 0x10 fun t a b => saturate t (a + b)
def execVsubs (g : Gate) (f : FormA) (s : State) : Result := s.vint g f 2 0x11 fun t a b => saturate t (a - b)

/-- One-source lanes of the type's width. -/
def State.vlane1 (s : State) (g : Gate) (f : FormA) (offset opcode : Nat) (op : Nat → Nat → Nat × Flags) : Result :=
  let t := f.type.toNat
  let w := typeBytes t
  s.lanewise g f.d w offset opcode fun c i => op t (lane (c.v' f.a.toNat) w i)

/-- Two-source lanes as patterns. -/
def State.vlane2 (s : State) (g : Gate) (f : FormA) (offset opcode : Nat) (op : Nat → Nat → Nat → Nat × Flags) : Result :=
  let t := f.type.toNat
  let w := typeBytes t
  s.lanewise g f.d w offset opcode fun c i => op t (lane (c.v' f.a.toNat) w i) (lane (c.v' f.b.toNat) w i)

/-- VABS and VNEG (R161): MinInt and, for VNEG.sat, non-zero n lanes saturate. -/
def vabsLane (sat : Bool) (t x : Nat) : Nat × Flags :=
  let n := intOf t x
  if n < 0 then (if sat && n == minInt t then (wrapBits (typeBits t) (maxInt t), fSa) else (wrapBits (typeBits t) (-n), 0)) else (x, 0)
def vnegLane (sat : Bool) (t x : Nat) : Nat × Flags :=
  let r := if sat then saturate t (-(intOf t x)) else noFlag (-(intOf t x))
  (wrapBits (typeBits t) r.1, r.2)

def execVabs (g : Gate) (f : FormA) (s : State) : Result := s.vlane1 g f 2 0x07 (vabsLane (f.sat == 1))
def execVneg (g : Gate) (f : FormA) (s : State) : Result := s.vlane1 g f 2 0x08 (vnegLane (f.sat == 1))
def execVand (g : Gate) (f : FormA) (s : State) : Result := s.vlane2 g f 2 0x09 fun _ a b => (a &&& b, 0)
def execVor (g : Gate) (f : FormA) (s : State) : Result := s.vlane2 g f 2 0x0A fun _ a b => (a ||| b, 0)
def execVxor (g : Gate) (f : FormA) (s : State) : Result := s.vlane2 g f 2 0x0B fun _ a b => (a ^^^ b, 0)
def execVnot (g : Gate) (f : FormA) (s : State) : Result := s.vlane1 g f 2 0x0C fun t a => (2 ^ typeBits t - 1 - a, 0)

/-- Shifts by an unsigned count (R161): left and logical right give 0 from the width on, arithmetic right sign copies. -/
def shlLane (t a n : Nat) : Nat := if typeBits t ≤ n then 0 else a * 2 ^ n % 2 ^ typeBits t
def shrLane (t a n : Nat) : Nat := if typeBits t ≤ n then 0 else a / 2 ^ n
def sarLane (t a n : Nat) : Nat :=
  let w := typeBits t
  let x : Int := if 2 ^ (w - 1) ≤ a then (a : Int) - 2 ^ w else a
  wrapBits w (x / 2 ^ min n w)

/-- The count of the immediate form, func[6:0]. -/
def shiftImm (f : FormA) : Nat := f.func.toNat % 128

def execVshl (g : Gate) (f : FormA) (s : State) : Result := s.vlane2 g f 2 0x0D fun t a b => (shlLane t a b, 0)
def execVshr (g : Gate) (f : FormA) (s : State) : Result := s.vlane2 g f 2 0x0E fun t a b => (shrLane t a b, 0)
def execVsar (g : Gate) (f : FormA) (s : State) : Result := s.vlane2 g f 2 0x0F fun t a b => (sarLane t a b, 0)
def execVshlImm (g : Gate) (f : FormA) (s : State) : Result := s.vlane1 g f 2 0x0D fun t a => (shlLane t a (shiftImm f), 0)
def execVshrImm (g : Gate) (f : FormA) (s : State) : Result := s.vlane1 g f 2 0x0E fun t a => (shrLane t a (shiftImm f), 0)
def execVsarImm (g : Gate) (f : FormA) (s : State) : Result := s.vlane1 g f 2 0x0F fun t a => (sarLane t a (shiftImm f), 0)

/-! ## Floating-point lanes (R162, R163) -/

/-- A rounding two- or three-source instruction; `op` gets the values and the resolved rounding. -/
def State.vfloat (s : State) (g : Gate) (f : FormA) (offset opcode : Nat) (op : Val → Val → Val → Nat → Val × Flags) : Result :=
  let t := f.type.toNat
  let w := typeBytes t
  s.lanewise g f.d w offset opcode fun c i =>
    let rnd := c.ctl.rounding f.rnd.toNat
    let v := op (fpToVal t (lane (c.v' f.a.toNat) w i)) (fpToVal t (lane (c.v' f.b.toNat) w i))
      (fpToVal t (lane (c.v' f.c.toNat) w i)) rnd
    let r := roundToFp v.1 t rnd (f.sat == 1) 0
    (r.1, r.2 ||| v.2)

def execVfadd (g : Gate) (f : FormA) (s : State) : Result := s.vfloat g f 4 0x12 fun a b _ r => (addVal a b r, 0)
def execVfsub (g : Gate) (f : FormA) (s : State) : Result := s.vfloat g f 4 0x13 fun a b _ r => (subVal a b r, 0)
def execVfmul (g : Gate) (f : FormA) (s : State) : Result := s.vfloat g f 4 0x14 fun a b _ _ => (mulVal a b, 0)
def execVfma (g : Gate) (f : FormA) (s : State) : Result := s.vfloat g f 4 0x15 fun a b c r => (fmaVal a b c r, 0)
def execVfms (g : Gate) (f : FormA) (s : State) : Result := s.vfloat g f 4 0x16 fun a b c r => (fmaVal a b c.negate r, 0)
/-- Landing offset of the divide class (R155). -/
def divOffset (f : FormA) : Nat := if f.type == 11 then 20 else 12
def execVfdiv (g : Gate) (f : FormA) (s : State) : Result := s.vfloat g f (divOffset f) 0x17 fun a b _ _ => divVal a b
def execVfsqrt (g : Gate) (f : FormA) (s : State) : Result := s.vfloat g f (divOffset f) 0x18 fun a _ _ _ => (sqrtVal a, 0)
def execVfmin (g : Gate) (f : FormA) (s : State) : Result := s.vlane2 g f 4 0x19 fun t a b => minMaxBits t false (fbit f.func 0) a b
def execVfmax (g : Gate) (f : FormA) (s : State) : Result := s.vlane2 g f 4 0x1A fun t a b => minMaxBits t true (fbit f.func 0) a b
def execVfabs (g : Gate) (f : FormA) (s : State) : Result := s.vlane1 g f 2 0x1B fun t a => (a % 2 ^ (typeBits t - 1), 0)
def execVfneg (g : Gate) (f : FormA) (s : State) : Result :=
  s.vlane1 g f 2 0x1C fun t a => ((a + 2 ^ (typeBits t - 1)) % 2 ^ typeBits t, 0)

/-- The class mask of R163. -/
def classMask (t x : Nat) : Nat :=
  let neg := x / 2 ^ (typeBits t - 1) % 2 == 1
  let normal := 2 ^ fracBits t ≤ x % 2 ^ (typeBits t - 1)
  match fpToVal t x with
  | .inf s => if s then 2 ^ 0 else 2 ^ 7
  | .zero s => if s then 2 ^ 3 else 2 ^ 4
  | .nan s => if s then 2 ^ 8 else 2 ^ 9
  | .fin _ => if neg then (if normal then 2 ^ 1 else 2 ^ 2) else if normal then 2 ^ 6 else 2 ^ 5

def execVfcls (g : Gate) (f : FormA) (s : State) : Result := s.vlane1 g f 2 0x1D fun t a => (classMask t a, 0)

/-! ## Comparisons and selection (R164 to R167) -/

/-- The six ordered conditions eq, ne, lt, le, gt, ge. -/
def condOf (cc : Nat) (o : Ordering) : Bool :=
  match cc, o with
  | 0, .eq => true
  | 1, .lt | 1, .gt => true
  | 2, .lt => true
  | 3, .lt | 3, .eq => true
  | 4, .gt => true
  | 5, .gt | 5, .eq => true
  | _, _ => false

def intOrd (a b : Int) : Ordering := if a < b then .lt else if a == b then .eq else .gt

/-- VFCMP's conditions and flags (R164); the barrel FCMP uses the same. -/
def fpCompare (cc t x y : Nat) : Bool × Flags :=
  let a := fpToVal t x
  let b := fpToVal t y
  let sig := a.signalling || b.signalling
  if a.isNan || b.isNan then
    let quiet := cc == 0 || cc == 1 || cc == 6 || cc == 7
    (cc == 1 || cc == 6, if sig || !quiet then fNv else 0)
  else (if cc == 6 then false else if cc == 7 then true else condOf cc (ordVal a b), 0)

def execVcmp (g : Gate) (f : FormA) (s : State) : Result :=
  let t := f.type.toNat
  let w := typeBytes t
  s.predwise g f.d w 2 0x1E fun c i =>
    (condOf (f.func.toNat % 8) (intOrd (intOf t (lane (c.v' f.a.toNat) w i)) (intOf t (lane (c.v' f.b.toNat) w i))), 0)

def execVfcmp (g : Gate) (f : FormA) (s : State) : Result :=
  let t := f.type.toNat
  let w := typeBytes t
  s.predwise g f.d w 4 0x1F fun c i => fpCompare (f.func.toNat % 8) t (lane (c.v' f.a.toNat) w i) (lane (c.v' f.b.toNat) w i)

def execVtest (g : Gate) (f : FormA) (s : State) : Result :=
  let w := typeBytes f.type.toNat
  s.predwise g f.d w 2 0x22 fun c i => (lane (c.v' f.a.toNat) w i &&& lane (c.v' f.b.toNat) w i != 0, 0)

def execVsel (g : Gate) (f : FormA) (s : State) : Result :=
  let w := typeBytes f.type.toNat
  s.lanewise g f.d w 2 0x20 fun c i =>
    (if (c.pv' f.c.toNat).getLsbD (w * i) then lane (c.v' f.a.toNat) w i else lane (c.v' f.b.toNat) w i, 0)

/-- Order of keys in the pair order (R166): NaNs lowest and equal, zeros equal, integers by type. -/
def keyOrd (t x y : Nat) : Ordering :=
  if isIntType t then intOrd (intOf t x) (intOf t y)
  else
    let a := fpToVal t x
    let b := fpToVal t y
    match a.isNan, b.isNan with
    | true, true => .eq
    | true, false => .lt
    | false, true => .gt
    | false, false => ordVal a b

/-- The key order of argmin: reversed, but a NaN still lowest (R169). -/
def keyOrdRev (t x y : Nat) : Ordering :=
  if isIntType t || !((fpToVal t x).isNan || (fpToVal t y).isNan) then (keyOrd t x y).swap else keyOrd t x y

/-- Whether the first pair ranks above the second; equal pairs leave the first above (R166). -/
def pairAbove (rev : Bool) (t ka ia kb ib : Nat) : Bool :=
  match (if rev then keyOrdRev t ka kb else keyOrd t ka kb) with
  | .gt => true
  | .lt => false
  | .eq => decide (ia ≤ ib)

/-- Flights of two destinations, each at its own offset; flags stand in the earlier one (R155). -/
def State.flight2 (s : State) (offset opcode d1 d2 : Nat) (l1 l2 : Landing) (grp : FlagGroup) (flags : List (Nat × Flags)) : State :=
  let o1 := vOffset offset d1
  let o2 := vOffset offset d2
  if o1 == o2 then s.flight o1 opcode [l1, l2] grp flags none
  else if o1 < o2 then (s.flight o1 opcode [l1] grp flags none).flight o2 opcode [l2] .none [] none
  else (s.flight o2 opcode [l2] grp flags none).flight o1 opcode [l1] .none [] none

def execVcas (g : Gate) (f : FormA) (s : State) : Result :=
  let t := f.type.toNat
  let kw := typeBits t
  let w := 2 * typeBytes t
  s.vector g fun s c en =>
    let outs := (enabledLanes en w).map fun i =>
      let a := lane (c.v' f.a.toNat) w i
      let b := lane (c.v' f.b.toNat) w i
      if pairAbove false t (a / 2 ^ kw) (a % 2 ^ kw) (b / 2 ^ kw) (b % 2 ^ kw) then (i, a, b) else (i, b, a)
    let bits := maskLanes w (outs.map (·.1))
    s.flight2 3 0x21 f.d.toNat f.c.toNat (.v f.d.toNat (packLanes w (outs.map fun o => (o.1, o.2.1))) bits)
      (.v f.c.toNat (packLanes w (outs.map fun o => (o.1, o.2.2))) bits) .none []

/-! ## Permutes (R168) -/

def execVperm (g : Gate) (f : FormA) (s : State) : Result :=
  let w := typeBytes f.type.toNat
  let n := 256 / w
  s.lanewise g f.d w 3 0x23 fun c i =>
    let j := lane (c.v' f.b.toNat) w i
    (if j < n then lane (c.v' f.a.toNat) w j else if j < 2 * n then lane (c.v' f.c.toNat) w (j - n) else 0, 0)

def execVbcast (g : Gate) (f : FormA) (s : State) : Result :=
  let w := typeBytes f.type.toNat
  s.lanewise g f.d w 2 0x24 fun c _ => (lane (c.v' f.a.toNat) w (f.func.toNat % 256), 0)

def execVrot (g : Gate) (f : FormA) (s : State) : Result :=
  let w := typeBytes f.type.toNat
  let n := 256 / w
  s.lanewise g f.d w 3 0x25 fun c i => (lane (c.v' f.a.toNat) w ((i + n - f.func.toNat % 256) % n), 0)

def execVslide (g : Gate) (f : FormA) (s : State) : Result :=
  let w := typeBytes f.type.toNat
  let n := 256 / w
  s.lanewise g f.d w 3 0x26 fun c i =>
    let j := i + f.func.toNat % 512
    (if j < n then lane (c.v' f.a.toNat) w j else lane (c.v' f.c.toNat) w (j - n), 0)

/-! ## Reductions and scans (R169, R170) -/

/-- One step of a reduction on patterns; argmax and argmin are not steps of this kind. -/
def treeOp (op t : Nat) (nanForm : Bool) (rnd : Nat) (sat : Bool) (x y : Nat) : Nat × Flags :=
  match op with
  | 0 => ((x + y) % 2 ^ typeBits t, 0)
  | 1 => roundToFp (addVal (fpToVal t x) (fpToVal t y) rnd) t rnd sat 0
  | 2 => if isIntType t then (if intOf t x ≤ intOf t y then x else y, 0) else minMaxBits t false nanForm x y
  | 3 => if isIntType t then (if intOf t x ≤ intOf t y then y else x, 0) else minMaxBits t true nanForm x y
  | 6 => (x &&& y, 0)
  | 7 => (x ||| y, 0)
  | _ => (x ^^^ y, 0)

/-- The value of an empty group (R169). -/
def emptyOp (op t : Nat) : Nat :=
  match op with
  | 2 => if isIntType t then wrapBits (typeBits t) (maxInt t) else infBits t
  | 3 => if isIntType t then wrapBits (typeBits t) (minInt t) else infBits t + 2 ^ (typeBits t - 1)
  | 6 => 2 ^ typeBits t - 1
  | _ => 0

/-- A tree node: absent, or a value with its index. -/
abbrev Node := Option (Nat × Nat)

def nodeOp (op t : Nat) (nanForm : Bool) (rnd : Nat) (sat : Bool) (x y : Node) : Node × Flags :=
  match x, y with
  | none, y => (y, 0)
  | x, none => (x, 0)
  | some a, some b =>
    if op == 4 || op == 5 then (if pairAbove (op == 5) t a.1 a.2 b.1 b.2 then some a else some b, 0)
    else let r := treeOp op t nanForm rnd sat a.1 b.1
      (some (r.1, a.2), r.2)

/-- One level of the tree: neighbours pair, an unpaired last element moves up unchanged (14_fabric R445). -/
def treeLevel (op t : Nat) (nanForm : Bool) (rnd : Nat) (sat : Bool) : List Node → List Node × Flags
  | x :: y :: rest =>
    let r := nodeOp op t nanForm rnd sat x y
    let q := treeLevel op t nanForm rnd sat rest
    (r.1 :: q.1, r.2 ||| q.2)
  | xs => (xs, 0)

/-- Levels until one value remains. -/
def treeReduce (op t : Nat) (nanForm : Bool) (rnd : Nat) (sat : Bool) : Nat → List Node → Node × Flags
  | 0, xs => (xs.headD none, 0)
  | k + 1, xs =>
    let r := treeLevel op t nanForm rnd sat xs
    let q := treeReduce op t nanForm rnd sat k r.1
    (q.1, r.2 ||| q.2)

/-- Lanes of a group: func[8:5] (R169). -/
def groupSize (f : FormA) (n : Nat) : Nat :=
  let e := f.func.toNat / 32 % 16
  if e == 0 then n else 2 ^ e

def execVred (g : Gate) (f : FormA) (s : State) : Result :=
  let t := f.type.toNat
  let w := typeBytes t
  let n := 256 / w
  let gs := groupSize f n
  let op := f.func.toNat % 16
  s.vector g fun s c en =>
    let rnd := c.ctl.rounding f.rnd.toNat
    let groups := (List.range (n / gs)).map fun q =>
      let xs : List Node := (List.range gs).map fun j =>
        if en.getLsbD (w * (q * gs + j)) then some (lane (c.v' f.a.toNat) w (q * gs + j), j) else none
      (q * gs, treeReduce op t (fbit f.func 4) rnd (f.sat == 1) 8 xs)
    let ones := 2 ^ typeBits t - 1
    let lanes := groups.flatMap fun r =>
      if op == 4 || op == 5 then
        match r.2.1 with
        | some x => [(r.1, x.1), (r.1 + 1, x.2)]
        | none => [(r.1, if isIntType t then ones else canonNan t), (r.1 + 1, ones)]
      else [(r.1, match r.2.1 with | some x => x.1 | none => emptyOp op t)]
    s.flight (vOffset 8 f.d.toNat) 0x27 [.v f.d.toNat (packLanes w lanes) (BitVec.allOnes 2048)] (unitGroup s.curT.slot)
      ((groups.map fun r => (r.1, r.2.2)).filter fun x => x.2 != 0) none

/-- The running prefix of one group (R170): (lane, value, flags) for each lane. -/
def scanGroup (op t : Nat) (nanForm excl : Bool) (rnd : Nat) (sat : Bool) : Node → List (Nat × Node) → List (Nat × Nat × Flags)
  | _, [] => []
  | acc, (i, x) :: rest =>
    let r := nodeOp op t nanForm rnd sat acc x
    let shown := match (if excl then acc else r.1) with | some v => v.1 | none => emptyOp op t
    (i, shown, r.2) :: scanGroup op t nanForm excl rnd sat r.1 rest

def execVscan (g : Gate) (f : FormA) (s : State) : Result :=
  let t := f.type.toNat
  let w := typeBytes t
  let n := 256 / w
  let gs := groupSize f n
  let op := f.func.toNat % 16
  s.vector g fun s c en =>
    let rnd := c.ctl.rounding f.rnd.toNat
    let outs := (List.range (n / gs)).flatMap fun q =>
      scanGroup op t (fbit f.func 4) (fbit f.func 9) rnd (f.sat == 1) none ((List.range gs).map fun j =>
        let i := q * gs + j
        (i, if en.getLsbD (w * i) then some (lane (c.v' f.a.toNat) w i, j) else none))
    s.flight (vOffset 8 f.d.toNat) 0x28 [.v f.d.toNat (packLanes w (outs.map fun o => (o.1, o.2.1))) (BitVec.allOnes 2048)]
      (unitGroup s.curT.slot) (laneFlags outs) none

/-! ## Rounding streams (R158, R159) -/

/-- The draws of the executing unit for `n` lanes, and the state with the counter advanced in the issue tick (R44). -/
def State.draw (s : State) (n : Nat) : List Nat × State :=
  let b := drawBlocks n
  let t := s.cur.ctl
  match s.curT.slot with
  | 3 => (philoxBlocks b t.ctrA.toNat t.keyA.toNat, s.updCur fun c => { c with ctl := { c.ctl with ctrA := c.ctl.ctrA + BitVec.ofNat 128 b } })
  | 2 => (philoxBlocks b t.ctrB.toNat t.keyB.toNat, s.updCur fun c => { c with ctl := { c.ctl with ctrB := c.ctl.ctrB + BitVec.ofNat 128 b } })
  | _ => (philoxBlocks b t.ctrM.toNat t.keyM.toNat, s.updCur fun c => { c with ctl := { c.ctl with ctrM := c.ctl.ctrM + BitVec.ofNat 128 b } })

/-- Draws only under rsr; every other mode reads zero and leaves the stream (R44). -/
def State.drawIf (s : State) (rnd n : Nat) : List Nat × State := if rnd == 5 then s.draw n else ([], s)

/-! ## Conversions (R171) -/

/-- Convert one element from type `ts` (a48 included) to `tt`. -/
def convertAny (ts tt bits rnd : Nat) (sat : Bool) (w : Nat) : Nat × Flags :=
  if ts == 14 then accRead (Acc.ofBits bits) tt rnd sat w else convert ts tt bits rnd sat w

/-- The source type, target type and part number of a conversion. -/
def convTarget (f : FormA) : Nat := f.func.toNat % 32
def convPart (f : FormA) : Nat := f.func.toNat / 32 % 8

def execVcvt (g : Gate) (f : FormA) (s : State) : Result :=
  let w := typeBytes f.type.toNat
  if !s.iterates g then .next s
  else
    let d := s.drawIf f.rnd.toNat (256 / w)
    d.2.lanewise g f.d w 4 0x29 fun c i =>
      convertAny f.type.toNat (convTarget f) (lane (c.v' f.a.toNat) w i) (c.ctl.rounding f.rnd.toNat) (f.sat == 1) (d.1[i]?.getD 0)

def execVnrw (g : Gate) (f : FormA) (s : State) : Result :=
  let ws := typeBytes f.type.toNat
  let wt := typeBytes (convTarget f)
  let n := 256 / ws
  if !s.iterates g then .next s
  else
    let d := s.drawIf f.rnd.toNat n
    d.2.vector g fun s c en =>
      let outs := (enabledLanes en ws).map fun i => (i,
        convertAny f.type.toNat (convTarget f) (lane (c.v' f.a.toNat) ws i) (c.ctl.rounding f.rnd.toNat) (f.sat == 1) (d.1[i]?.getD 0))
      let at' (i : Nat) : Nat := convPart f * n + i
      s.flight (vOffset 4 f.d.toNat) 0x2A
        [.v f.d.toNat (packLanes wt (outs.map fun o => (at' o.1, o.2.1))) (maskLanes wt (outs.map fun o => at' o.1))]
        (unitGroup s.curT.slot) (laneFlags outs) none

def execVnrwf (g : Gate) (f : FormA) (s : State) : Result :=
  let ws := typeBytes f.type.toNat
  let wt := typeBytes (convTarget f)
  let n := 256 / ws
  if !s.iterates g then .next s
  else
    let d := s.drawIf f.rnd.toNat n
    d.2.vector g fun s c en =>
      let outs := (enabledLanes en ws).map fun i => (i,
        narrowFeedback f.type.toNat (convTarget f) (lane (c.v' f.a.toNat) ws i) (c.ctl.rounding f.rnd.toNat) (f.sat == 1) (d.1[i]?.getD 0))
      let at' (i : Nat) : Nat := convPart f * n + i
      s.flight2 4 0x2B f.d.toNat f.c.toNat
        (.v f.d.toNat (packLanes wt (outs.map fun o => (at' o.1, o.2.1))) (maskLanes wt (outs.map fun o => at' o.1)))
        (.v f.c.toNat (packLanes ws (outs.map fun o => (o.1, o.2.2.1))) (maskLanes ws (outs.map (·.1))))
        (unitGroup s.curT.slot) ((outs.map fun o => (o.1, o.2.2.2)).filter fun x => x.2 != 0)

def execVwid (g : Gate) (f : FormA) (s : State) : Result :=
  let ws := typeBytes f.type.toNat
  let wt := typeBytes (convTarget f)
  let n := 256 / wt
  s.lanewise g f.d wt 4 0x2C fun c i => convert f.type.toNat (convTarget f) (lane (c.v' f.a.toNat) ws (convPart f * n + i)) 0 false 0

/-! ## Block formats (R172 to R176) -/

def execVbexp (g : Gate) (f : FormA) (s : State) : Result :=
  let t := f.type.toNat
  let w := typeBytes t
  s.vector g fun s c en =>
    let xs := (enabledLanes en w).map fun i => (i, fpToVal t (lane (c.v' f.a.toNat) w i))
    let amax := maxAbs (xs.map fun x => x.2.num)
    let e : Int := if amax.isZero then 0 else clampInt 0 254 (amax.log2 + 128)
    let flags := (xs.filter fun x => x.2.isNan || x.2.isInf).map fun x => (x.1, fNv)
    s.flight (vOffset 4 f.d.toNat) 0x2D [.v f.d.toNat (packLanes 1 ((List.range 256).map fun i => (i, e.toNat))) (BitVec.allOnes 2048)]
      (unitGroup s.curT.slot) flags none

/-- A mantissa of VQB (R173) with its flags. -/
def quantiseLane (x : Val) (m e rnd w : Nat) : Int × Flags :=
  match x with
  | .nan _ | .inf _ => (0, fNv)
  | x =>
    let unit : Int := (e : Int) - 127 - ((m : Int) - 1)
    let k := roundInt (x.num.scale unit) rnd w
    let lim : Int := 2 ^ (m - 1) - 1
    let big := lim < k.natAbs
    let k' := if big then (if k < 0 then -lim else lim) else k
    let fl1 : Flags := if big then fNx ||| fSa else 0
    let fl2 : Flags := if (Q.dyadic k' unit).eq x.num then 0 else fNx
    let fl3 : Flags := if k' == 0 && !x.num.isZero then fUf else 0
    (k', fl1 ||| fl2 ||| fl3)

def execVqb (g : Gate) (f : FormA) (s : State) : Result :=
  let t := f.type.toNat
  let w := typeBytes t
  let n := 256 / w
  let m := blockBits (convTarget f)
  let o := f.func.toNat / 32 * n * m
  if !s.iterates g then .next s
  else
    let d := s.drawIf f.rnd.toNat n
    d.2.vector g fun s c en =>
      let e := lane (c.v' f.b.toNat) 1 0
      if e == 255 then s.flight (vOffset 4 f.d.toNat) 0x2E [] (unitGroup s.curT.slot) [] (some (0, word (255 + 2 ^ 16)))
      else
        let outs := (enabledLanes en w).map fun i => (i,
          quantiseLane (fpToVal t (lane (c.v' f.a.toNat) w i)) m e (c.ctl.rounding f.rnd.toNat) (d.1[i]?.getD 0))
        let x := outs.foldl (fun x l => x + wrapBits m l.2.1 * 2 ^ (o + l.1 * m)) 0
        let bits := outs.foldl (fun x l => x + (2 ^ m - 1) * 2 ^ (o + l.1 * m)) 0
        s.flight (vOffset 4 f.d.toNat) 0x2E [.v f.d.toNat (BitVec.ofNat 2048 x) (BitVec.ofNat 2048 bits)] (unitGroup s.curT.slot)
          ((outs.map fun l => (l.1, l.2.2)).filter fun y => y.2 != 0) none

def execVdqb (g : Gate) (f : FormA) (s : State) : Result :=
  let t := f.type.toNat
  let w := typeBytes t
  let n := 256 / w
  let m := blockBits (convTarget f)
  let o := f.func.toNat / 32 * n * m
  if !s.iterates g then .next s
  else
    let d := s.drawIf f.rnd.toNat n
    d.2.vector g fun s c en =>
      let e := lane (c.v' f.b.toNat) 1 0
      let code (i : Nat) : Nat := (c.v' f.a.toNat).toNat / 2 ^ (o + i * m) % 2 ^ m
      let bad := if e == 255 then some (0, word (255 + 2 ^ 16))
        else ((enabledLanes en w).find? fun i => reservedMant m (code i)).map fun i => (i, word (e + code i * 2 ^ 8))
      match bad with
      | some p => s.flight (vOffset 4 f.d.toNat) 0x2F [] (unitGroup s.curT.slot) [] (some p)
      | none =>
        let outs := (enabledLanes en w).map fun i => (i,
          roundToFp (blockVal m (code i) e) t (c.ctl.rounding f.rnd.toNat) (f.sat == 1) (d.1[i]?.getD 0))
        s.flight (vOffset 4 f.d.toNat) 0x2F
          [.v f.d.toNat (packLanes w (outs.map fun l => (l.1, l.2.1))) (maskLanes w (outs.map (·.1)))] (unitGroup s.curT.slot)
          (laneFlags outs) none

/-- Element `j` of VMX (R176): the kind is func[3:2] (0 E4M3, 1 E5M2, 2 E2M1), the half func[1]. -/
def vmxElement (f : FormA) (a b : VReg) (j : Nat) : Q × Flags :=
  let kind := f.func.toNat / 4 % 4
  let e := 256 * (f.func.toNat / 2 % 2) + j
  let scale := lane b 1 (e / 16)
  if kind == 2 then mxValue 0 (a.toNat / 2 ^ (4 * e) % 16) scale
  else mxValue (kind + 1) (lane a 1 e) scale

def execVmxFit (g : Gate) (f : FormA) (s : State) : Result :=
  s.vector g fun s c en =>
    let xs := (enabledLanes en 1).map fun j => (j, vmxElement f (c.v' f.a.toNat) (c.v' f.b.toNat) j)
    let amax := maxAbs (xs.map fun x => x.2.1)
    let fit : Int := if amax.isZero then 0 else mxFit amax
    let e := clampInt 0 254 (max (lane (c.v' f.c.toNat) 1 0 : Nat) fit)
    s.flight (vOffset 4 f.d.toNat) 0x30 [.v f.d.toNat (packLanes 1 ((List.range 256).map fun i => (i, e.toNat))) (BitVec.allOnes 2048)]
      (unitGroup s.curT.slot) ((xs.map fun x => (x.1, x.2.2)).filter fun y => y.2 != 0) none

def execVmxCvt (g : Gate) (f : FormA) (s : State) : Result :=
  s.lanewise g f.d 1 4 0x30 fun c j =>
    let v := vmxElement f (c.v' f.a.toNat) (c.v' f.b.toNat) j
    let r := mxMant v.1 (lane (c.v' f.c.toNat) 1 0)
    (wrapBits 8 r.1, v.2 ||| r.2)

/-! ## Functions, bias rows, random lanes, moves (R177 to R180) -/

def State.vfunction (s : State) (g : Gate) (f : FormA) (opcode fn : Nat) : Result :=
  s.lanewise g f.d 4 8 opcode fun c i =>
    special fn 10 (lane (c.v' f.a.toNat) 4 i) (c.ctl.rounding f.rnd.toNat) (f.sat == 1)

def execVexp2 (g : Gate) (f : FormA) (s : State) : Result := s.vfunction g f 0x31 0
def execVlog2 (g : Gate) (f : FormA) (s : State) : Result := s.vfunction g f 0x32 1
def execVrcp (g : Gate) (f : FormA) (s : State) : Result := s.vfunction g f 0x33 2
def execVrsq (g : Gate) (f : FormA) (s : State) : Result := s.vfunction g f 0x34 3

def execVbias (g : Gate) (f : FormA) (s : State) : Result :=
  let t := f.type.toNat
  let w := typeBytes t
  s.lanewise g f.d w 4 0x35 fun c i =>
    let rnd := c.ctl.rounding f.rnd.toNat
    let bias := fpToVal 8 (lane (c.v' f.b.toNat) 2 ((if t == 10 then 64 * (f.func.toNat % 2) else 0) + i))
    if bias == .inf true then (signBit t true + infBits t, 0)
    else roundToFp (addVal (fpToVal t (lane (c.v' f.a.toNat) w i)) bias rnd) t rnd (f.sat == 1) 0

def execVrng (g : Gate) (f : FormA) (s : State) : Result :=
  if !s.iterates g then .next s
  else
    let d := s.draw 64
    d.2.lanewise g f.d 4 4 0x36 fun _ i =>
      let x := d.1[i]?.getD 0
      if f.type == 6 then (x, 0) else roundToFp (Val.ofQ (Q.dyadic (x / 2 ^ 8 : Nat) (-24)) false) 10 0 false 0

def execVmov (g : Gate) (f : FormA) (s : State) : Result := s.vlane1 g f 2 0x37 fun _ a => (a, 0)

/-! ## Lane masks (R181) -/

def Core.maskOf (c : Core) (isK : Bool) (n : BitVec 6) : Mask := if isK then c.k' n.toNat else c.pv' n.toNat

/-- A bit-wise mask instruction under its guard. -/
def State.maskOp (s : State) (g : Gate) (f : FormA) (op : Mask → Mask → Mask) : Result :=
  s.vector g fun s c en =>
    let x := op (c.maskOf (fbit f.func 1) f.a) (c.maskOf (fbit f.func 0) f.b)
    s.fly 2 [if fbit f.func 2 then .k f.d.toNat x en else .pv f.d.toNat x en]

def execKand (g : Gate) (f : FormA) (s : State) : Result := s.maskOp g f (· &&& ·)
def execKor (g : Gate) (f : FormA) (s : State) : Result := s.maskOp g f (· ||| ·)
def execKxor (g : Gate) (f : FormA) (s : State) : Result := s.maskOp g f (· ^^^ ·)
def execKnot (g : Gate) (f : FormA) (s : State) : Result := s.maskOp g f fun a _ => ~~~a

def execKpop (g : Gate) (f : FormA) (s : State) : Result :=
  s.vector g fun s c en =>
    let x := onesIn 256 (c.maskOf (fbit f.func 1) f.a &&& en).toNat
    s.fly (vOffset 3 f.d.toNat) [.v f.d.toNat (BitVec.ofNat 2048 x) (BitVec.allOnes 2048)]

def execKfirst (g : Gate) (f : FormA) (s : State) : Result :=
  s.vector g fun s c en =>
    let m := c.maskOf (fbit f.func 1) f.a &&& en
    let x := ((List.range 256).find? fun i => m.getLsbD i).getD 256
    s.fly (vOffset 3 f.d.toNat) [.v f.d.toNat (BitVec.ofNat 2048 x) (BitVec.allOnes 2048)]

end Sys2Proof.Machine
end

