-- ==== Sys2Proof/Machine/LoadStore.lean ====
section
/-! DEFINITION. The load and store slots (05_sequencer R139 to R141). -/

namespace Sys2Proof.Machine

open Sys2Proof

/-- Whether `n` bytes at an address leave their space or meet a hole of it (R13). -/
def outsideSpace (space a n : Nat) : Bool :=
  match space with
  | 0 => decide (coreStoreSize < a + n)
  | 1 => decide (40 * 2 ^ 26 < a + n)
  | _ => decide (320 ≤ a / 2 ^ 22) || decide (coreStoreSize < a % 2 ^ 22 + n)

/-- First offset of a cluster's suffix index region (R14). -/
def State.suffixBase (s : State) (cluster : Nat) : Nat := 2 ^ 26 - (s.pkg.sxreg[cluster]?.getD 0) * 2 ^ 20

/-- Whether a line of a space is protected from a core (R14, R15, R139, R470). A line of 64 bytes never crosses a vault half. -/
def State.protectedLine (s : State) (cell space a n : Nat) : Bool :=
  let ctx := (s.core cell).ctx
  match space with
  | 0 => false
  | 1 =>
    let cl := a / 2 ^ 26
    let o := a % 2 ^ 26
    decide (s.suffixBase cl < o + n) || (ctx != 0 && !(s.ctx ctx).quads.getLsbD (2 * cl + o / 2 ^ 25))
  | _ => ctx != 0 && !s.holds ctx (a / 2 ^ 22)

/-- The lines of an access, as (address, length, line): alignment, then range, then protection, each over all lines (R139). -/
def State.lineFault (s : State) (cell space align : Nat) (ls : List AccessLine) : Option (Nat × Nat × Word) :=
  match ls.find? fun l => l.address % align != 0 with
  | some l => some (50, l.lane, word l.address)
  | none => match ls.find? fun l => outsideSpace space l.address l.len with
    | some l => some (48, l.lane, word l.address)
    | none => match ls.find? fun l => s.protectedLine cell space l.address l.len with
      | some l => some (49, l.lane, word l.address)
      | none => none

/-- Four consecutive lines with a stride. -/
def fourLines (a stride : Nat) : List AccessLine :=
  (List.range 4).map fun j => { address := (a + j * stride) % 2 ^ 64, len := 64, lane := j }

def oneLine (a n : Nat) : List AccessLine := [{ address := a, len := n, lane := 0 }]

/-- Lines of LDVX and STVX: offsets in s4f .. s4f + 3. -/
def Core.indexedLines (c : Core) (f : FormC) : List AccessLine :=
  (List.range 4).map fun j => { address := (c.formC f + (c.s' (4 * f.func.toNat + j)).toNat) % 2 ^ 64, len := 64, lane := j }

/-- The lines an instruction of the slots touches, and the alignment each needs. -/
def Core.touched (c : Core) (i : Instr) : Option (FormC × Gate × List AccessLine × Nat) :=
  match i with
  | .lds g f | .ldvb g f | .sts g f | .strs g f =>
    some (f, g, oneLine (c.formC f) (typeBytes f.type.toNat), typeBytes f.type.toNat)
  | .ldv g f | .stv g f | .stvm g f | .strv g f => some (f, g, fourLines (c.formC f) 64, 64)
  | .ldvs g f => some (f, g, fourLines (c.formC f) (64 * 2 ^ f.func.toNat), 64)
  | .ldvx g f | .stvx g f => some (f, g, c.indexedLines f, 64)
  | .ldk g f | .stk g f => some (f, g, oneLine (c.formC f) 32, 32)
  | _ => none

/-- Whether a space is legal for a mnemonic (R139): remote for loads and posted stores only, and for those stores no other. -/
def legalSpace (i : Instr) (space : Nat) : Bool :=
  match i with
  | .sts .. | .stv .. | .stvm .. | .stvx .. | .stk .. => space ≤ 1
  | .strs .. | .strv .. => space == 2
  | _ => space ≤ 2

/-- The lowest bit of slot `k` in a bundle (03_encoding R63). -/
def slotBase (k : Nat) : Nat := 58 * k

/-- The issue-time fault of a load or store (R103, R139). The spec does not order R103's refusal trap and R139's checks. DESIGN CHOICE
(log 53): the refusal trap goes first. -/
def State.memFault (s : State) (i : Instr) : Option (Nat × Nat × Word) :=
  match s.cur.touched i with
  | none => none
  | some (f, _, ls, align) =>
    match s.cur.clock.refusal f.wcls.toNat with
    | some a => some (56, 0, a)
    | none =>
      if !legalSpace i f.space.toNat then some (2, 0, word (slotBase s.curT.slot + 33))
      else s.lineFault s.curT.cell f.space.toNat align ls

/-- Perform and landing offsets of a line (R97). -/
def accessOffsets (cell space a : Nat) : Nat × Nat :=
  if space == 0 then (2, 5)
  else let h := hops (clusterOf cell) (spaceCluster cell space a)
    (10 + 2 * h, 20 + 4 * h)

/-- Put one timed access in flight. -/
def State.access (s : State) (offset space : Nat) (ls : List AccessLine) (kind : AccessKind) : State :=
  let a : Access := { due := s.clk + offset, seq := s.rank, issued := s.clk, cell := s.curT.cell, slot := s.curT.slot,
                      pc := s.curT.pc, space, lines := ls, kind }
  { s with accesses := s.accesses ++ [a], rank := s.rank + 1 }.after offset phPerform 0 (.op .timedAccessPerform)

/-- Put the lines of an instruction in flight, each at the offsets of its own distance. -/
def State.accessLines (s : State) (space : Nat) (kind : Nat → AccessKind) : List AccessLine → State
  | [] => s
  | l :: ls =>
    let o := accessOffsets s.curT.cell space l.address
    (s.access o.1 space [l] (kind (s.clk + o.2))).accessLines space kind ls

/-- Run a load or store: its issue-time fault, or its effect. -/
def State.memory (s : State) (g : Gate) (i : Instr) (k : State → Core → List AccessLine → State) : Result :=
  s.when g fun s =>
    match s.memFault i with
    | some f =>
      let s1 := if f.1 == 56 then match s.cur.touched i with
        | some t => s.clearRefusal s.curT.cell t.1.wcls.toNat
        | none => s
        else s
      s1.issueTrap f.1 f.2.1 f.2.2
    | none => match s.cur.touched i with
      | some t => .next (k s s.cur t.2.2.1)
      | none => .next s

def State.loadOp (s : State) (g : Gate) (f : FormC) (i : Instr) (dest : LoadDest) : Result :=
  s.memory g i fun s _ ls => s.accessLines f.space.toNat (fun land => .load dest land) ls

def execLds (g : Gate) (f : FormC) (s : State) : Result := s.loadOp g f (.lds g f) (.scalar f.data.toNat f.type.toNat)
def execLdv (g : Gate) (f : FormC) (s : State) : Result := s.loadOp g f (.ldv g f) (.vector f.data.toNat)
def execLdvs (g : Gate) (f : FormC) (s : State) : Result := s.loadOp g f (.ldvs g f) (.vector f.data.toNat)
def execLdvx (g : Gate) (f : FormC) (s : State) : Result := s.loadOp g f (.ldvx g f) (.vector f.data.toNat)
def execLdvb (g : Gate) (f : FormC) (s : State) : Result := s.loadOp g f (.ldvb g f) (.broadcast f.data.toNat f.type.toNat)
def execLdk (g : Gate) (f : FormC) (s : State) : Result := s.loadOp g f (.ldk g f) (.mask f.data.toNat)

/-- A timed store of data whose byte 64 j + i belongs to byte i of line j, under a byte mask. -/
def State.storeOp (s : State) (g : Gate) (f : FormC) (i : Instr) (data : Core → Nat) (mask : Core → Nat) : Result :=
  s.memory g i fun s c ls => s.accessLines f.space.toNat (fun _ => .store (data c) (mask c)) ls

def allBytes : Nat := 2 ^ 256 - 1

def execSts (g : Gate) (f : FormC) (s : State) : Result := s.storeOp g f (.sts g f) (fun c => (c.s' f.data.toNat).toNat) fun _ => allBytes
def execStv (g : Gate) (f : FormC) (s : State) : Result := s.storeOp g f (.stv g f) (fun c => (c.v' f.data.toNat).toNat) fun _ => allBytes
def execStvm (g : Gate) (f : FormC) (s : State) : Result :=
  s.storeOp g f (.stvm g f) (fun c => (c.v' f.data.toNat).toNat) fun c => (c.k' (f.func.toNat % 8)).toNat
def execStvx (g : Gate) (f : FormC) (s : State) : Result := s.storeOp g f (.stvx g f) (fun c => (c.v' f.data.toNat).toNat) fun _ => allBytes
def execStk (g : Gate) (f : FormC) (s : State) : Result := s.storeOp g f (.stk g f) (fun c => (c.k' f.data.toNat).toNat) fun _ => allBytes

/-- A posted remote store (R141): the destination is that of the first line. -/
def State.remoteOp (s : State) (g : Gate) (i : Instr) (len : Nat) (data : Core → Nat) : Result :=
  s.memory g i fun s c ls =>
    match ls with
    | l :: _ => s.postRemote s.curT.cell (l.address / 2 ^ 22) (l.address % 2 ^ 22) len (data c % 2 ^ (8 * len))
    | [] => s

def execStrs (g : Gate) (f : FormC) (s : State) : Result :=
  s.remoteOp g (.strs g f) (typeBytes f.type.toNat) fun c => (c.s' f.data.toNat).toNat
def execStrv (g : Gate) (f : FormC) (s : State) : Result := s.remoteOp g (.strv g f) 256 fun c => (c.v' f.data.toNat).toNat

end Sys2Proof.Machine
end

