-- ==== Sys2Proof/Machine/Control.lean ====
section
/-! DEFINITION. The scalar slot's control instructions and the loop stack (05_sequencer R125 to R138, R145, R147). The head of the
loop list is the top level, the head of the return list the newest entry. -/

namespace Sys2Proof.Machine

open Sys2Proof

/-- A fault of an instruction: cause, lane and TVAL. -/
abbrev SlotFault := Nat × Nat × Word

/-- Take an issue-time fault, or run the effect. -/
def State.orTrap (s : State) (f : Option SlotFault) (k : Result) : Result :=
  match f with
  | some x => s.issueTrap x.1 x.2.1 x.2.2
  | none => k

/-- A slot instruction: nothing when suppressed, its issue-time fault, or its effect (R67, R143). -/
def State.guarded (s : State) (g : Gate) (f : Option SlotFault) (k : State → State) : Result :=
  if s.issues g then s.orTrap f (.next (k s)) else .next s

def State.updSeq (s : State) (cell : Nat) (f : Sequencer → Sequencer) : State :=
  s.updCore cell fun c => { c with seq := f c.seq }
def State.updCurSeq (s : State) (f : Sequencer → Sequencer) : State := s.updSeq s.curT.cell f

/-- Transfer control after this bundle: the next group issues two ticks later (R125). -/
def State.transfer (s : State) (target : BitVec 64) : State :=
  s.updCurSeq fun q => { q with taken := some target, slow := true }

/-! ## The loop stack (R127 to R131) -/

/-- What ending iterations at an address leaves: the stack, the next address if any level ended, the strides to add, and the least
depth among the levels that ended. -/
structure LoopEnd where
  loops   : List LoopLevel
  next    : Option (BitVec 64)
  strides : List (Nat × Word)
  least   : Option Nat
  deriving DecidableEq, Repr

/-- R129 at address `e`. -/
def endIterations (e : BitVec 64) : List LoopLevel → LoopEnd
  | [] => { loops := [], next := none, strides := [], least := none }
  | l :: t =>
    if l.last == e then
      if 1 < l.left.toNat then
        { loops := { l with left := l.left - 1, index := l.index + 1 } :: t, next := some l.start, strides := l.strides,
          least := some (t.length + 1) }
      else
        let r := endIterations e t
        { loops := r.loops, next := some (r.next.getD (e + 64)), strides := l.strides ++ r.strides,
          least := some (r.least.getD (t.length + 1)) }
    else { loops := l :: t, next := none, strides := [], least := none }

/-- Apply a loop end to the current core: the stack, and the stride adds at offset 1. -/
def State.applyLoopEnd (s : State) (cell : Nat) (r : LoopEnd) : State :=
  let s1 := s.updSeq cell fun q => { q with loops := r.loops }
  if r.strides.isEmpty then s1 else s1.fly 1 (r.strides.map fun x => .stride x.1 x.2)

/-- The last bundle of a LOOP's body (R128). -/
def loopEnd (pc : BitVec 64) (f : FormA) : BitVec 64 := pc + (BitVec.ofNat 64 (f.func.toNat + 1) <<< 6)

/-- The issue-time faults of the control instructions (R126 to R130, R145, R147). -/
def State.controlFault (s : State) (i : Instr) : Option SlotFault :=
  let c := s.cur
  let q := c.seq
  let frozen (opcode : Nat) (f : Option SlotFault) : Option SlotFault := if c.ctl.inh then some (12, 0, word opcode) else f
  match i with
  | .call .. => frozen 0x1E (if q.rstack.length < 8 then none else some (5, 0, 0))
  | .ret .. => frozen 0x1F (if q.rstack.isEmpty then some (6, 0, 0) else none)
  | .loop _ f => frozen 0x20 (if 6 ≤ q.loops.length then some (7, 0, 0) else
      match q.loops with
      | l :: _ => if l.last.toNat < (loopEnd s.curT.pc f).toNat then some (8, 0, 1) else none
      | [] => none)
  | .lbrk .. => frozen 0x21 (if q.loops.isEmpty then some (8, 0, 3) else none)
  | .lstr .. => frozen 0x22 (if q.pending.length < 4 then none else some (8, 0, 2))
  | .rtt .. => if c.ctl.inh then none else some (10, 0, 0)
  | _ => none

/-- BR's condition (R134). -/
def brTaken (code : Nat) (x : Word) : Bool :=
  match code with
  | 0 => true
  | 1 => x != 0
  | 2 => x == 0
  | 3 => decide (x.toInt < 0)
  | 4 => decide (0 ≤ x.toInt)
  | 5 => decide (0 < x.toInt)
  | _ => decide (x.toInt ≤ 0)

def execBr (g : Gate) (f : FormD) (s : State) : Result :=
  s.guarded g none fun s => if brTaken (fld f.func 0 3) (s.cur.s' f.cond.toNat) then s.transfer (branchTarget s.curT.pc f) else s

def execBrp (g : Gate) (f : FormD) (s : State) : Result :=
  s.guarded g none fun s => if s.cur.p' f.cond.toNat == !fbit f.func 0 then s.transfer (branchTarget s.curT.pc f) else s

def execCall (g : Gate) (f : FormD) (s : State) : Result :=
  s.guarded g (s.controlFault (.call g f)) fun s =>
    (s.updCurSeq fun q => { q with rstack := (s.curT.pc + 64) :: q.rstack }).transfer (branchTarget s.curT.pc f)

def execRet (g : Gate) (f : FormA) (s : State) : Result :=
  s.guarded g (s.controlFault (.ret g f)) fun s =>
    match s.cur.seq.rstack with
    | [] => s
    | a :: t => (s.updCurSeq fun q => { q with rstack := t }).transfer a

/-- LOOP (R128): a count of 0 takes the pending list and skips the body. -/
def execLoop (g : Gate) (f : FormA) (s : State) : Result :=
  s.guarded g (s.controlFault (.loop g f)) fun s =>
    let n := s.cur.s' f.a.toNat
    let last := loopEnd s.curT.pc f
    if n == 0 then (s.updCurSeq fun q => { q with pending := [] }).transfer (last + 64)
    else s.updCurSeq fun q =>
      { q with loops := { left := n, index := 0, start := s.curT.pc + 64, last, strides := q.pending } :: q.loops, pending := [] }

/-- LBRK (R130): the popped level's end completes an iteration of an enclosing level that ends there. -/
def execLbrk (g : Gate) (f : FormA) (s : State) : Result :=
  s.guarded g (s.controlFault (.lbrk g f)) fun s =>
    match s.cur.seq.loops with
    | [] => s
    | l :: t =>
      let r := endIterations l.last t
      let s1 := (s.applyLoopEnd s.curT.cell r).transfer (r.next.getD (l.last + 64))
      if decide ((r.least.getD 7) ≤ s.cur.ctl.plevel) then s1.updCurSeq fun q => { q with after := some .boundary } else s1

def execLstr (g : Gate) (f : FormA) (s : State) : Result :=
  s.guarded g (s.controlFault (.lstr g f)) fun s =>
    s.updCurSeq fun q => { q with pending := q.pending ++ [(f.d.toNat, s.cur.s' f.a.toNat)] }

/-- REALIGN (R136): its wait holds the next group whatever its guard reads (R67); only a true guard writes s[d]. -/
def execRealign (g : Gate) (f : FormA) (s : State) : Result :=
  if s.iterates g then
    let r : Realign :=
      { address := s.curT.pc, arrived := none, timeout := (s.cur.s' f.a.toNat).toNat,
        dest := if s.cur.p' g.guard.toNat then some f.d.toNat else none, release := none }
    .next (s.updCurSeq fun q => { q with realign := some r })
  else .next s

/-- TRAP (R137): the core traps after its bundle has taken full effect. -/
def execTrap (g : Gate) (f : FormA) (s : State) : Result :=
  s.guarded g none fun s => s.updCurSeq fun q => { q with after := some .trap, trapVal := word f.func.toNat }

/-- RTT (R145): the program goes on at TRPC. -/
def execRtt (g : Gate) (f : FormA) (s : State) : Result :=
  s.guarded g (s.controlFault (.rtt g f)) fun s =>
    (s.updCur fun c => { c with ctl := { c.ctl with inh := false } }).transfer s.cur.ctl.trpc

/-- HALT (R138): no group issues after its bundle. -/
def execHalt (g : Gate) (_ : FormA) (s : State) : Result :=
  s.guarded g none fun s => s.updCurSeq fun q => { q with after := some .halt }

end Sys2Proof.Machine
end

