-- ==== Sys2Proof/Machine/Sync.lean ====
section
/-! DEFINITION. The sync slot's tick waits, windows, barriers and counts (09_windows R272 to R283). -/

namespace Sys2Proof.Machine

open Sys2Proof

/-- A tick named by a register, shifted by RSHIFT with the r option (R256). -/
def Core.shifted (c : Core) (r : Bool) (w : Word) : Word := if r then w + c.clock.rshift else w

/-- WAITT's target (R273). -/
def Core.waitTarget (c : Core) (f : FormE) : Word := c.shifted (fbit f.func 1) (c.s' f.f2.toNat)

/-- Whether a window was opened by an earlier bundle of the group now issuing, be it closed again since (R275). -/
def State.openedInGroup (s : State) (n : Nat) : Bool :=
  let i := match s.cur.seq.group with
    | some g => g.index
    | none => 0
  match (s.cur.window n).opener with
  | some t => decide (s.clk ≤ t + i) && decide (t < s.clk)
  | none => false

/-- The lowest address of a list of ranges that lies in a region. -/
def firstInRegion (w : Window) (rs : List (Nat × Nat)) : Option Nat :=
  rs.foldl (fun m r => match w.meet r.1 r.2, m with
    | some x, some y => some (min x y)
    | some x, none => some x
    | none, m => m) none

/-- Core-store ranges of a core's copies that have not performed, and records of collectives whose tag is not done (R274). -/
def CopyEngine.liveRanges (e : CopyEngine) (clk : Nat) : List (Nat × Nat) :=
  ((e.timed.filter fun t => decide (clk + 1 < t.frees)).flatMap fun t => t.ranges) ++ (e.tagged.flatMap fun t => t.ranges) ++
    e.tags.toList.flatMap fun g => g.records

/-- WOPEN's faults, in the order of R274. -/
def State.wopenFault (s : State) (f : FormE) : Option SlotFault :=
  let c := s.cur
  let n := f.tag.toNat
  let w : Window := { Window.reset with base := c.s' f.f1.toNat, size := c.s' f.f2.toNat }
  let close := c.shifted (fbit f.func 6) (c.s' f.f3.toNat)
  if c.clock.windows.toList.any (fun x => x.isOpen && (x.meet w.base.toNat w.size.toNat).isSome) || (c.window n).isOpen then
    some (178, 0, word n)
  else if w.base.toNat % 64 != 0 || w.size.toNat % 64 != 0 || decide (coreStoreSize < w.base.toNat + w.size.toNat) then
    some (180, 0, w.base)
  else if decide (close.toNat ≤ s.tick.toNat + s.stepBy) then some (179, 0, close)
  else match firstInRegion w (c.cpy.liveRanges s.clk) with
    | some a => some (176, 0, word a)
    | none => none

/-- The mask of a domain barrier is legal (R277). -/
def State.domainMask (s : State) (m : Word) : Bool :=
  s.pkg.indom && m.getLsbD s.pkg.domPos && decide (m.toNat < 2 ^ s.pkg.domSize)

/-- The classes an RCNT reads. -/
def rcntClasses (f : FormE) : List Nat := if f.tag == 0 then [1, 2, 3] else [f.tag.toNat]

/-- The issue-time faults of these instructions. -/
def State.syncFault (s : State) (i : Instr) : Option SlotFault :=
  match i with
  | .waitt _ f =>
    let target := s.cur.waitTarget f
    if fbit f.func 0 && decide (target.toNat < s.tick.toNat) then some (181, 0, s.tick - target) else none
  | .wopen _ f => s.wopenFault f
  | .wshut _ f | .getpost _ f => if s.openedInGroup f.tag.toNat then some (178, 0, word f.tag.toNat) else none
  | .bar _ f => if fbit f.func 0 && !s.domainMask (s.cur.s' f.f3.toNat) then some (183, 0, s.cur.s' f.f3.toNat) else none
  | .rcnt _ f => (s.cur.clock.firstRefusal (rcntClasses f)).map fun r => (56, 0, r.2)
  | .fence _ f => if fbit f.func 1 then (s.cur.clock.firstRefusal [1, 2, 3]).map fun r => (56, 0, r.2) else none
  | .prel _ f =>
    let x := s.ctx s.cur.ctx
    if !x.pen then some (336, 0, 0)
    else if fbit f.func 0 && !x.mirror then some (341, 0, 0)
    else if 65535 ≤ (s.cur.clock.prIssued - s.cur.clock.prDone).toNat then some (343, 0, 65535)
    else none
  | .pseal _ f =>
    let n := s.cur.s' f.f2.toNat
    if !(s.ctx s.cur.ctx).pen then some (336, 0, 0) else if 2 ^ 32 ≤ n.toNat then some (338, 0, n) else none
  | .signal _ f =>
    let w := s.cur.s' f.f2.toNat
    if fld w 9 7 != 0 || fld w 22 42 != 0 || !s.mayName s.cur.ctx (fld w 0 9) || s.retired (fld w 0 9) then some (49, 0, w) else none
  | _ => none

/-- The refusal bit that the trap of an instruction clears (R103). -/
def State.clearTaken (s : State) (i : Instr) : State :=
  let clear (cs : List Nat) : State := match s.cur.clock.firstRefusal cs with
    | some r => s.clearRefusal s.curT.cell r.1
    | none => s
  match i with
  | .rcnt _ f => clear (rcntClasses f)
  | .fence _ f => if fbit f.func 1 then clear [1, 2, 3] else s
  | _ => s

def execWaitt (g : Gate) (f : FormE) (s : State) : Result :=
  s.guarded g (s.syncFault (.waitt g f)) fun s => s.fly 1 [.s f.f1.toNat (s.tick - s.cur.waitTarget f)]

def execWopen (g : Gate) (f : FormE) (s : State) : Result :=
  s.guarded g (s.syncFault (.wopen g f)) fun s =>
    let c := s.cur
    let n := f.f4.toNat
    s.fly 1 [.openWindow f.tag.toNat (c.s' f.f1.toNat) (c.s' f.f2.toNat) (c.shifted (fbit f.func 6) (c.s' f.f3.toNat))
      (fld f.func 0 2) (f.func.extractLsb' 2 4) #v[c.s' n, c.s' (n + 1), c.s' (n + 2), c.s' (n + 3)]]

def execWshut (g : Gate) (f : FormE) (s : State) : Result :=
  s.guarded g (s.syncFault (.wshut g f)) fun s => s.fly 1 [.shut f.tag.toNat]

/-- GETPOST (R276): its read is at offset 1. -/
def execGetpost (g : Gate) (f : FormE) (s : State) : Result :=
  s.guarded g (s.syncFault (.getpost g f)) fun s => s.fly 1 [.post f.f1.toNat f.tag.toNat (fld f.func 0 2) (fbit f.func 2)]

/-- BAR (R267, R268, R277): the wait is its whole effect; the group has been released when it issues. -/
def execBar (g : Gate) (f : FormE) (s : State) : Result :=
  s.guarded g (s.syncFault (.bar g f)) id

def execRcnt (g : Gate) (f : FormE) (s : State) : Result :=
  if s.issues g && (s.syncFault (.rcnt g f)).isSome then
    (s.clearTaken (.rcnt g f)).orTrap (s.syncFault (.rcnt g f)) (.next s)
  else s.guarded g none fun s =>
    let n (i : Nat) : Nat := s.cur.clock.counts[i]?.getD 0
    s.fly 1 [.s f.f1.toNat (word (if f.tag == 0 then n 0 + n 1 * 2 ^ 16 + n 2 * 2 ^ 32 else n (f.tag.toNat - 1)))]

/-- FENCE (R279): its hold is its whole effect. -/
def execFence (g : Gate) (f : FormE) (s : State) : Result :=
  if s.issues g && (s.syncFault (.fence g f)).isSome then
    (s.clearTaken (.fence g f)).orTrap (s.syncFault (.fence g f)) (.next s)
  else .next s

def execRdtk (g : Gate) (f : FormE) (s : State) : Result :=
  s.guarded g none fun s => s.fly 1 [.s f.f1.toNat (if fbit f.func 1 then s.tick - s.cur.clock.rshift else s.tick)]

/-- YIELD (R283): pre-emption may land after its bundle. -/
def execYield (g : Gate) (_ : FormE) (s : State) : Result :=
  s.guarded g none fun s => s.updCurSeq fun q => { q with after := some .yield }

end Sys2Proof.Machine
end

