-- ==== Sys2Proof/Machine/Matrix.lean ====
section
/-! DEFINITION. The matrix engine (07_matrix R183 to R218). -/

namespace Sys2Proof.Machine

open Sys2Proof

/-! ## Format records and shapes (R184 to R188) -/

def recStype (r : Word) : Nat := fld r 0 5
def recXtype (r : Word) : Nat := fld r 8 5
/-- The MX element kind of a record as `mxElem` numbers it. -/
def recMx (r : Word) : Nat := match fld r 16 2 with
  | 0 => 1
  | 1 => 2
  | _ => 0

def isFp8 (t : Nat) : Bool := t == 12 || t == 13

/-- A record well formed for a product (R188). -/
def recordOk (r : Word) : Bool :=
  let st := recStype r
  let xt := recXtype r
  fld r 18 46 == 0 && fld r 13 3 == 0 && fld r 5 3 == 0 && fld r 16 2 != 3 &&
  ((isBlockType st && isBlockType xt && blockEdge st == blockEdge xt) || (isFp8 st && isFp8 xt) ||
   (st == xt && (st == 8 || st == 9 || st == 11)))

/-- K of a stationary type (R184). -/
def modeK (t : Nat) : Nat := if isBlockType t || isFp8 t then 128 else if t == 11 then 16 else 64
/-- k-block of a floating-point mode (R56). -/
def modeBlock (t : Nat) : Nat := if isFp8 t then 16 else 8
/-- Exponent of a floating-point partial (R56). -/
def partialExp (st xt : Nat) : Int :=
  if st == 8 then -48 else if st == 9 then -266
  else if st == 12 && xt == 12 then -18 else if st == 13 && xt == 13 then -32 else -25

/-- Streamed rows padded to whole tiles (R186). -/
def paddedRows (xt n : Nat) : Nat := if isBlockType xt then cdiv n (blockEdge xt) * blockEdge xt else n
/-- Pairs a product reads (R186). -/
def productPairs (xt n : Nat) : Nat := if isBlockType xt then paddedRows xt n * blockBits xt / 8 else n
/-- Array ticks of a product (R186). -/
def productTicks (xt n : Nat) : Nat :=
  if isBlockType xt then cdiv ((blockBits xt + 1) / 2 * paddedRows xt n) 4 else if xt == 11 then 4 * n else n
/-- Lines of a streamed scale plane (R193). -/
def scaleLines (xt n : Nat) : Nat := cdiv (paddedRows xt n / blockEdge xt * (128 / blockEdge xt)) 64
/-- Pairs a load reads (R194). -/
def loadPairs (mx : Bool) (r : Word) : Nat :=
  if mx then (if recMx r == 0 then 64 else 128) else if isBlockType (recStype r) then 16 * blockBits (recStype r) else 128
/-- The minimum energy class of a product (R199). -/
def minClass (xt : Nat) : Nat :=
  if isBlockType xt then (if blockBits xt ≤ 4 then 0 else if blockBits xt ≤ 6 then 1 else 2) else if isFp8 xt then 2 else 3
/-- 1 in block mode (R194). -/
def blockStep (t : Nat) : Nat := if isBlockType t then 1 else 0

/-! ## Busy bits and checks (R190, R191, R204) -/

/-- Busy bits a command needs clear: 0 .. 3 tiles, 4 shadow, 5 array (R190). -/
def matrixNeeds (i : Instr) : List Nat :=
  match i with
  | .mlds .. | .mldst .. => [4]
  | .mswap .. => [4, 5]
  | .mmul _ f | .mmul64 _ f => [5, f.f1.toNat]
  | .mzero _ f | .mscl _ f | .mwrz _ f | .mchk _ f | .mrdz _ f => [f.f1.toNat]
  | .mgang .. => [5]
  | _ => []

/-- A command that charges the energy budget (R199). -/
def charged (i : Instr) : Bool :=
  match i with
  | .mlds .. | .mldst .. | .mmul .. | .mmul64 .. => true
  | _ => false

def bitsOf (bs : List Nat) : BitVec 6 := bs.foldl (fun x b => x ||| BitVec.twoPow 6 b) 0

/-- The busy bits that a command finds set. -/
def Matrix.found (m : Matrix) (clk : Nat) (i : Instr) : BitVec 6 := m.busy clk &&& bitsOf (matrixNeeds i)

def Matrix.record (m : Matrix) (f : FormE) : Word := m.fmt[f.tag.toNat]?.getD 0
def Matrix.tile (m : Matrix) (n : Nat) : Tile := m.z[n]?.getD Tile.reset
def Matrix.setTile (m : Matrix) (n : Nat) (t : Tile) : Matrix := { m with z := m.z.setIfInBounds n t }
/-- Containers with the fill value are not listed. -/
def Tile.put (t : Tile) (k : Nat) (w : Word) : Tile :=
  { t with cells := if w == t.fill then t.cells.erase k else t.cells.set k w }
def Tile.at' (t : Tile) (row col : Nat) : Word := t.cells.getD (128 * row + col) t.fill

/-- The first failing check of a list. -/
def firstOf : List (Option SlotFault) → Option SlotFault
  | [] => none
  | some f :: _ => some f
  | none :: t => firstOf t

def misaligned (a align : Nat) : Option SlotFault := if a % align == 0 then none else some (50, 0, word a)
def outside (a n : Nat) : Option SlotFault := if a + n ≤ coreStoreSize then none else some (48, 0, word a)

/-- The stationary check of a product on one core (R208). -/
def Matrix.stationaryFault (m : Matrix) (st rank : Nat) : Option SlotFault :=
  if m.active.valid && m.active.stype == st then none
  else some (244, 0, word (m.active.stype + m.active.valid.toNat * 32 + st * 2 ^ 8 + rank * 2 ^ 16))

/-- The mode check of a tile (R59, R218). -/
def Matrix.modeFault (m : Matrix) (tile : Nat) (f64 : Bool) (rank : Nat) : Option SlotFault :=
  if (m.tile tile).f64 == f64 then none
  else some (242, 0, word (tile + (m.tile tile).f64.toNat * 4 + f64.toNat * 8 + rank * 2 ^ 8))

/-- The other members of the formed gang, with their ranks (R202). -/
def State.gangPeers (s : State) (cell : Nat) : List (Nat × Nat) :=
  (maskCells cell (s.core cell).mtx.mask).filterMap fun x => if x == cell then none else some (x, (s.core x).mtx.rank)

/-- The gang rules of a product (R202). The spec does not order the leader's checks over several members. DESIGN CHOICE (log 55): they run
member by member in rank order, busy bits, then plane, then tile. -/
def State.productGangFault (s : State) (f : FormE) (f64 g : Bool) (st : Nat) : Option SlotFault :=
  let m := s.cur.mtx
  if m.formed && !m.leader then some (246, 0, word (1 + m.rank * 2 ^ 8))
  else if !g then none
  else if !m.formed then some (246, 0, 0)
  else firstOf ((s.gangPeers s.curT.cell).map fun x =>
    let p := (s.core x.1).mtx
    if p.busy s.clk &&& bitsOf [5, f.f1.toNat] != 0 then some (246, 0, word (4 + x.2 * 2 ^ 8))
    else firstOf [p.stationaryFault st x.2, p.modeFault f.f1.toNat f64 x.2])

/-- The checks of a product from its record on (R204 steps 2 to 8). -/
def State.productFault (s : State) (f : FormE) (f64 : Bool) : Option SlotFault :=
  let c := s.cur
  let m := c.mtx
  let r := m.record f
  let st := recStype r
  let xt := recXtype r
  let n := c.s' f.f3.toNat
  let a := (c.s' f.f2.toNat).toNat
  let b := (c.s' f.f4.toNat).toNat
  let scaled := isBlockType st
  if !recordOk r || (st == 11) != f64 then some (241, f.tag.toNat, r)
  else if !(1 ≤ n.toNat && n.toNat ≤ 256) then some (248, 0, n)
  else firstOf [misaligned a 128, if scaled then misaligned b 64 else none,
    outside a (128 * productPairs xt n.toNat), if scaled then outside b (64 * scaleLines xt n.toNat) else none,
    m.stationaryFault st m.rank, m.modeFault f.f1.toNat f64 m.rank, s.productGangFault f f64 (fbit f.func 2) st]

/-- The checks of a load from its record on. -/
def State.loadFault (s : State) (f : FormE) (mx : Bool) : Option SlotFault :=
  let c := s.cur
  let r := c.mtx.record f
  let st := recStype r
  let a := (c.s' f.f1.toNat).toNat
  let b := (c.s' f.f2.toNat).toNat
  let scaled := mx || isBlockType st
  if !recordOk r || (mx && !(st == 22 || st == 30)) then some (241, f.tag.toNat, r)
  else firstOf [misaligned a 128, if scaled then misaligned b (if mx then 128 else 64) else none,
    outside a (128 * loadPairs mx r), if scaled then outside b (if mx then 512 else 64) else none]

def rowFault (x : Word) : Option SlotFault := if x.toNat < 256 then none else some (248, 0, x)

/-- MRDZ's readout narrows (R211). -/
def readNarrows (f64 : Bool) (t : Nat) : Bool := if f64 then t != 11 else t != 14

/-- The issue-time fault of a matrix command, in the order of R204. -/
def State.matrixFault (s : State) (i : Instr) : Option SlotFault :=
  let c := s.cur
  let m := c.mtx
  let found := m.found s.clk i
  if found != 0 then some (245, 0, found.setWidth 64)
  else match i with
    | .mlds _ f => s.loadFault f false
    | .mldst _ f => s.loadFault f true
    | .mmul _ f => s.productFault f false
    | .mmul64 _ f => s.productFault f true
    | .mrdz _ f =>
      let t := f.tag.toNat
      let f64 := (m.tile f.f1.toNat).f64
      firstOf [rowFault (c.s' f.f3.toNat), if t == 14 then m.modeFault f.f1.toNat false m.rank else none,
        if fld f.func 2 3 == 5 && !readNarrows f64 t then some (2, 0, word (slotBase s.curT.slot + 2)) else none]
    | .mwrz _ f =>
      firstOf [rowFault (c.s' f.f3.toNat), if f.tag == 14 then m.modeFault f.f1.toNat false m.rank
        else if f.tag == 11 then m.modeFault f.f1.toNat true m.rank else none]
    | .mgang _ f =>
      let mask : BitVec 4 := f.func.extractLsb' 2 4
      if mask == 0 then none
      else if !mask.getLsbD (s.curT.cell % 4) then some (246, 0, word (2 + m.rank * 2 ^ 8))
      else if (maskCells s.curT.cell mask).all fun x => (s.members s.curT.cell).contains x then none
      else some (246, 0, word (3 + m.rank * 2 ^ 8))
    | _ => none

/-! ## Issue (R193, R194, R199) -/

/-- Set busy bits of a core until an offset from now. -/
def State.setBusy (s : State) (cell : Nat) (bits : List (Nat × Nat)) : State :=
  s.updMtx cell fun m => { m with clears := bits.foldl (fun (v : Vector Nat 6) b => v.setIfInBounds b.1 (s.clk + b.2)) m.clears }

/-- Charge the budget (R200). -/
def State.charge (s : State) (n : Nat) : State := s.updMtx s.curT.cell fun m => { m with bucket := m.bucket - word n }

/-- A command that ends at an offset, after the results that land on its core in that period: its flags are applied over an MTC of
FLAGS, and the enables of an MTC of FMODE count for it (05_sequencer R121, log entry 19). -/
def State.command (s : State) (offset opcode : Nat) (kind : MatrixKind) (record : Word) (address scaleAt : Nat)
    (planes : List (Nat × Plane)) : State :=
  let k : MatrixCommand := { id := s.nextId, issued := s.clk, ends := s.clk + offset, opcode, pc := s.curT.pc, kind, record, address,
                             scaleAt, elems := [], scales := [], planes, abandoned := false }
  ({ s with nextId := s.nextId + 1 }.updMtx s.curT.cell fun m => { m with cmds := m.cmds ++ [k] }).after offset phLand (512 + s.curT.cell)
    (.op (.matrixCommandEnd s.curT.cell))

/-- The two lines of a pair, both with the pair's index (R193, R195). -/
def pairLines (a u : Nat) : List AccessLine :=
  [{ address := a + 128 * u, len := 64, lane := u }, { address := a + 128 * u + 64, len := 64, lane := u }]

/-- Reads of the pairs `u0 .. u0 + n - 1`, one per period from an offset on. -/
def State.pairReads (s : State) (id : Nat) (scale : Bool) (a offset : Nat) : Nat → Nat → State
  | _, 0 => s
  | u, n + 1 => (s.access (offset + u) 0 (pairLines a u) (.matrix id scale)).pairReads id scale a offset (u + 1) n

/-- Reads of one or two scale lines at offset 2. -/
def State.scaleRead (s : State) (id a lines : Nat) : State :=
  s.access 2 0 ((List.range lines).map fun j => { address := a + 64 * j, len := 64, lane := 0 }) (.matrix id true)

/-- Weight of an effective class times ticks and members (R199). -/
def energyCost (f : FormE) (least ticks members : Nat) : Nat := (max (fld f.func 0 2) least + 1) * ticks * members

def State.loadPlane (s : State) (g : Gate) (f : FormE) (i : Instr) (mx : Bool) (opcode : Nat) : Result :=
  s.guarded g (s.matrixFault i) fun s =>
    let c := s.cur
    let r := c.mtx.record f
    let p := loadPairs mx r
    let st := blockStep (recStype r)
    let a := (c.s' f.f1.toNat).toNat
    let b := (c.s' f.f2.toNat).toNat
    let ends := if mx then 6 + p + 8 else 2 + st + p + 4
    let id := s.nextId
    let s1 := (((s.command ends opcode (.load mx (fbit f.func 2)) r a b []).setBusy s.curT.cell [(4, ends)]).charge
      (energyCost f 0 p 1))
    let s2 := if mx then s1.pairReads id true b 2 0 4 else if st == 1 then s1.scaleRead id b 1 else s1
    s2.pairReads id false a (if mx then 6 else 2 + st) 0 p

def execMlds (g : Gate) (f : FormE) (s : State) : Result := s.loadPlane g f (.mlds g f) false 0x01
def execMldst (g : Gate) (f : FormE) (s : State) : Result := s.loadPlane g f (.mldst g f) true 0x02

def execMswap (g : Gate) (f : FormE) (s : State) : Result :=
  s.guarded g (s.matrixFault (.mswap g f)) fun s => (s.setBusy s.curT.cell [(5, 1)]).fly 1 [.swapPlanes]

/-- The issue of a product (R194, R202): every member's array and tile bits, with the leader's clear offsets. -/
def State.product (s : State) (g : Gate) (f : FormE) (i : Instr) (f64 : Bool) (opcode : Nat) : Result :=
  s.guarded g (s.matrixFault i) fun s =>
    let c := s.cur
    let r := c.mtx.record f
    let xt := recXtype r
    let n := (c.s' f.f3.toNat).toNat
    let gang := fbit f.func 2
    let cells := s.curT.cell :: (if gang then (s.gangPeers s.curT.cell).map (·.1) else [])
    let st := blockStep xt
    let array := 2 + st + productTicks xt n + (if gang then 2 else 0)
    let ends := array + (if f64 then 32 else 24)
    let a := (c.s' f.f2.toNat).toNat
    let b := (c.s' f.f4.toNat).toNat
    let ovr := fbit f.func 3
    let kind : MatrixKind := if f64 then .product64 f.f1.toNat n (c.ctl.rounding (fld f.func 4 3)) ovr else .product f.f1.toNat n ovr
    let id := s.nextId
    let s1 := s.command ends opcode kind r a b (cells.map fun x => (x, (s.core x).mtx.active))
    let s2 := cells.foldl (fun s x => s.setBusy x [(5, array), (f.f1.toNat, ends)]) s1
    let s3 := s2.charge (energyCost f (minClass xt) (productTicks xt n) cells.length)
    let s4 := if st == 1 then s3.scaleRead id b (scaleLines xt n) else s3
    s4.pairReads id false a (2 + st) 0 (productPairs xt n)

def execMmul (g : Gate) (f : FormE) (s : State) : Result := s.product g f (.mmul g f) false 0x04
def execMmul64 (g : Gate) (f : FormE) (s : State) : Result := s.product g f (.mmul64 g f) true 0x05

def execMzero (g : Gate) (f : FormE) (s : State) : Result :=
  s.guarded g (s.matrixFault (.mzero g f)) fun s =>
    (s.command 16 0x06 (.zero f.f1.toNat (f.tag == 11)) 0 0 0 []).setBusy s.curT.cell [(f.f1.toNat, 16)]

/-- The rounding and scale amount of MSCL (R214). -/
def execMscl (g : Gate) (f : FormE) (s : State) : Result :=
  s.guarded g (s.matrixFault (.mscl g f)) fun s =>
    let n := clampInt (-8192) 8192 (s.cur.s' f.f2.toNat).toInt
    (s.command 16 0x0A (.scale f.f1.toNat n (s.cur.ctl.rounding (fld f.func 2 3))) 0 0 0 []).setBusy s.curT.cell [(f.f1.toNat, 16)]

/-- One lane of a readout (R211). -/
def readContainer (f64 : Bool) (t rnd : Nat) (sat : Bool) (x : Word) (w : Nat) : Nat × Flags :=
  if t == 14 || (f64 && t == 11) then (x.toNat, 0)
  else if f64 then roundTo (fpToVal 11 x.toNat) t rnd sat w
  else accRead (Acc.ofBits x.toNat) t rnd sat w

/-- MRDZ (R211). -/
def execMrdz (g : Gate) (f : FormE) (s : State) : Result :=
  s.guarded g (s.matrixFault (.mrdz g f)) fun s =>
    let c := s.cur
    let z := c.mtx.tile f.f1.toNat
    let t := f.tag.toNat
    let w := typeBytes t
    let n := min (256 / w) 128
    let row := (c.s' f.f3.toNat).toNat
    let q := fld f.func 6 2
    let rnd := c.ctl.rounding (fld f.func 2 3)
    let d := s.drawIf (fld f.func 2 3) n
    let base := if w == 1 then 128 * fld f.func 8 1 else 0
    let outs := (List.range n).map fun i =>
      (base + i, readContainer z.f64 t rnd (fbit f.func 5) (z.at' row (q * n + i)) (d.1[i]?.getD 0))
    d.2.flight 6 0x07 [.v f.f2.toNat (packLanes w (outs.map fun o => (o.1, o.2.1))) (maskLanes w (outs.map (·.1)))] .mx
      ((outs.map fun o => (o.1, o.2.2)).filter fun x => x.2 != 0) none

/-- An f32 lane as a container of a tile (R212). -/
def writeContainer (f64 : Bool) (x : Nat) : Nat × Flags :=
  if f64 then convert 10 11 x 0 false 0
  else match fpToVal 10 x with
    | .nan sg => ((Acc.nan false).toBits, if sg then fNv else 0)
    | .inf neg => ((Acc.inf neg false).toBits, 0)
    | .zero _ => ((Acc.zero false).toBits, 0)
    | .fin _ =>
      let frac : Nat := x % 2 ^ 23
      let ex : Nat := x / 2 ^ 23 % 256
      let sig : Int := if ex == 0 then frac else 2 ^ 23 + frac
      let e : Int := if ex == 0 then -149 else (ex : Int) - 150
      ((Acc.mk (if 2 ^ 31 ≤ x then -sig else sig) (e + 2047).toNat 0 false).toBits, 0)

/-- MWRZ (R212). -/
def execMwrz (g : Gate) (f : FormE) (s : State) : Result :=
  s.guarded g (s.matrixFault (.mwrz g f)) fun s =>
    let c := s.cur
    let f64 := (c.mtx.tile f.f1.toNat).f64
    let wide := f.tag != 10
    let n := if wide then 32 else 64
    let x := c.v' f.f2.toNat
    let outs := (List.range n).map fun i => if wide then (lane x 8 i, (0 : Flags)) else writeContainer f64 (lane x 4 i)
    let first := 128 * (c.s' f.f3.toNat).toNat + n * fld f.func 2 2
    (s.setBusy s.curT.cell [(f.f1.toNat, 3)]).flight 2 0x08 [.zrow f.f1.toNat first (outs.map fun o => word o.1)] .mx
      (((List.range n).zip (outs.map (·.2))).filter fun x => x.2 != 0) none

def execMgang (g : Gate) (f : FormE) (s : State) : Result :=
  s.guarded g (s.matrixFault (.mgang g f)) fun s => s.fly 1 [.matrixGang (fld f.func 2 4)]

/-- The check over a tile's bytes (R215). -/
def tileCheck (t : Tile) : Word :=
  crc64 ((List.range (256 * 128)).flatMap fun k => wordBytes (t.cells.getD k t.fill))

def execMchk (g : Gate) (f : FormE) (s : State) : Result :=
  s.guarded g (s.matrixFault (.mchk g f)) fun s =>
    (s.setBusy s.curT.cell [(f.f1.toNat, 130)]).fly 130 [.s f.f2.toNat (tileCheck (s.cur.mtx.tile f.f1.toNat))]

/-- MEC (R216). -/
def execMec (g : Gate) (f : FormE) (s : State) : Result :=
  s.guarded g none fun s =>
    let m := s.cur.mtx
    let old := Landing.s f.f1.toNat (m.rate.setWidth 64)
    if fbit f.func 2 then
      s.fly 1 [old, .energy (BitVec.ofNat 32 (min (s.cur.s' f.f2.toNat).toNat m.cap.toNat))]
    else s.fly 1 [old]

/-! ## Completion (R194 to R198, R205 to R210, R214) -/

/-- The `t` codes of one row of a tile of `m`-bit mantissas. -/
def tileRow (x : Memory) (m t tile row : Nat) : List Nat :=
  let bits := x.num ((tile * t * t + row * t) * m / 8) (t * m / 8)
  (List.range t).map fun k => bits / 2 ^ (k * m) % 2 ^ m

/-- The lowest reserved scale of a block tensor of `tiles` tiles (R46). -/
def reservedScale (scales : Memory) (tiles : Nat) : Option Nat := (List.range tiles).find? fun tile => (scales.get tile).toNat == 255

/-- The lowest reserved mantissa code, with its tile and element: tile rows of `nt` tiles, rows below `rows` (R46, R197). -/
def reservedCodeAt (elems : Memory) (m t tiles rows nt : Nat) : Option (Nat × Nat × Nat) :=
  (List.range tiles).findSome? fun tile =>
    (List.range (min t (rows - tile / nt * t))).findSome? fun r =>
      ((List.range t).zip (tileRow elems m t tile r)).findSome? fun x =>
        if reservedMant m x.2 then some (tile, r * t + x.1, x.2) else none

/-- The reserved code at the lowest address of a command's two planes (R197): tile, element (none for the scale), code. -/
def reservedCode (k : MatrixCommand) (m t : Nat) (tiles rows nt : Nat) : Option (Nat × Option Nat × Nat) :=
  match reservedScale k.scales tiles, reservedCodeAt k.elems m t tiles rows nt with
  | none, none => none
  | some x, none => some (x, none, 0)
  | none, some y => some (y.1, some y.2.1, y.2.2)
  | some x, some y =>
    if k.address + (y.1 * t * t + y.2.1) * m / 8 < k.scaleAt + x then some (y.1, some y.2.1, y.2.2) else some (x, none, 0)

/-- TVAL and lane of a reserved code (R218). -/
def reservedInfo (k : MatrixCommand) (scales : Memory) (m t : Nat) (stationary : Bool) (x : Nat × Option Nat × Nat) : Nat × Word :=
  (x.2.1.getD 0, word ((scales.get x.1).toNat + x.2.2 * 2 ^ 8 + (if x.2.1.isNone then 2 ^ 16 else 0) + stationary.toNat * 2 ^ 17 +
    (k.address + x.1 * t * t * m / 8) % 2 ^ 22 * 2 ^ 32))

/-- Put `m`-bit codes into consecutive bytes. -/
def packCodes (m : Nat) (cs : List Nat) : Nat := cs.foldr (fun c x => x * 2 ^ m + c) 0

/-- Transpose one tile of codes. -/
def tileTransposed (x : Memory) (m t tile : Nat) : List (List Nat) :=
  let rows := (List.range t).map fun r => tileRow x m t tile r
  (List.range t).map fun c => rows.map fun r => r[c]?.getD 0

/-- A block plane transposed: tile (I, K) takes tile (K, I), transposed, with its scale (R205). -/
def blockTransposed (elems scales : Memory) (m t : Nat) : Memory × Memory :=
  let nt := 128 / t
  (List.range (nt * nt)).foldl (fun (x : Memory × Memory) k =>
    let src := k % nt * nt + k / nt
    (x.1.putNum (k * t * t * m / 8) (t * t * m / 8) (packCodes m ((tileTransposed elems m t src).flatMap id)),
     x.2.put k [scales.get src])) ([], [])

/-- A plane of `w`-byte elements transposed: element (i, k) takes source (k, i). -/
def elemsTransposed (elems : Memory) (w kk : Nat) : Memory :=
  (List.range (128 * kk)).foldl (fun (x : Memory) j => x.putNum (j * w) w (elems.num ((j % kk * 128 + j / kk) * w) w)) []

/-- An element and its scale of MX data: source row and column (R206). -/
def mxAt (k : MatrixCommand) (kind r c : Nat) : Q × Flags :=
  let j := 128 * r + c
  let code := if kind == 0 then (k.elems.get (j / 2)).toNat / (if j % 2 == 0 then 1 else 16) % 16 else (k.elems.get j).toNat
  mxValue kind code (k.scales.get (4 * r + c / 32)).toNat

/-- A bq8 plane from MX data (R206). -/
def mxPlane (k : MatrixCommand) (kind t : Nat) (tr : Bool) : Memory × Memory × Flags :=
  let nt := 128 / t
  (List.range (nt * nt)).foldl (fun (x : Memory × Memory × Flags) q =>
    let vs := (List.range (t * t)).map fun e =>
      let i := q / nt * t + e / t
      let c := q % nt * t + e % t
      if tr then mxAt k kind c i else mxAt k kind i c
    let ex := mxExp (vs.map (·.1))
    let ms := vs.map fun v => mxMant v.1 ex
    (x.1.putNum (q * t * t) (t * t) (packCodes 8 (ms.map fun z => wrapBits 8 z.1)), x.2.1.put q [BitVec.ofNat 8 ex],
     ms.foldl (fun f z => f ||| z.2) (vs.foldl (fun f v => f ||| v.2) x.2.2))) ([], [], 0)

/-- Products of two lists of elements as the partial of R56. -/
def fpPartial (e : Int) (xs : List (Val × Val)) : Partial × Flags :=
  let ps := xs.map fun x => mulVal x.1 x.2
  if ps.any Val.isNan then (.nan, fNv)
  else match ps.any (fun p => p.isInf && !p.sign), ps.any (fun p => p.isInf && p.sign) with
    | true, true => (.nan, fNv)
    | true, false => (.inf false, 0)
    | false, true => (.inf true, 0)
    | false, false =>
      let q := (ps.foldl (fun (a : Q) p => a.add p.num) ⟨0, 1⟩).scale e
      (.num (q.num / q.den), 0)

/-- The partials of one output element in a floating-point mode (R56). -/
def fpPartials (st xt : Nat) (a b : List Nat) : List (Partial × Int × Flags) :=
  let k := modeBlock st
  let e := partialExp st xt
  (List.range (a.length / k)).map fun q =>
    let p := fpPartial e (((a.drop (q * k)).take k).zip ((b.drop (q * k)).take k) |>.map fun x => (fpToVal st x.1, fpToVal xt x.2))
    (p.1, e, p.2)

/-- Elements of a row of `n` elements of `w` bytes. -/
def rowElems (x : Memory) (at' w n : Nat) : List Nat :=
  let bits := x.num at' (w * n)
  (List.range n).map fun k => bits / 2 ^ (8 * w * k) % 2 ^ (8 * w)

/-- The partials of one output element in block mode (R55): rows `i` and `j` of the two operands. -/
def blockPartials (p : Plane) (k : MatrixCommand) (i j : Nat) : List (Partial × Int × Flags) :=
  let st := p.stype
  let xt := recXtype k.record
  let t := blockEdge st
  let nt := 128 / t
  let ma := blockBits st
  let mb := blockBits xt
  (List.range nt).map fun q =>
    let ta := i / t * nt + q
    let tb := j / t * nt + q
    let xs := (tileRow p.elems ma t ta (i % t)).zip (tileRow k.elems mb t tb (j % t))
    (.num (xs.foldl (fun (s : Int) x => s + mantOf ma x.1 * mantOf mb x.2) 0),
     ((p.scales.get ta).toNat : Int) + (k.scales.get tb).toNat - 254 - (ma - 1) - (mb - 1), 0)

/-- Accumulate partials in ascending k (R57, R208). -/
def accumulate (old : Word) (ps : List (Partial × Int × Flags)) : Word × Flags :=
  let r := ps.foldl (fun (x : Acc × Flags) p =>
    let y := accAdd x.1 p.1 p.2.1
    (y.1, x.2 ||| y.2 ||| p.2.2)) (Acc.ofBits old.toNat, 0)
  (word r.1.toBits, r.2)

/-- The FP64 chain of one element (R58, R209). -/
def chain64 (old : Word) (ovr : Bool) (rnd : Nat) (xs : List (Nat × Nat)) : Word × Flags :=
  let vs := xs.map fun x => (fpToVal 11 x.1, fpToVal 11 x.2)
  let step (x : Nat × Flags) (p : Val × Val) : Nat × Flags :=
    let y := roundTo (fmaVal p.1 p.2 (fpToVal 11 x.1) rnd) 11 rnd false 0
    (y.1, x.2 ||| y.2)
  let r := match ovr, vs with
    | true, v :: t => t.foldl step (roundTo (mulVal v.1 v.2) 11 rnd false 0)
    | _, vs => vs.foldl step (old.toNat, 0)
  (word r.1, r.2)

/-- A product's element (i, j) on one plane. -/
def productElem (p : Plane) (k : MatrixCommand) (old : Word) (i j : Nat) : Word × Flags :=
  let st := p.stype
  match k.kind with
  | .product64 _ _ rnd ovr => chain64 old ovr rnd ((rowElems p.elems (128 * i) 8 16).zip (rowElems k.elems (128 * j) 8 16))
  | .product _ _ ovr =>
    let start := if ovr then word (Acc.zero false).toBits else old
    if isBlockType st then accumulate start (blockPartials p k i j)
    else
      let w := typeBytes st
      accumulate start (fpPartials st (recXtype k.record) (rowElems p.elems (128 * i) w (128 / w)) (rowElems k.elems (128 * j) w (128 / w)))
  | _ => (old, 0)

/-- A product's effect on one tile: rows below `n`, every column. -/
def productTile (p : Plane) (k : MatrixCommand) (n : Nat) (t : Tile) : Tile × Flags :=
  (List.range (n * 128)).foldl (fun (x : Tile × Flags) e =>
    let r := productElem p k (t.cells.getD e t.fill) (e % 128) (e / 128)
    (x.1.put e r.1, x.2 ||| r.2)) (t, 0)

/-- One container of MSCL (R214). -/
def scaleContainer (f64 : Bool) (n : Int) (rnd : Nat) (x : Word) : Word × Flags :=
  if f64 then
    let v := match fpToVal 11 x.toNat with
      | .fin q => Val.fin (q.mul (Q.dyadic 1 n))
      | v => v
    let r := roundTo v 11 rnd false 0
    (word r.1, r.2)
  else
    let a := Acc.ofBits x.toNat
    if a.cls != 0 || a.s == 0 then (x, 0)
    else
      let e := (a.e : Int) + n
      if 4095 < e then (word (Acc.inf (decide (a.s < 0)) true).toBits, fOf ||| fNx)
      else if e < 0 then
        let t := roundShift a.s (-e).toNat
        let st := a.sticky || t * 2 ^ (-e).toNat != a.s
        (word (if t == 0 then Acc.zero st else ⟨t, 0, 0, st⟩).toBits, 0)
      else (word ({ a with e := e.toNat } : Acc).toBits, 0)

/-- Every container of a tile scaled. -/
def scaleTile (n : Int) (rnd : Nat) (t : Tile) : Tile × Flags :=
  (List.range (256 * 128)).foldl (fun (x : Tile × Flags) e =>
    let r := scaleContainer t.f64 n rnd (t.cells.getD e t.fill)
    (x.1.put e r.1, x.2 ||| r.2)) (t, 0)

/-- Raise a command's flags and its arithmetic trap (R196). The spec gives cause 19 of a matrix command no lane. DESIGN CHOICE (log 55):
TLANE is 0. -/
def State.matrixFlags (s : State) (cell : Nat) (k : MatrixCommand) (fl : Flags) : State :=
  let s1 := s.updCore cell fun c => { c with ctl := c.ctl.raise .mx fl }
  if fl &&& (s.core cell).ctl.mxe == 0 then s1
  else s1.noteFault cell k.issued .trap { cause := 19, slot := 1, lane := 0, pc := k.pc, val := arithVal fl k.opcode }

/-- A reserved code parks the core (R197). -/
def State.matrixPark (s : State) (cell : Nat) (k : MatrixCommand) (x : Nat × Word) : State :=
  s.noteFault cell k.issued .park { cause := 240, slot := 1, lane := x.1, pc := k.pc, val := x.2 }

/-- The members of a product whose residue checks fail: cell, rank and columns (R198, R202). -/
def State.residueFails (s : State) (k : MatrixCommand) : List (Nat × Nat × BitVec 128) :=
  k.planes.filterMap fun p =>
    let m := (s.core p.1).mtx
    if m.badCols == 0 then none else some (p.1, m.rank, m.badCols)

/-- Failed residue checks of the product that completes (R198): every failing column's bit is set, each member's failure counts at its
own cell, and the core that issued the product traps. Of several members the lowest rank is reported (log entry 45). -/
def State.residue (s : State) (cell : Nat) (k : MatrixCommand) : State :=
  let bad := s.residueFails k
  let s1 := bad.foldl (fun s x => ((s.updMtx x.1 fun m => { m with badCols := 0 }).updMtx cell fun m =>
    { m with resid := m.resid ||| x.2.2 }).after 0 phNet x.1 (.op (.correctedError 3 x.1 false))) s
  match bad with
  | [] => s
  | x :: _ =>
    let col := ((List.range 128).find? fun i => x.2.2.getLsbD i).getD 0
    s1.noteFault cell k.issued .trap { cause := 243, slot := 1, lane := col, pc := k.pc, val := word (col + x.2.1 * 2 ^ 8) }

/-- Write a product into the tiles of its members; the leader takes every flag (R202). The spec is silent on a product in flight when its
gang dissolves, and on one that ends with a reserved code and a failing residue check. DESIGN CHOICE (log 55): the tile of every member
that the product began with is written, and cause 243 reads a member's rank at the end, 0 once the gang has dissolved; a reserved code
leaves the residue checks to a later product. -/
def State.completeProduct (s : State) (cell : Nat) (k : MatrixCommand) (tile n : Nat) : State :=
  let xt := recXtype k.record
  let t := blockEdge xt
  let bad := if isBlockType xt then reservedCode k (blockBits xt) t (paddedRows xt n / t * (128 / t)) n (128 / t) else none
  match bad with
  | some x => s.matrixPark cell k (reservedInfo k k.scales (blockBits xt) t false x)
  | none =>
    let r := k.planes.foldl (fun (x : State × Flags) p =>
      let y := productTile p.2 k n ((x.1.core p.1).mtx.tile tile)
      (x.1.updMtx p.1 fun m => m.setTile tile y.1, x.2 ||| y.2)) (s, 0)
    (r.1.residue cell k).matrixFlags cell k r.2

/-- Fill the shadow plane (R205, R206). -/
def State.completeLoad (s : State) (cell : Nat) (k : MatrixCommand) (mx tr : Bool) : State :=
  let st := recStype k.record
  let t := blockEdge st
  let m := blockBits st
  let fill (x : Memory × Memory) : State :=
    s.updMtx cell fun z => { z with shadow := { elems := x.1, scales := x.2, valid := true, stype := st } }
  if mx then
    let r := mxPlane k (recMx k.record) t tr
    (fill (r.1, r.2.1)).matrixFlags cell k r.2.2
  else if isBlockType st then
    let nt := 128 / t
    match reservedCode k m t (nt * nt) 128 nt with
    | some x => s.matrixPark cell k (reservedInfo k k.scales m t true x)
    | none => fill (if tr then blockTransposed k.elems k.scales m t else (k.elems, k.scales.slice 0 (nt * nt)))
  else fill (if tr then elemsTransposed k.elems (typeBytes st) (modeK st) else k.elems, [])

/-- The end of one command. R210 says by when MZERO's writes complete. DESIGN CHOICE (log 55): the mode of the tile, in MSTAT.zmode,
changes with them at offset 16. -/
def State.completeCommand (s : State) (cell : Nat) (k : MatrixCommand) : State :=
  if k.abandoned then s
  else match k.kind with
    | .load mx tr => s.completeLoad cell k mx tr
    | .product tile n _ => s.completeProduct cell k tile n
    | .product64 tile n _ _ => s.completeProduct cell k tile n
    | .zero tile f64 =>
      s.updMtx cell fun m => m.setTile tile { f64, fill := if f64 then 0 else word (Acc.zero false).toBits, cells := [] }
    | .scale tile n rnd =>
      let r := scaleTile n rnd ((s.core cell).mtx.tile tile)
      (s.updMtx cell fun m => m.setTile tile r.1).matrixFlags cell k r.2

/-- MATRIX_COMMAND_END (R194): the commands of a core that end in this period. -/
def execMatrixCommandEnd (cell : Nat) (s : State) : Result :=
  let due := (s.core cell).mtx.cmds.filter fun k => decide (k.ends ≤ s.clk)
  let s1 := s.updMtx cell fun m => { m with cmds := m.cmds.filter fun k => !decide (k.ends ≤ s.clk) }
  .next (due.foldl (fun s k => s.completeCommand cell k) s1)

/-- MEBKT as a signed number, clipped to 16 × MERATE (R200, R216). -/
def clipBucket (b : Int) (rate : Nat) : Word := BitVec.ofInt 64 (min b (16 * rate))

/-- ENERGY_REFILL (R200): in a tick with TICK[9:0] = 0. -/
def execEnergyRefill (s : State) : Result :=
  .next (s.cores.keys.foldl (fun s x => s.updMtx x fun m =>
    { m with bucket := clipBucket (m.bucket.toInt + m.rate.toNat) m.rate.toNat }) s)

/-- MGANG at its offset 1 (R201). -/
def State.landGang (s : State) (cell : Nat) (mask : BitVec 4) : State :=
  let s1 := (s.dissolve cell).updMtx cell fun m => { m with mask := mask }
  let cells := maskCells cell mask
  if mask != 0 && cells.all fun x => (s1.core x).mtx.mask == mask then
    ((List.range cells.length).zip cells).foldl (fun s x => s.updMtx x.2 fun m =>
      { m with formed := true, leader := x.1 == 0, rank := x.1 }) s1
  else s1

end Sys2Proof.Machine
end

