-- ==== Sys2Proof/Machine/Fabric.lean ====
section
/-! DEFINITION. Global memory: the physical map (01_machine R16, R17), translation (14_fabric R429 to R435), the cache slices
(R423 to R428) and written-through lines (13_proof R389 to R391). -/

namespace Sys2Proof.Machine

open Sys2Proof

/-! ## The physical map (01_machine R16) -/

def hbmTop : Nat := 2 ^ 39
def inHbm (pa : Nat) : Bool := decide (pa < hbmTop)
def hostBase : Nat := 0x800000000000
def inHost (pa : Nat) : Bool := decide (hostBase ≤ pa)
def inControl (pa : Nat) : Bool := decide (0x040000000000 ≤ pa) && decide (pa < 0x050000000000)
def inVault (pa : Nat) : Bool := decide (0x010000000000 ≤ pa) && decide (pa < 0x010000000000 + 40 * 2 ^ 26)
/-- A core-store step, the hole at its top included. -/
def inStoreStep (pa : Nat) : Bool := decide (0x020000000000 ≤ pa) && decide (pa < 0x020000000000 + 320 * 2 ^ 22)
def inScratch (pa : Nat) : Bool := decide (0x030000000000 ≤ pa) && decide (pa < 0x030000000000 + 320 * 2 ^ 19)
/-- Cell of a core-store or scratchpad address. -/
def storeCell (pa : Nat) : Nat := (pa - 0x020000000000) / 2 ^ 22
def scratchCell (pa : Nat) : Nat := (pa - 0x030000000000) / 2 ^ 19

/-- Every byte of a range lies in one region of the map, in no hole. -/
def mapped (pa n : Nat) : Bool :=
  let last := pa + n - 1
  (inHbm pa && inHbm last) || (inVault pa && inVault last) || (inScratch pa && inScratch last) || (inControl pa && inControl last) ||
  (inHost pa && decide (last < 2 ^ 48)) ||
  (inStoreStep pa && inStoreStep last && storeCell pa == storeCell last && decide ((last - 0x020000000000) % 2 ^ 22 < coreStoreSize))

/-- Whether a range meets what a context may not map (R15, R17, R470). -/
def State.mapRefused (s : State) (ctx pa n : Nat) : Bool :=
  if ctx == 0 then false
  else
    let last := pa + n - 1
    if inControl pa then true
    else if inStoreStep pa then !s.holds ctx (storeCell pa)
    else if inScratch pa then
      (List.range (scratchCell last + 1 - scratchCell pa)).any fun i => !s.holds ctx (scratchCell pa + i)
    else if inVault pa then
      let first := (pa - 0x010000000000) / 2 ^ 25
      (List.range ((last - 0x010000000000) / 2 ^ 25 + 1 - first)).any fun i => !(s.ctx ctx).quads.getLsbD (first + i)
    else false

/-! ## Proof ranges (14_fabric R430) -/

/-- A registered range: first byte and bytes. -/
def rangeBytes (r : Nat × Nat) : Nat × Nat := (r.1 * 2 ^ 21, r.2 * 2 ^ 21)

def Context.proofRanges (x : Context) : List (Nat × Nat) := (x.ranges.toList.map rangeBytes).filter fun r => r.2 != 0

/-- Ranges meet. -/
def meets (a n b m : Nat) : Bool := decide (a < b + m) && decide (b < a + n) && decide (0 < n) && decide (0 < m)

/-- The context whose proof range holds a byte. -/
def State.proofOwner (s : State) (pa : Nat) : Option Nat :=
  (s.pkg.ctxs.find? fun c => c.2.proofRanges.any fun r => decide (r.1 ≤ pa) && decide (pa < r.1 + r.2)).map (·.1)

/-- A leaf breaks R430. -/
def State.proofLeafBad (s : State) (ctx pa n : Nat) (proof : Bool) : Bool :=
  if proof then
    !inHbm pa || !((s.ctx ctx).proofRanges.any fun r => decide (r.1 ≤ pa) && decide (pa + n ≤ r.1 + r.2))
  else s.pkg.ctxs.any fun c => c.2.proofRanges.any fun r => meets pa n r.1 r.2

/-! ## Walks (14_fabric R431, R432) -/

def eP (e : Nat) : Bool := fld (word e) 0 1 == 1
def eLeaf (e : Nat) : Bool := fld (word e) 1 1 == 1
def eC64 (e : Nat) : Bool := fld (word e) 5 1 == 1
def ePa (e : Nat) : Nat := fld (word e) 12 36 * 4096

/-- The format check of an entry at a level, its 64 KiB group apart. -/
def entryBad (level e : Nat) : Bool :=
  let w := word e
  let lf := eLeaf e
  fld w 48 16 != 0 || fld w 6 6 != 0 || (lf && level == 4) || (!lf && level == 1) || (!lf && fld w 2 4 != 0) ||
  (eC64 e && level != 1) || (!lf && !inHbm (ePa e)) ||
  (lf && ePa e % (if level == 3 then 2 ^ 30 else if level == 2 then 2 ^ 21 else if eC64 e then 2 ^ 16 else 4096) != 0)

/-- The checks of a leaf against an access (R432, last three rows). -/
def CachedLeaf.admits (l : CachedLeaf) (write fetch : Bool) : Option Nat :=
  if write && !l.w then some 65 else if fetch && !l.x then some 66 else none

/-- A cached leaf that covers an address. -/
def State.cachedLeaf (s : State) (plate ctx va : Nat) : Option CachedLeaf :=
  s.pkg.cached.find? fun l => l.plate == plate && l.ctx == ctx && decide (l.base ≤ va) && decide (va < l.base + l.size)

/-- Physical address of a byte under a leaf. -/
def CachedLeaf.phys (l : CachedLeaf) (va : Nat) : Nat := l.pa + va % l.size

/-- Translation that needs no walk: from the cache, or refused before any table is read (R429, R431). -/
def State.translateNow (s : State) (plate ctx va : Nat) (write fetch : Bool) : Option (Except Nat Nat) :=
  if 2 ^ 48 ≤ va then some (.error 48)
  else if !(s.ctx ctx).xen then some (.error 64)
  else match s.cachedLeaf plate ctx va with
    | some l => match l.admits write fetch with
      | some c => some (.error c)
      | none => some (.ok (l.phys va))
    | none => none

/-- Busy walkers of a plate (R433). -/
def State.walkers (s : State) (plate : Nat) : Nat := (s.walks.filter fun w => w.2.plate == plate && w.2.started).length

/-- Start a walk, or let it wait for one of the 64 walkers. -/
def State.startWalk (s : State) (plate ctx va : Nat) (write fetch : Bool) (user : WalkUser) : State :=
  let id := s.nextId
  let go := decide (s.walkers plate < 64)
  let w : Walk := { plate, ctx, va, write, fetch, user, started := go, caches := true }
  let s1 := { s with walks := s.walks.set id w, nextId := id + 1 }
  if go then
    let d := s1.drawDelay
    d.2.after d.1 phNet 0 (.op (.tableWalk id))
  else s1

/-- A leaf enters its plate's cache: sixteen slices of 4,096 leaves, by the page number; the oldest of a full slice goes (R433, log
entry 26). -/
def cacheLeaf (l : CachedLeaf) (ls : List CachedLeaf) : List CachedLeaf :=
  let mate (x : CachedLeaf) : Bool := x.plate == l.plate && x.base / 4096 % 16 == l.base / 4096 % 16
  l :: (if (ls.filter mate).length < 4096 then ls else (ls.reverse.eraseP mate).reverse)

/-- A walk ends: what it found is cached, and the oldest waiting walk of its plate starts. -/
def State.endWalk (s : State) (id : Nat) (w : Walk) (r : Except Nat CachedLeaf) : State :=
  let s1 := { s with walks := s.walks.erase id }
  let s2 := match r with
    | .ok l => if w.caches then s1.updPkg fun k => { k with cached := cacheLeaf l k.cached } else s1
    | .error _ => s1
  match s2.walks.find? fun x => x.2.plate == w.plate && !x.2.started with
  | none => s2
  | some x =>
    let d := { s2 with walks := s2.walks.set x.1 { x.2 with started := true } }.drawDelay
    d.2.after d.1 phNet 0 (.op (.tableWalk x.1))

/-! ## Slices (R423 to R428) -/

/-- Whether a feature of 16_host R462 is agreed. -/
def State.feature (s : State) (n : Nat) : Bool := s.mgmt.agreed.getLsbD n

def lineOf (pa : Nat) : Nat := pa / 64 * 64

/-- Exclusive or of two four-bit numbers. -/
def xor4 (a b : Nat) : Nat := (a % 16) ^^^ (b % 16)

/-- The slice that serves a line of HBM or host memory, as 16 × plate + slice (R423). -/
def sliceOf (pa : Nat) : Nat :=
  if inHbm pa then pa / 2 ^ 37 * 16 + xor4 (pa / 2 ^ 6) (pa / 2 ^ 10)
  else pa / 2 ^ 6 % 4 * 16 + xor4 (pa / 2 ^ 8) (pa / 2 ^ 12)

/-- Whether a plate is between steps 2 and 5 of its reset (13_proof R393). -/
def State.resetting (s : State) (plate : Nat) : Bool := s.pkg.resets.any fun r => r.plate == plate && decide (2 < r.step)

def State.slice (s : State) (k : Nat) : Slice := s.pkg.slices.getD k Slice.reset
def State.updSlice (s : State) (k : Nat) (f : Slice → Slice) : State :=
  s.updPkg fun p => { p with slices := p.slices.set k (f (s.slice k)) }

/-- Keep what HBM holds in a line that is about to differ from it. -/
def State.keepOld (s : State) (line : Nat) : State :=
  if inHbm line && (s.hbmOld.get? line).isNone then
    { s with hbmOld := s.hbmOld.set line (BitVec.ofNat 512 (s.mem.num line 64)) }
  else s

/-- A line of HBM holds the coherent contents again. -/
def State.settled (s : State) (line : Nat) : State := { s with hbmOld := s.hbmOld.erase line }

/-- The plate whose stacks hold a line of HBM. -/
def stackPlate (line : Nat) : Nat := line / 2 ^ 37

/-- Ask for a dynamic slot of a plate's stacks (09_windows R270). -/
def State.askHbm (s : State) (line : Nat) (j : HbmJob) : State :=
  s.updPlate (stackPlate line) fun p => { p with dyn := p.dyn ++ [j] }

/-- A line leaves every sweep (R427): it is written, or zero in HBM. -/
def Slice.leaveSweep (x : Slice) (line : Nat) : Slice := { x with dead := x.dead.map fun d => (d.1, d.2.erase line) }

/-- A write-back reaches HBM (R426); a line of a sweep is swept. -/
def State.drainLine (s : State) (k line : Nat) : State :=
  (s.settled line).updSlice k fun x =>
    { x.leaveSweep line with buffer := x.buffer.erase line, dirty := x.dirty.erase line, granted := x.granted.erase line }

/-- An evicted dirty line moves into the write-back buffer and asks for its slot. A line of a proof range never waits there (R426,
13_proof R389). -/
def State.pushBack (s : State) (k line : Nat) : State :=
  let s1 := s.updSlice k fun x => { x with ways := x.ways.erase line, dirty := x.dirty.erase line }
  if (s1.proofOwner line).isSome then s1.drainLine k line
  else (s1.updSlice k fun x => { x with buffer := x.buffer ++ [line] }).askHbm line (.back k line)

/-- Ways of a set of a slice (R424). -/
def Slice.setWays (x : Slice) (line : Nat) : List Nat := x.ways.filter fun l => l / 2 ^ 10 % 4096 == line / 2 ^ 10 % 4096

/-- The line that leaves a full set for another: the oldest, or the oldest clean one when the write-back buffer is full. -/
def Slice.victim (x : Slice) (line : Nat) : Option Nat :=
  let set := x.setWays line
  if set.length < 16 then none
  else if x.buffer.length < 64 then set.head?
  else set.find? (fun l => !x.dirty.contains l) <|> set.head?

/-- Whether a line may take a way now: not while its set is full of dirty lines and the write-back buffer is full, when evictions wait
(R426). -/
def Slice.canTake (x : Slice) (line : Nat) : Bool :=
  x.ways.contains line || x.buffer.length < 64 || !((x.victim line).any fun l => x.dirty.contains l)

/-- A line takes a way of its set; a line leaves a full set, through the write-back buffer when it is dirty (R424, R426). -/
def State.takeWay (s : State) (k line : Nat) : State :=
  let x := s.slice k
  if x.ways.contains line then s
  else
    let s1 := match x.victim line with
      | none => s
      | some old => if x.dirty.contains old then s.pushBack k old else s.updSlice k fun x => { x with ways := x.ways.erase old }
    s1.updSlice k fun x => { x with ways := x.ways ++ [line] }

/-- Send a written-through line to its stack, in a dynamic slot (13_proof R391, 09_windows R270). -/
def State.through (s : State) (line ctx agent order : Nat) : State :=
  let id := s.nextId
  let w : WriteThrough := { line, data := BitVec.ofNat 512 (s.mem.num line 64), ctx, agent, order, reached := false }
  { s with throughs := s.throughs.set id w, nextId := id + 1 }.askHbm line (.through id line)

/-- A written-through line has its slot: its stack has it, and acknowledges in order (R391). -/
def State.throughReaches (s : State) (id : Nat) : State :=
  match s.throughs.get? id with
  | none => s
  | some w =>
    let d := { s with throughs := s.throughs.set id { w with reached := true } }.drawDelay
    let k := 2 ^ 30 + w.line / 2 ^ 36
    let due := max (d.2.clk + d.1) (d.2.lastSent.getD k 0)
    { d.2 with lastSent := d.2.lastSent.set k due }.at' due phNet 0 (.op (.writeThroughAck id))

/-- Whether a seal holds writes to a line (13_proof R402). -/
def State.isHeld (s : State) (line : Nat) : Bool := s.held.any fun r => meets line 64 r.1 r.2

/-- Whether a line holds data with an uncorrectable error: poison is kept by line, and in scratchpads by word of 8 bytes. -/
def State.linePoisoned (s : State) (line : Nat) : Bool := s.pkg.poison.any fun w => decide (line ≤ w) && decide (w < line + 64)

/-- A write of a whole line clears its poison (R428). -/
def State.cleansed (s : State) (line : Nat) : State :=
  s.updPkg fun p => { p with poison := p.poison.filter fun w => !(decide (line ≤ w) && decide (w < line + 64)) }

/-- The bookkeeping of a write to one line at its slice, after the bytes are in `mem`: written through on a proof line, else dirty in
its slice, or newer in the write-back buffer where it waits there; a burst of the stream unit goes to HBM at once. -/
def State.noteWrite (s : State) (line agent order : Nat) (whole stream : Bool) : State :=
  if !(inHbm line || inHost line) then if whole then s.cleansed line else s
  else
    let k := sliceOf line
    let s1 := s.updSlice k fun x => x.leaveSweep line
    let s2 := if whole then s1.cleansed line else s1
    if !inHbm line then s2
    else match s2.proofOwner line with
      | some ctx => s2.through line ctx agent order
      | none =>
        if stream then (s2.settled line).updSlice k fun x => { x with dirty := x.dirty.erase line, buffer := x.buffer.erase line }
        else if (s2.slice k).buffer.contains line then s2
        else (s2.takeWay k line).updSlice k fun x => { x with dirty := insertNat line x.dirty }

/-- Write bytes inside one line of the physical map at its point (04_ordering R94). A written scratchpad word is poisoned no longer
(11_barrel_traps R343). -/
def State.writePhys (s : State) (pa n x agent order : Nat) (stream : Bool) : State :=
  let line := lineOf pa
  let s1 := s.keepOld line
  let s2 := { s1 with mem := s1.mem.putNum pa n x }
  if inScratch pa then s2.updPkg fun p => { p with poison := p.poison.filter fun w => !(decide (pa < w + 8) && decide (w < pa + n)) }
  else s2.noteWrite line agent order (n == 64) stream

/-- The agents of write-throughs (13_proof R391, R395): a timed core, a barrel thread by its name, the keeper, and the mailbox engine, whose
writes no release covers. -/
def timedAgent (cell : Nat) : Nat := cell * 128
def threadAgent (uid : Nat) : Nat := 320 * 128 + uid
/-- The agent of a core's earlier program, whose write-throughs and releases are its own (log entry 31). -/
def formerAgent (cell n : Nat) : Nat := (2 ^ 64 + n) * 65536 + cell * 128 + 3
def keeperAgent : Nat := 1
def mailboxAgent : Nat := 2

/-- A new program takes a core: what the old one wrote through, and its recovery releases, go on under a name of their own (13_proof
R391, R395, R396), and its posted stores count for it no longer (04_ordering R102). -/
def State.newOwner (s : State) (cell : Nat) : State :=
  let a := timedAgent cell
  let b := formerAgent cell s.nextId
  let through (w : WriteThrough) : WriteThrough := if w.agent == a then { w with agent := b } else w
  let mirror (m : MirrorLine) : MirrorLine := if m.agent == a then { m with agent := b } else m
  let release (r : Release) : Release := if r.agent == a then { r with agent := b, live := false } else r
  let remote (r : RemoteStore) : RemoteStore := if r.source == cell then { r with counted := false } else r
  { s with nextId := s.nextId + 1, throughs := s.throughs.map fun (w : Nat × WriteThrough) => (w.1, through w.2)
           remotes := s.remotes.map fun (r : Nat × RemoteStore) => (r.1, remote r.2)
           mirrors := s.mirrors.map fun (m : Nat × MirrorLine) => (m.1, mirror m.2), releases := s.releases.map release }

/-- Write consecutive bytes of the physical map, line by line. -/
def State.writeBytes (s : State) (pa agent order : Nat) : List Byte → State
  | [] => s
  | b :: bs => (s.writePhys pa 1 b.toNat agent order false).writeBytes (pa + 1) agent order bs

/-- Whether a line of a discard is written with zeros, as its slice notes it in no dead-range entry: it lies outside HBM or in a proof
range, or the table is full (08_copy R241). -/
def State.discardWrites (s : State) (id line : Nat) (fallen : Bool) : Bool :=
  let x := s.slice (sliceOf line)
  !inHbm line || (s.proofOwner line).isSome || fallen || (!(x.dead.any fun d => d.1 == id) && 16 ≤ x.dead.length)

/-- Drop every write-back of a line and note its zeros in a dead-range entry, or write them (08_copy R241): whether the slice took
the discard's entry, and the state. -/
def State.discardLine (s : State) (id line agent order : Nat) (fallen : Bool) : Bool × State :=
  let s1 := s.keepOld line
  let s2 := { s1 with mem := s1.mem.putNum line 64 0 }
  let k := sliceOf line
  let x := s2.slice k
  if s2.discardWrites id line fallen then
    (!inHbm line || (s2.proofOwner line).isSome, s2.noteWrite line agent order true false)
  else
    let dead := if x.dead.any fun d => d.1 == id then x.dead.map fun d => if d.1 == id then (id, insertNat line d.2) else d else x.dead ++ [(id, [line])]
    (true, (s2.updSlice k fun y => { y with dead, dirty := y.dirty.erase line, buffer := y.buffer.erase line }).updPkg fun p =>
      { p with poison := p.poison.erase line })

/-- Whether the discard that an entry of a dead-range table belongs to has recorded its whole range: its copy has performed. -/
def State.rangeWhole (s : State) (id : Nat) : Bool := !s.cores.any fun c => c.2.cpy.tagged.any fun t => t.id == id

/-- Whether a slice can serve a line without fetching it. -/
def Slice.hasLine (x : Slice) (line : Nat) : Bool :=
  x.ways.contains line || x.buffer.contains line || x.dead.any fun d => d.2.contains line

/-- A slice asks for a line: a packet of class 0 (R421). The spec puts a stack at no router; its slices reach it at their own (log entry 5). -/
def State.fetchLine (s : State) (k line : Nat) : State :=
  let here := sliceRouter (k / 16) (k % 16)
  (s.updSlice k fun x => { x with misses := x.misses ++ [line] }).send here (if inHbm line then here else portDie) 0 phNet k (.miss k line)

/-- A miss has come to the stack below its slice, which serves it in a dynamic slot (R425), or to the host, which answers in its own time
(log entry 5). -/
def State.missArrives (s : State) (k line : Nat) : State :=
  if inHbm line then s.askHbm line (.fill k line)
  else s.send portDie (sliceRouter (k / 16) (k % 16)) 1 phNet k (.op (.sliceFill k line))

/-- Whether an access finds its line, or needs none: host memory is uncached unless hostcache is agreed (16_host R462). -/
def State.lineReady (s : State) (k line : Nat) : Bool := (s.slice k).hasLine line || (inHost line && !s.feature 0)

/-! ## Who waits at a slice (R424, 13_proof R402) -/

/-- Whether a request writes at its address. -/
def RequestKind.writes (k : RequestKind) : Bool :=
  match k with
  | .store .. | .lde .. | .ste .. | .amo .. | .cas .. | .wst .. | .wpost .. | .taskGet .. | .unit _ (some _) => true
  | _ => false

/-- The line that a user of a slice accesses, and whether it writes it; none when the user has gone. -/
def State.userLine (s : State) (u : SliceUser) : Option (Nat × Bool) :=
  match u with
  | .request id => (s.requests.get? id).map fun r => (lineOf r.pa, r.kind.writes)
  | .line cell line => ((s.core cell).cpy.tagged.findSome? fun t => t.lines.find? fun l => l.id == line).map fun l =>
      (lineOf l.physical, l.read)

/-- An earlier access to the line of a user still waits at its slice; a held write (13_proof R402) keeps no read waiting. -/
def State.lineBusy (s : State) (k : Nat) (u : SliceUser) (line : Nat) (write : Bool) : Bool :=
  ((s.slice k).waiting.takeWhile (· != u)).any fun q => match s.userLine q with
    | some x => x.1 == line && !(x.2 && !write && s.isHeld line)
    | none => false

/-- Let the accesses that wait at a slice look again, in their order. -/
def State.sliceAgain (s : State) (k : Nat) : State :=
  let us := (s.slice k).waiting.filter fun u => (s.userLine u).isSome
  us.foldl (fun s u => match u with
    | .request id => s.after 0 phNet 0 (.op (.sliceRequest id))
    | .line cell line => s.after 0 phNet 0 (.op (.taggedCopyLine cell line))) (s.updSlice k fun x => { x with waiting := us })

/-- WRITE_BACK_DRAIN (R426): the lines of the buffer that have had their slot are in HBM. What waits for room looks again, then the sweep
goes on. -/
def execWriteBackDrain (k : Nat) (s : State) : Result :=
  let x := s.slice k
  let s1 := (((x.granted.filter x.buffer.contains).foldl (fun s l => s.drainLine k l) s).updSlice k fun x => { x with granted := [] }).sliceAgain k
  .next (if x.dead.isEmpty then s1 else s1.after 0 phDispatch k (.op (.deadRangeSweep k)))

/-- The lines of a slice that its sweep takes next: of ranges whose discard has performed, the oldest first, in ascending address (R427). -/
def State.nextSwept (s : State) (k : Nat) : List Nat :=
  let x := s.slice k
  ((x.dead.filter fun d => s.rangeWhole d.1).flatMap (·.2)).filter fun l => !x.buffer.contains l

/-- A line of a sweep enters the write-back buffer, once. -/
def State.sweepLine (s : State) (k line : Nat) : State :=
  if (s.slice k).buffer.contains line then s
  else (s.updSlice k fun x => { x with buffer := x.buffer ++ [line] }).askHbm line (.back k line)

/-- DEAD_RANGE_SWEEP (R427): lines of the sweep fill the write-back buffer, whose 64 lines reach every channel; a swept entry is freed. -/
def execDeadRangeSweep (k : Nat) (s : State) : Result :=
  let s1 := ((s.nextSwept k).take (64 - (s.slice k).buffer.length)).foldl (fun s l => s.sweepLine k l) s
  .next (s1.updSlice k fun y => { y with dead := y.dead.filter fun d => !(d.2.isEmpty && s.rangeWhole d.1) })

/-- An access waits at its slice. -/
def State.sliceWaits (s : State) (k : Nat) (u : SliceUser) : State :=
  if (s.slice k).waiting.contains u then s else s.updSlice k fun x => { x with waiting := x.waiting ++ [u] }

/-- An access has been served: those behind it look again. -/
def State.sliceServed (s : State) (k : Nat) (u : SliceUser) : State :=
  let s1 := s.updSlice k fun x => { x with waiting := x.waiting.erase u }
  if (s1.slice k).waiting.isEmpty then s1 else s1.sliceAgain k

/-- Whether a write waits for a way: its line takes none now (R426). A line of a proof range or of the host's memory needs none, nor one
that waits in the write-back buffer. -/
def State.wantsWay (s : State) (k line : Nat) : Bool :=
  inHbm line && (s.proofOwner line).isNone && !(s.slice k).buffer.contains line && !(s.slice k).canTake line

/-- Whether an access must wait at its slice: behind another to its line, as a held write, for a way that it dirties, or while its plate is
being reset (13_proof R393). -/
def State.sliceHolds (s : State) (k : Nat) (u : SliceUser) (line : Nat) (write dirties : Bool) : Bool :=
  s.lineBusy k u line write || (write && s.isHeld line) || (dirties && s.wantsWay k line) || s.resetting (k / 16)

/-- The router of the point of an address (R419, R471). -/
def pointRouter (pa : Nat) : Nat :=
  if inHbm pa || inHost pa then sliceRouter (sliceOf pa / 16) (sliceOf pa % 16)
  else if inVault pa then routerOf ((pa - 0x010000000000) / 2 ^ 23)
  else if inStoreStep pa then routerOf (storeCell pa)
  else if inScratch pa then routerOf (scratchCell pa)
  else portDie

end Sys2Proof.Machine
end

