-- ==== Sys2Proof/Machine/Order.lean ====
section
/-! DEFINITION. Relaxed reading (04_ordering R94, R104 to R108): the scopes, the writes that an agent may still read past, and the
releases that stand in memory (log entry 48). -/

namespace Sys2Proof.Machine

open Sys2Proof

/-! ## Scopes (R104) -/

/-- The cell, the cluster and the plate that an agent belongs to, if any. -/
def Agent.cell? : Agent → Option Nat
  | .thread c _ | .engines c => some c
  | _ => none
def Agent.cluster? : Agent → Option Nat
  | .thread c _ | .engines c => some (clusterOf c)
  | .suffix k => some k
  | _ => none
def Agent.plate? : Agent → Option Nat
  | .thread c _ | .engines c => some (plateOf c)
  | .suffix k => some (k / 10)
  | .plate p => some p
  | _ => none
/-- A thread, as the core scope asks for. -/
def Agent.isThread : Agent → Bool
  | .thread .. => true
  | _ => false

/-- Whether agent `b` lies inside a scope as seen from agent `a` (R104). -/
def inScope (scope : Nat) (a b : Agent) : Bool :=
  match scope with
  | 0 => b == a
  | 1 => b.isThread && a.isThread && b.cell? == a.cell?
  | 2 => a.cell?.isSome && b.cell? == a.cell?
  | 3 => a.cluster?.isSome && b.cluster? == a.cluster?
  | 4 => a.plate?.isSome && b.plate? == a.plate?
  | 5 => b != .host
  | _ => true

/-- Whether two agents lie in each other's scopes, as R106 asks of a release and an acquire. -/
def scopesMeet (a : Agent) (sa : Nat) (b : Agent) (sb : Nat) : Bool := inScope sa a b && inScope sb b a

/-! ## Writes that may still be read past (R94, R107) -/

/-- The agents that may read past a write, by their numbers: the threads, and the mailbox engine (R114). -/
def State.readers (s : State) : List Nat := mailboxAgent :: s.barrels.flatMap fun b => b.2.threads.map fun t => threadAgent t.2.uid

/-- An agent can read past some writes no longer. -/
def State.shut (s : State) (who : Nat) (p : PastWrite → Bool) : State :=
  let shut (w : PastWrite) : PastWrite := if p w then { w with open' := w.open'.erase who } else w
  { s with past := (s.past.map shut).filter fun w => !w.open'.isEmpty }

/-- What an agent reads from now on performs after the writes of a number below `upTo`. -/
def State.catchUp (s : State) (who upTo : Nat) : State := s.shut who fun w => decide (w.id < upTo)

/-- An agent has read or written the latest bytes of a range: it reads nothing older there (R94). -/
def State.sees (s : State) (who pa len : Nat) : State := s.shut who fun w => meets w.pa w.len pa len

/-- An agent has gone. -/
def State.forget (s : State) (who : Nat) : State := s.shut who fun _ => true

/-- A read as it looks back: the memory it sees, the writes it has seen, and the oldest write it has passed. -/
structure Look where
  state  : State
  mem    : Memory
  seen   : List PastWrite
  passed : Option Nat

/-- Look back over past writes, the newest first. Each that the agent may pass, and that nothing newer hides, it passes or sees by a free
value (log entry 48). -/
def lookBack (who pa len : Nat) : List PastWrite → Look → Look
  | [], l => l
  | w :: ws, l =>
    if !meets w.pa w.len pa len then lookBack who pa len ws l
    else if w.open'.contains who && !(l.seen.any fun x => meets x.pa x.len w.pa w.len) && l.mem.num w.pa w.len == w.new then
      let v := l.state.drawValue
      lookBack who pa len ws (if v.1 % 2 == 1 then { l with state := v.2, mem := l.mem.putNum w.pa w.len w.old, passed := some w.id }
        else { l with state := v.2, seen := w :: l.seen })
    else lookBack who pa len ws { l with seen := w :: l.seen }

/-- What a plain read takes: its value where the latest is `v`, the number below which every write had performed when it read, whether
it read the latest, and the state. -/
structure Taken where
  value  : Nat
  upTo   : Nat
  latest : Bool
  state  : State

/-- A plain read of an agent (R94, R107): the latest value, or an older one that nothing forbids it. -/
def State.takes (s : State) (who pa len v : Nat) : Taken :=
  let l := lookBack who pa len s.past.reverse { state := s, mem := s.mem, seen := [], passed := none }
  let s1 := l.state.shut who fun w => l.seen.any fun x => x.id == w.id
  match l.passed with
  | none => { value := v, upTo := s.nextId, latest := true, state := s1 }
  | some n => { value := l.mem.num pa len, upTo := n, latest := false, state := s1 }

/-! ## Releases in memory (R106, R108) -/

/-- The releases whose value, or that of an atomic that follows them, a range holds. -/
def State.marksAt (s : State) (pa len : Nat) : List ReleaseMark :=
  s.marks.filter fun m => meets m.pa m.len pa len && s.mem.num m.pa m.len == m.value

/-- A write has performed, over `before`: other agents may read past it; an atomic keeps the releases that it follows (R106), another
write takes their place; `scope` is its own as a release. -/
def State.logged (s : State) (before : Memory) (agent : Agent) (who pa len : Nat) (atomic : Bool) (scope : Option Nat) : State :=
  let value := s.mem.num pa len
  let s1 := s.sees who pa len
  let left := s.readers.erase who
  let w : PastWrite := { id := s.nextId, agent, pa, len, old := before.num pa len, new := value, open' := left }
  let follow (m : ReleaseMark) : Option ReleaseMark :=
    if !meets m.pa m.len pa len then some m
    else if atomic && before.num m.pa m.len == m.value then some { m with value := s.mem.num m.pa m.len }
    else none
  let own : List ReleaseMark := match scope with
    | some k => [{ pa, len, value, agent, scope := k }]
    | none => []
  { s1 with nextId := s.nextId + 1, past := if left.isEmpty then s1.past else s1.past ++ [w], marks := s.marks.filterMap follow ++ own }

end Sys2Proof.Machine
end

