-- ==== Sys2Proof/Machine/Units.lean ====
section
/-! DEFINITION. How the machine's own units reach memory (14_fabric R421, R424, R431 to R433): their translations take walkers, their reads
and writes are packets that take their turns at the point of their address. What a unit does is said as one function of what it has gathered
so far; where it lacks a translation or a piece of memory it asks for it, and begins again when that has come. -/

namespace Sys2Proof.Machine

open Sys2Proof

/-- Why a unit stops in what it does: a fault, its cause and TVAL; it lacks the translation of a page, or a piece of memory; or it looks
again later. -/
inductive UnitStop where
  | fault (cause : Nat) (val : Word)
  | page (plate ctx va : Nat) (write : Bool)
  | piece (pa len : Nat)
  | later
  deriving DecidableEq, Repr

/-! ## Where a unit sits -/

/-- The cell that stands for a unit in its requests, 320 for one of the port die. The spec puts a plate's translation unit and supervisor at
no router: the plate's first cell stands for them (log entry 5). -/
def MemUnit.cell (walks : Table Walk) (u : MemUnit) : Nat :=
  match u with
  | .walk id => (walks.get? id).elim 0 fun w => 80 * w.plate
  | .suffix c => 8 * c
  | .keeper _ | .mailbox => 320
  | .args p _ | .resume p _ => 80 * p
  | .image c => c

/-- The router of a cell that stands for a unit. -/
def unitRouter (cell : Nat) : Nat := if cell < 320 then routerOf cell else portDie

/-- The router to which a request's answer returns. -/
def Request.home (r : Request) : Nat := unitRouter r.cell

/-! ## What a unit has gathered -/

def State.unitJob (s : State) (u : MemUnit) : UnitJob := (s.units.find? fun j => j.user == u).getD (UnitJob.fresh u)
def State.dropUnit (s : State) (u : MemUnit) : State := { s with units := s.units.filter fun j => j.user != u }
def State.setUnit (s : State) (j : UnitJob) : State := { s with units := (s.dropUnit j.user).units ++ [j] }

/-- A unit at work on what it has gathered; a forced one reaches memory at once. -/
def State.asUnit (s : State) (u : MemUnit) (force : Bool) : State := { s with curU := { job := s.unitJob u, force, writes := [] } }

/-- Poison of a piece (11_barrel_traps R343). -/
def State.isPoison (s : State) (pa : Nat) : Bool := s.pkg.poison.contains (if inScratch pa then pa / 8 * 8 else lineOf pa)

/-- A range cut at the multiples of `n`: first bytes and lengths. -/
def cutRange (n a len : Nat) : List (Nat × Nat) :=
  (List.range ((a + len + n - 1) / n - a / n)).map fun i =>
    let lo := max a ((a / n + i) * n)
    (lo, min (a + len) ((a / n + i + 1) * n) - lo)

/-- The pieces in which a physical range inside one line is accessed: the words of a scratchpad, else the whole range. -/
def piecesOf (pa len : Nat) : List (Nat × Nat) := if inScratch pa then cutRange 8 pa len else [(pa, len)]

/-- A value with what the unit has written over it since. -/
def overlaid (pa len : Nat) (ws : List WritePiece) (x : Nat) : Nat :=
  ws.foldl (fun x w => (List.range len).foldl (fun x i =>
    if w.pa ≤ pa + i ∧ pa + i < w.pa + w.len then
      x - x / 2 ^ (8 * i) % 256 * 2 ^ (8 * i) + w.x / 2 ^ (8 * (pa + i - w.pa)) % 256 * 2 ^ (8 * i)
    else x) x) x

/-- Whether the stacks of an address are held by the reset of their plate (13_proof R393). -/
def State.stackHeld (s : State) (pa : Nat) : Bool := inHbm pa && s.resetting (stackPlate pa)

/-- The unit at work reads a piece: its value, and whether it is poisoned. -/
def State.unitLoad (s : State) (pa len : Nat) : Except UnitStop (Nat × Bool) :=
  let u := s.curU
  let anew := inScratch pa && u.writes.any fun w => meets w.pa w.len pa len
  match u.job.reads.find? fun p => p.pa == pa && p.len == len with
  | some p => .ok (overlaid pa len u.writes p.x, p.bad && !anew)
  | none =>
    if !u.force then .error (.piece pa len)
    else if s.stackHeld pa then .error .later
    else .ok (overlaid pa len u.writes (s.mem.num pa len), s.isPoison pa && !anew)

/-- The unit at work writes a piece. -/
def State.unitStore (s : State) (pa len x : Nat) : State :=
  { s with curU := { s.curU with writes := s.curU.writes ++ [{ pa, len, x }] } }

/-! ## Walks (14_fabric R431, R432) -/

/-- A translation: its leaf, or its fault's cause. -/
abbrev Walked := Except Nat CachedLeaf

/-- The sixteen entries of a 64 KiB group, as one number, are alike. -/
def groupAlike (group e : Nat) : Bool := (List.range 16).all fun i => group / 2 ^ (64 * i) % 2 ^ 64 == e

def State.leafChecked (s : State) (plate ctx va size pa e : Nat) (write fetch : Bool) : Walked :=
  let l : CachedLeaf := { plate, ctx, base := va / size * size, size, pa, w := fld (word e) 2 1 == 1, x := fld (word e) 3 1 == 1,
                          proof := fld (word e) 4 1 == 1 }
  if !mapped pa size then .error 67
  else if s.mapRefused ctx pa size || s.proofLeafBad ctx pa size l.proof then .error 49
  else match l.admits write fetch with
    | some c => .error c
    | none => .ok l

/-- The walk from a table at a level down. A 64 KiB leaf reads both lines of its group (R431, R435). -/
def State.walkFrom (s : State) (plate ctx va : Nat) (write fetch : Bool) : Nat → Nat → Except UnitStop Walked
  | 0, _ => .ok (.error 68)
  | level + 1, table => do
    let at' := table + 8 * (va / 2 ^ (12 + 9 * level) % 512)
    let r ← s.unitLoad at' 8
    if r.2 then return .error 380
    else if !eP r.1 then return .error 64
    else if entryBad (level + 1) r.1 then return .error 68
    else if !eLeaf r.1 then s.walkFrom plate ctx va write fetch level (ePa r.1)
    else if !eC64 r.1 then return s.leafChecked plate ctx va (2 ^ (12 + 9 * level)) (ePa r.1) r.1 write fetch
    else
      let a ← s.unitLoad (at' / 128 * 128) 64
      let b ← s.unitLoad (at' / 128 * 128 + 64) 64
      if a.2 || b.2 then return .error 380
      else if !groupAlike (a.1 + b.1 * 2 ^ 512) r.1 then return .error 68
      else return s.leafChecked plate ctx va (2 ^ 16) (ePa r.1) r.1 write fetch

/-- A whole walk, its first checks included (R429, R431). -/
def State.walk (s : State) (plate ctx va : Nat) (write fetch : Bool) : Except UnitStop Walked :=
  if 2 ^ 48 ≤ va then .ok (.error 48)
  else if !(s.ctx ctx).xen then .ok (.error 64)
  else s.walkFrom plate ctx va write fetch 4 ((s.ctx ctx).root * 4096)

/-- What the tables say of a page now. -/
def State.walkNow (s : State) (plate ctx va : Nat) (write : Bool) : Walked :=
  match ({ s with curU := { UnitContext.reset with force := true } } : State).walk plate ctx va write false with
  | .ok r => r
  | .error _ => .error 64

/-- The leaf of a page that the unit at work accesses: refused before any table is read, gathered, cached, or walked for (R429 to R433). -/
def State.unitLeaf (s : State) (plate ctx va : Nat) (write : Bool) : Except UnitStop Walked :=
  let checked (l : CachedLeaf) : Walked := match l.admits write false with
    | some c => .error c
    | none => .ok l
  let j := s.curU.job
  if 2 ^ 48 ≤ va then .ok (.error 48)
  else if !(s.ctx ctx).xen then .ok (.error 64)
  else match j.refused.find? fun f => f.plate == plate && f.ctx == ctx && f.page == va / 4096 && f.write == write with
    | some f => .ok (.error f.cause)
    | none => match (j.leaves.find? fun l => l.plate == plate && l.ctx == ctx && decide (l.base ≤ va) && decide (va < l.base + l.size)) <|>
          s.cachedLeaf plate ctx va with
      | some l => .ok (checked l)
      | none => if s.curU.force then s.walk plate ctx va write false else .error (.page plate ctx va write)

/-- The physical address of a byte that the unit at work accesses, or its fault's cause. -/
def State.unitPhys (s : State) (plate ctx va : Nat) (write : Bool) : Except UnitStop (Except Nat Nat) := do
  match ← s.unitLeaf plate ctx va write with
  | .ok l => return .ok (l.phys va)
  | .error c => return .error c

/-- Bytes of a physical range inside one line: none when they are poisoned. -/
def State.unitBytes (s : State) (pa len : Nat) : Except UnitStop (Option (List Byte)) := do
  (piecesOf pa len).foldlM (fun (bs : Option (List Byte)) p => do
    let r ← s.unitLoad p.1 p.2
    return if r.2 then none else bs.map fun bs => bs ++ leBytes r.1 p.2) (some [])

/-- Bytes of a context's memory, or the first fault: cause and address of its line. -/
def State.readRange (s : State) (plate ctx va n : Nat) : Except UnitStop (Except (Nat × Nat) (List Byte)) :=
  (cutRange 64 va n).foldlM (fun (acc : Except (Nat × Nat) (List Byte)) p => match acc with
    | .error e => return .error e
    | .ok bs => do
      match ← s.unitPhys plate ctx p.1 false with
      | .error c => return .error (c, lineOf p.1)
      | .ok pa => match ← s.unitBytes pa p.2 with
        | none => return .error (380, lineOf p.1)
        | some xs => return .ok (bs ++ xs)) (.ok [])

/-- A 4 KiB page of memory, at its own addresses, and whether it is poisoned. -/
def State.unitPage (s : State) (pa : Nat) : Except UnitStop (Memory × Bool) :=
  let mine := s.curU.job.reads.filter fun p => decide (pa ≤ p.pa) && decide (p.pa < pa + 4096)
  let pieces := (List.range 64).flatMap fun l => piecesOf (pa + 64 * l) 64
  let here (q : Nat × Nat) : Bool := mine.any fun p => p.pa == q.1 && p.len == q.2
  let value : Memory × Bool :=
    (mine.foldl (fun (m : Memory) p => m.putNum p.pa p.len p.x) (s.mem.slice pa 4096),
     mine.any (·.bad) || s.pkg.poison.any fun w => decide (pa ≤ w) && decide (w < pa + 4096) && !mine.any fun p => meets p.pa p.len w 1)
  if s.curU.force then (if s.stackHeld pa then .error .later else .ok value)
  else match pieces.find? fun q => !here q with
    | some q => .error (.piece q.1 q.2)
    | none => .ok value

/-! ## Asking and going on -/

/-- A unit looks again at what it does, after some periods. -/
def State.unitAgain (s : State) (u : MemUnit) (n : Nat) : State :=
  match u with
  | .walk id => s.after n phNet 0 (.op (.tableWalk id))
  | .suffix c => s.after n phNet c (.op (.suffixIndexRequestService c))
  | .keeper id => { s with keeper := s.keeper ++ [(s.clk, KeeperUser.request id)] }.after (n + 1) phNet 0 (.op .proofKeeperRequestService)
  | .mailbox => s.after n phNet 0 .mailbox
  | .args p i => s.after n phNet (p * 256 + i) (.op (.launchArgumentBlockCopy p i))
  | .resume p i => s.after n phNet (p * 256 + i) (.images p i)
  | .image c => s.after (max n 1) phTrap c (.op (.contextImageSave c))

/-- An access of a unit as a request: no thread's, it holds no slot. -/
def unitRequest (u : MemUnit) (cell id pa len issued : Nat) (write : Option (Nat × Nat × Nat)) : Request :=
  { cell, thread := 0, uid := id, ctx := 0, kind := .unit u write, va := pa, pa, len, sp := false, posted := false, release := false,
    ord := 0, scope := 0, issued, promoted := false, pc := 0, stage := .away, slot := false, turns := 1, felim := 0, index := 0,
    answer := [], fault := none, before := 0 }

/-- A unit sends an access on its way: a request to read, or a posted write (R421). -/
def State.askPiece (s : State) (u : MemUnit) (pa len : Nat) (write : Option (Nat × Nat × Nat)) : State :=
  let id := s.nextId
  let cell := u.cell s.walks
  let s1 := s.setUnit { s.unitJob u with waits := some id }
  ({ s1 with requests := s1.requests.set id (unitRequest u cell id pa len s.clk write), nextId := id + 1 } : State).send (unitRouter cell)
    (pointRouter pa) (if write.isSome then 2 else 0) phNet (cell * 64) (.deliver id)

/-- A unit asks for what it lacks, unless it waits already. -/
def State.unitNeeds (s : State) (u : MemUnit) (stop : UnitStop) : State :=
  let j := s.unitJob u
  if j.waits.isSome then s
  else match stop with
    | .page plate ctx va write => (s.setUnit { j with waits := some s.nextId }).startWalk plate ctx va write false (.unit u)
    | .piece pa len => s.askPiece u pa len none
    | .later => s.unitAgain u 1
    | .fault .. => s

/-- A unit takes what it asked for, and goes on. -/
def State.unitTakes (s : State) (u : MemUnit) (id : Nat) (f : UnitJob → UnitJob) : State :=
  let j := s.unitJob u
  if j.waits == some id then (s.setUnit { f j with waits := none }).unitAgain u 0 else s

/-- A unit's walk has ended. -/
def State.unitTranslated (s : State) (u : MemUnit) (id : Nat) (w : Walk) (r : Walked) : State :=
  s.unitTakes u id fun j => match r with
    | .ok l => { j with leaves := j.leaves ++ [l] }
    | .error cause => { j with refused := j.refused ++ [{ plate := w.plate, ctx := w.ctx, page := w.va / 4096, write := w.write, cause }] }

/-- A number from its 64-bit words. -/
def ofWords (ws : List Word) : Nat := ws.foldr (fun w x => x * 2 ^ 64 + w.toNat) 0

/-- The answer to a unit's access has returned: what a read brought, its value in the first words; a last word counts the writes that had
performed at the mailbox engine's read. -/
def State.unitReturns (s : State) (id : Nat) (r : Request) (u : MemUnit) (write : Bool) : State :=
  let n := (r.len + 7) / 8
  let p : ReadPiece := { pa := r.pa, len := r.len, x := ofWords (r.answer.take n), bad := r.fault.isSome, upTo := ((r.answer.drop n).headD 0).toNat }
  { s with requests := s.requests.erase id }.unitTakes u id fun j => if write then j else { j with reads := j.reads ++ [p] }

/-- The next write that a unit has left sets out; `true` when all of them have performed. -/
def State.unitWritesOut (s : State) (u : MemUnit) (agent order : Nat) : Bool × State :=
  let j := s.unitJob u
  match j.waits, j.left with
  | some _, _ => (false, s)
  | none, some (w :: ws) => (false, (s.setUnit { j with left := some ws }).askPiece u w.pa w.len (some (w.x, agent, order)))
  | none, _ => (true, s)

/-- A unit's write performs at its point: the mailbox engine's as a release at package scope (04_ordering R114). One of no bytes takes its
turn only, for a bucket that the unit keeps itself (12_draft R361). -/
def State.unitPerform (s : State) (u : MemUnit) (pa len x agent order : Nat) : State :=
  if len == 0 || (inScratch pa && s.retired (scratchCell pa)) then s
  else if u == .mailbox then
    (s.writePhys pa len x mailboxAgent s.nextId false).logged s.mem .mailbox mailboxAgent pa len false (some 5)
  else s.writePhys pa len x agent order false

/-- A unit's read at its point: its answer. The mailbox engine's may take an older value (R94, R107), and counts the writes that it follows,
unless a release whose scope leaves the engine out is all that it met (R106, R114). -/
def State.unitReads (s : State) (u : MemUnit) (pa len : Nat) : State × List Word :=
  let words (x : Nat) : List Word := (List.range ((len + 7) / 8)).map fun i => word (x / 2 ^ (64 * i))
  if u != .mailbox then (s, words (s.mem.num pa len))
  else
    let x := s.takes mailboxAgent pa len (s.mem.num pa len)
    let ms := if x.latest then s.marksAt pa len else []
    (x.state, words x.value ++ [word (if ms.isEmpty || ms.any (fun m => scopesMeet m.agent m.scope .mailbox 5) then x.upTo else 0)])

end Sys2Proof.Machine
end

