-- ==== Sys2Proof/Machine/Copy.lean ====
section
/-! DEFINITION. The copy engine (08_copy R219 to R248), the side ports (R226) and the HBM slots (09_windows R269, R270). -/

namespace Sys2Proof.Machine

open Sys2Proof

def State.updCpy (s : State) (cell : Nat) (f : CopyEngine → CopyEngine) : State :=
  (s.updCore cell fun c => { c with cpy := f c.cpy }).copyWatch cell (s.core cell).cpy

/-! ## Side ports (R226, 04_ordering R111) -/

def bankOf (a : Nat) : Nat := a / 64 % 32
def State.sidePort (s : State) (cell bank : Nat) : SidePort := s.pkg.ports.getD (cell * 32 + bank) SidePort.reset
def State.updPort (s : State) (cell bank : Nat) (f : SidePort → SidePort) : State :=
  s.updPkg fun k => { k with ports := k.ports.set (cell * 32 + bank) (f (s.sidePort cell bank)) }

/-- Let a port serve in the first period that it is free. -/
def State.wakePort (s : State) (cell bank : Nat) : State :=
  s.at' (max s.clk ((s.sidePort cell bank).servedAt + 1)) phNet (cell * 32 + bank) (.port cell bank)

/-- A line waits at a port. -/
def State.queueJob (s : State) (store bank : Nat) (j : PortJob) : State :=
  (s.updPort store bank fun p => { p with lines := p.lines ++ [j] }).wakePort store bank

/-- A copy line waits at a port. -/
def State.queueLine (s : State) (store bank cell line : Nat) : State := s.queueJob store bank (.copy cell line)

/-- A participant's status word is being served. -/
def Participant.serve (p : Participant) (copy : Nat) : Participant :=
  match p.phase with
  | .ending cause => if p.copy == copy then { p with phase := .served cause } else p
  | _ => p

/-- What a port runs for a line, and who has the turn: which line of a remote store, or a participant's status word. -/
def State.portJob (s : State) (j : PortJob) : State × Instr :=
  match j with
  | .copy cell line => (s, .taggedCopyLine cell line)
  | .remote id line => (match s.remotes.get? id with
      | some r => { s with remotes := s.remotes.set id { r with turn := some line } }
      | none => s, .remoteStoreArrival id)
  | .status cell copy =>
    (s.updPkg fun k => { k with colls := k.colls.map fun x => { x with here := x.here.map (·.serve copy) } }, .collectiveComplete cell copy)

/-- Insert a window access by the rank of its arrival. -/
def insertRank (x : Nat × Nat) : List (Nat × Nat) → List (Nat × Nat)
  | [] => [x]
  | y :: t => if y.1 ≤ x.1 then y :: insertRank x t else x :: y :: t

/-- A window access waits at a port: oldest first, then by source cell and thread (R111). -/
def State.queueWindow (s : State) (store bank source thread request : Nat) : State :=
  (s.updPort store bank fun p => { p with windows := insertRank ((s.clk * 512 + source) * 64 + thread, request) p.windows }).wakePort store bank

/-- One access of a side port: round-robin between window accesses and lines, each in its order. Lines of remote stores and status
words of collectives stand in the queue of the copy lines (log entry 44). -/
def State.servePort (s : State) (cell bank : Nat) : State × Option Instr :=
  let p := s.sidePort cell bank
  let serve (x : State × Instr) (q : SidePort) : State × Option Instr :=
    let s1 := x.1.updPort cell bank fun _ => { q with servedAt := s.clk }
    (if q.windows.isEmpty && q.lines.isEmpty then s1 else s1.wakePort cell bank, some x.2)
  match p.windows, p.lines with
  | [], [] => (s, none)
  | w :: ws, [] => serve (s, .windowAccessArrival w.2) { p with windows := ws, lastLine := false }
  | [], l :: ls => serve (s.portJob l) { p with lines := ls, lastLine := true }
  | w :: ws, l :: ls =>
    if p.lastLine then serve (s, .windowAccessArrival w.2) { p with windows := ws, lastLine := false }
    else serve (s.portJob l) { p with lines := ls, lastLine := true }

/-! ## Remote stores at their destination (04_ordering R101, R103; 05_sequencer R141) -/

/-- The oldest remote store of a core to a cell that has not performed goes to the side ports once it is there: stores of one core to one
cell perform in issue order (R101). -/
def State.remoteGo (s : State) (source cell : Nat) : State :=
  match s.remotes.find? fun x => x.2.source == source && x.2.cell == cell && !x.2.left.isEmpty with
  | some (id, r) =>
    if r.arrived && !r.queued then
      r.left.foldl (fun s j => s.queueJob cell (bankOf (r.offset + 64 * j)) (.remote id j))
        { s with remotes := s.remotes.set id { r with queued := true } }
    else s
  | none => s

/-- A line of a remote store has its turn at the side port: it performs whole, or it is refused (R103). The spec leaves open when each
line of an STRV performs and what a region or a closing that meets only some of its lines does. DESIGN CHOICE (log 53): each line is
judged at its own turn, a refused line does not perform, and the store counts as refused when any line of it was. -/
def State.remoteLine (s : State) (id : Nat) (r : RemoteStore) (j : Nat) : State :=
  let n := min 64 (r.len - 64 * j)
  let at' := r.offset + 64 * j
  let no := s.turnsAway r.cell || (s.core r.cell).run == .contained || (s.regionHit r.cell at' n).isSome
  let s1 := if no then s else
    let s0 := if n == 64 then s.cleansed (coreStoreBase r.cell + at') else s
    { s0 with mem := s0.mem.putNum (coreStoreBase r.cell + at') n (r.data / 2 ^ (512 * j) % 2 ^ (8 * n)) }
  let r1 : RemoteStore := { r with left := r.left.erase j, turn := none, refused := r.refused || no }
  let s2 : State := { s1 with remotes := s1.remotes.set id r1 }
  if r1.left.isEmpty then
    (s2.remoteGo r.source r.cell).send (routerOf r.cell) (routerOf r.source) 1 phNet 0 (.op (.remoteStoreAck id))
  else s2

/-- REMOTE_STORE_ARRIVAL (R101, R103): the store arrives and its lines go to the side ports, or a side port serves one of them. -/
def execRemoteStoreArrival (request : Nat) (s : State) : Result :=
  match s.remotes.get? request with
  | none => .next s
  | some r => match r.turn with
    | none => .next ({ s with remotes := s.remotes.set request { r with arrived := true } }.remoteGo r.source r.cell)
    | some j => .next (s.remoteLine request r j)

/-! ## Copies and their lines (R220, R226 to R230) -/

/-- Not a multicast target. -/
def notTarget : Nat := 128

def CopyEngine.copy? (e : CopyEngine) (id : Nat) : Option TaggedCopy := e.tagged.find? fun t => t.id == id
def CopyEngine.copyOfLine (e : CopyEngine) (line : Nat) : Option TaggedCopy :=
  e.tagged.find? fun t => t.lines.any fun l => l.id == line
def CopyEngine.mapCopy (e : CopyEngine) (id : Nat) (f : TaggedCopy → TaggedCopy) : CopyEngine :=
  { e with tagged := e.tagged.map fun (x : TaggedCopy) => if x.id == id then f x else x }
def CopyEngine.setCopy (e : CopyEngine) (t : TaggedCopy) : CopyEngine := e.mapCopy t.id fun _ => t
def TaggedCopy.setLine (t : TaggedCopy) (l : CopyLine) : TaggedCopy :=
  { t with lines := t.lines.map fun x => if x.id == l.id then l else x }
def State.setLine (s : State) (cell : Nat) (l : CopyLine) : State :=
  s.updCpy cell fun e => { e with tagged := e.tagged.map fun t => t.setLine l }

/-- Remove a copy that has performed (R220). The record of a collective stays in use until its tag is done (14_fabric R444). -/
def CopyEngine.finishCopy (e : CopyEngine) (t : TaggedCopy) : CopyEngine :=
  let g := e.tags[t.tag]?.getD Tag.reset
  { e with tagged := e.tagged.filter fun x => x.id != t.id
           tags := e.tags.setIfInBounds t.tag { g with records := if t.coll then g.records ++ t.ranges.take 1 else g.records } }.countDown t.tag

/-- Finish a copy that has nothing left to do. -/
def CopyEngine.settle (e : CopyEngine) (id : Nat) : CopyEngine :=
  match e.copy? id with
  | some t => if t.lines.isEmpty && t.list.isNone && !t.coll then e.finishCopy t else e
  | none => e

/-- An error of a tagged copy (R230). -/
def CopyEngine.error (e : CopyEngine) (t : TaggedCopy) (cause address : Nat) : CopyEngine :=
  let g := e.tags[t.tag]?.getD Tag.reset
  let e1 := { e with tags := e.tags.setIfInBounds t.tag { g with err := true } }
  if e.eValid then { e1 with eMore := true }
  else { e1 with eValid := true, eTag := t.tag, eCause := cause, errPc := t.pc.setWidth 64, errA := word address }

/-- A line has performed or failed. -/
def State.lineGone (s : State) (cell : Nat) (t : TaggedCopy) (l : CopyLine) : State :=
  let s1 := s.updCpy cell fun e => (e.mapCopy t.id fun x => { x with lines := x.lines.filter fun y => y.id != l.id }).settle t.id
  if t.coll then s1.after 0 phNet cell (.op (.collectiveComplete cell t.id)) else s1

/-- A source line of a collective's participant has been read (14_fabric R446). -/
def State.collected (s : State) (copy offset : Nat) (data : BitVec 512) : State :=
  s.updPkg fun k => { k with colls := k.colls.map fun x => { x with here := x.here.map fun p =>
    if p.copy == copy then { p with source := p.source.putNum offset 64 data.toNat } else p } }

/-- Positions that a multicast line would have filled. -/
def CopyLine.positions (l : CopyLine) : List Nat :=
  l.dsts.filterMap fun d => match d with
    | .core _ _ p => if p < 80 then some p else none
    | _ => none

/-- A line fails with a cause (R228, R230, R232). -/
def State.lineFails (s : State) (cell : Nat) (t : TaggedCopy) (l : CopyLine) (cause address : Nat) : State :=
  (s.updCpy cell fun e =>
    { e.error t cause address with cfmask := l.positions.foldl (fun m p => m ||| BitVec.twoPow 80 p) e.cfmask }).lineGone cell t l

/-- The end of a line that is accessed next. -/
def CopyLine.nextEnd (l : CopyLine) : LineEnd := if l.read then l.dsts.headD .zeros else l.src

/-- Run a line again after an open time. -/
def State.lineLater (s : State) (cell line : Nat) : State :=
  let d := s.drawDelay
  d.2.after d.1 phNet cell (.op (.taggedCopyLine cell line))

/-- Whether a line and the point of its address meet over the packet network: lines outside HBM, lines of other plates' stacks, and
discards; the stream unit of the own plate serves the others (R226, 14_fabric R418 to R421). -/
def travels (cell pa : Nat) (discard : Bool) : Bool := discard || !(inHbm pa && stackPlate pa == plateOf cell)

/-- A line that has been read goes on to a destination: from a point on the packet network by a packet, else after an open time. -/
def State.lineOnward (s : State) (cell : Nat) (l : CopyLine) : State :=
  match l.src, l.nextEnd with
  | .global _, .core store _ _ =>
    if travels cell l.physical false then
      (s.setLine cell { l with stage := 4 }).send (pointRouter l.physical) (routerOf store) 1 phNet cell (.op (.taggedCopyLine cell l.id))
    else s.lineLater cell l.id
  | _, _ => s.lineLater cell l.id

/-- The source of a line has been read: one line goes on for each destination. -/
def State.lineRead (s : State) (cell : Nat) (t : TaggedCopy) (l : CopyLine) (data : BitVec 512) : State :=
  match l.dsts with
  | [] => s.lineGone cell t l
  | d :: ds =>
    let l1 := { l with read := true, stage := 0, data, dsts := [d] }
    let s1 := (s.setLine cell l1).lineOnward cell l1
    ds.foldl (fun s d =>
      let n : CopyLine := { l1 with id := s.nextId, dsts := [d] }
      ({ s with nextId := s.nextId + 1 }.updCpy cell fun e => e.mapCopy t.id fun x =>
        { x with lines := x.lines ++ [n] }).lineOnward cell n) s1

/-- An access waits at the network port of its vault bank (14_fabric R419), whose turns come before the timed accesses perform. -/
def vaultKey (v : Nat) : Nat := 60000 + v
def State.queueVault (s : State) (pa : Nat) (u : WalkUser) : State :=
  let v := (pa - 0x010000000000) / 2 ^ 26 * 128 + pa / 2 ^ 23 % 8 * 16 + pa / 2 ^ 6 % 16
  ({ s with vaultPorts := s.vaultPorts.set v (s.vaultPorts.getD v [] ++ [u]) }).after 1 phLand (vaultKey v)
    (.op (.vaultNetworkPortService (v / 128) (v % 128)))

/-- A line is at the point of its global address (R226): a line of HBM waits for its burst, the others for their turn there. -/
def State.lineReaches (s : State) (cell : Nat) (l : CopyLine) : State :=
  let s1 := s.setLine cell { l with stage := 1 }
  let pa := l.physical
  if inHbm pa && !l.discard then s1.updPlate (stackPlate pa) fun p => { p with bursts := p.bursts ++ [(pa, cell, l.id)] }
  else if inStoreStep pa then s1.queueLine (storeCell pa) (bankOf pa) cell l.id
  else if inVault pa then s1.queueVault pa (.line cell l.id)
  else if inControl pa then s1.after 0 phNet cell (.controlLine cell l.id)
  else s1.after 0 phNet cell (.op (.taggedCopyLine cell l.id))

/-- A global end has its physical address: it sets out for the point of its line. -/
def State.lineTranslated (s : State) (cell line pa : Nat) : State :=
  match (s.core cell).cpy.copyOfLine line with
  | none => s
  | some t =>
    match t.lines.find? fun l => l.id == line with
    | none => s
    | some l =>
      let l1 := { l with physical := pa }
      if travels cell pa l.discard then
        (s.setLine cell { l1 with stage := 4 }).send (routerOf cell) (pointRouter pa) 0 phNet cell (.op (.taggedCopyLine cell line))
      else s.lineReaches cell l1

/-- A line's translation faulted (R228, R435). -/
def State.lineRefused (s : State) (cell line cause address : Nat) : State :=
  match (s.core cell).cpy.copyOfLine line with
  | none => s
  | some t => match t.lines.find? fun l => l.id == line with
    | none => s
    | some l => s.lineFails cell t l cause address

/-- The access of a line performs at its point in global memory. -/
def State.linePerforms (s : State) (cell : Nat) (t : TaggedCopy) (l : CopyLine) (va : Nat) : State :=
  let line := lineOf l.physical
  if !l.read then
    if s.linePoisoned line then s.lineFails cell t l 380 va
    else s.lineRead cell t l (BitVec.ofNat 512 (s.mem.num line 64))
  else if l.discard then
    let k := sliceOf line
    let r := s.discardLine t.id line (timedAgent cell) t.id (t.fallen.contains k)
    let s1 := if r.1 || t.fallen.contains k then r.2
      else r.2.updCpy cell fun e => { e.setCopy { t with fallen := k :: t.fallen } with zfall := e.zfall + 1 }
    s1.lineGone cell t l
  else (s.writePhys line 64 l.data.toNat (timedAgent cell) t.id true).lineGone cell t l

/-- A line at its point: at a slice it takes its turn (14_fabric R424, 13_proof R402). -/
def State.lineAtPoint (s : State) (cell : Nat) (t : TaggedCopy) (l : CopyLine) (va : Nat) : State :=
  let line := lineOf l.physical
  let k := sliceOf line
  let u := SliceUser.line cell l.id
  let slice := inHbm line || inHost line
  let dirties := l.read && l.discard && s.discardWrites t.id line (t.fallen.contains k)
  if slice && s.sliceHolds k u line l.read dirties then s.sliceWaits k u
  else if slice then (s.linePerforms cell t l va).sliceServed k u
  else s.linePerforms cell t l va

/-- A pre-empted core, or one whose image, its core store in it, is being written. -/
def Core.imaged (c : Core) : Bool := c.run == .preempted || (c.run == .preempting && c.seq.drained)

/-- Whether a target refuses a multicast line (R232): as a pre-empted one also from when its image is being written (DEDUCED, log entry 24). -/
def State.refusesLine (s : State) (store offset : Nat) : Bool :=
  s.turnsAway store || (s.core store).run == .contained || (s.core store).imaged || (s.regionHit store offset 64).isSome

/-- A line served at the side port of its destination. -/
def State.lineDelivered (s : State) (cell : Nat) (t : TaggedCopy) (l : CopyLine) (store offset position : Nat) : State :=
  if position < 80 && s.refusesLine store offset then s.lineFails cell t l 278 offset
  else
    let s1 := if l.bytes == 64 then s.cleansed (coreStoreBase store + offset) else s
    { s1 with mem := s1.mem.putNum (coreStoreBase store + offset) l.bytes l.data.toNat }.lineGone cell t l

/-- The next action of a line. -/
def State.runLine (s : State) (cell : Nat) (t : TaggedCopy) (l : CopyLine) : State :=
  match l.nextEnd with
  | .zeros => if l.read then s.lineGone cell t l else s.lineRead cell t l 0
  | .collect offset => (s.collected t.id offset l.data).lineGone cell t l
  | .core store offset position =>
    if l.stage == 0 || l.stage == 4 then
      (s.setLine cell { l with stage := if l.read then 3 else 2 }).queueLine store (bankOf offset) cell l.id
    else if l.read then s.lineDelivered cell t l store offset position
    else if s.pkg.poison.contains (coreStoreBase store + offset) then s.lineFails cell t l 380 offset
    else s.lineRead cell t l (BitVec.ofNat 512 (s.mem.num (coreStoreBase store + offset) 64))
  | .global va =>
    if l.stage == 0 then
      let ctx := (s.core cell).ctx
      match s.translateNow (plateOf cell) ctx va l.read false with
      | some (.ok pa) => s.lineTranslated cell l.id pa
      | some (.error c) => s.lineFails cell t l c va
      | none => s.startWalk (plateOf cell) ctx va l.read false (.line cell l.id)
    else if l.stage == 4 then s.lineReaches cell l
    else s.lineAtPoint cell t l va

/-! ## Prefetches (R240) -/

/-- A prefetch request is dropped and counted. -/
def State.dropPrefetch (s : State) (cell : Nat) : State := s.updCpy cell fun e => { e with drop := e.drop + 1 }

/-- A translated prefetch reaches its slice (14_fabric R425). -/
def State.prefetchAt (s : State) (cell pa : Nat) : State :=
  if !(inHbm pa || inHost pa) then s.dropPrefetch cell
  else
    let k := sliceOf pa
    let x := s.slice k
    if x.hasLine (lineOf pa) || x.misses.contains (lineOf pa) || (inHost pa && !s.feature 0) then s
    else if 256 ≤ x.misses.length then s.dropPrefetch cell
    else s.fetchLine k (lineOf pa)

/-- Request the next line of a prefetch. -/
def State.runPrefetch (s : State) (cell : Nat) (p : Prefetch) : State :=
  let next : Prefetch := { p with address := p.address + 64, lines := p.lines - 1 }
  let left (l : List Prefetch) : List Prefetch :=
    if p.lines ≤ 1 then l.filter (fun x => x.id != p.id) else l.map (fun x => if x.id == p.id then next else x)
  let s1 := s.updCpy cell fun e => { e with ahead := left e.ahead }
  let ctx := (s.core cell).ctx
  let s2 := match s1.translateNow (plateOf cell) ctx p.address false false with
    | some (.ok pa) => s1.prefetchAt cell pa
    | some (.error _) => s1.dropPrefetch cell
    | none =>
      if s1.walkers (plateOf cell) < 48 then s1.startWalk (plateOf cell) ctx p.address false false (.prefetch cell)
      else s1.dropPrefetch cell
  if p.lines ≤ 1 then s2 else s2.lineLater cell p.id

/-- Begin prefetches of a range. -/
def State.prefetch (s : State) (cell address lines : Nat) : State :=
  if lines == 0 then s
  else
    let p : Prefetch := { id := s.nextId, address, lines }
    ({ s with nextId := s.nextId + 1 }.updCpy cell fun e => { e with ahead := e.ahead ++ [p] }).lineLater cell p.id

/-- TAGGED_COPY_LINE (R226): one action of a line: its request, its access at a global point, or its service at a side port. -/
def execTaggedCopyLine (cell line : Nat) (s : State) : Result :=
  let e := (s.core cell).cpy
  match e.copyOfLine line with
  | some t => match t.lines.find? fun l => l.id == line with
    | some l => .next (s.runLine cell t l)
    | none => .next s
  | none => match e.ahead.find? fun p => p.id == line with
    | some p => .next (s.runPrefetch cell p)
    | none => .next s

/-! ## HBM slots (09_windows R269, R270) -/

/-- Ratio of a plate's frame, and its timed slots; an unset plate acts as 3:1. -/
def Plate.frame (p : Plate) : Nat × Nat := if p.set then (p.a, p.b) else (3, 1)

/-- The 2 KiB burst of a line, and its channel. -/
def burstOf (pa : Nat) : Nat := pa / 2048
def channelOf (pa : Nat) : Nat := pa / 2 ^ 36 * 32 + pa / 2 ^ 11 % 32

/-- The lines that one burst per channel carries. -/
def servedBursts (bs : List (Nat × Nat × Nat)) : List (Nat × Nat × Nat) :=
  bs.filter fun b => match bs.find? fun x => channelOf x.1 == channelOf b.1 with
    | some x => burstOf x.1 == burstOf b.1
    | none => false

/-- The line of a job, and whether it writes it. -/
def HbmJob.line (j : HbmJob) : Nat :=
  match j with
  | .fill _ l | .back _ l | .through _ l => l
def HbmJob.writes (j : HbmJob) : Bool :=
  match j with
  | .fill .. => false
  | _ => true

/-- The jobs that one burst per free channel carries: the oldest of its channel, with those of its burst and direction. -/
def servedJobs (free : Nat → Bool) (js : List HbmJob) : List HbmJob :=
  js.filter fun j => free (channelOf j.line) && (match js.find? fun x => channelOf x.line == channelOf j.line with
    | some x => burstOf x.line == burstOf j.line && x.writes == j.writes
    | none => false)

/-- A job has its slot, which ends 64 periods later. -/
def State.grantJob (s : State) (j : HbmJob) : State :=
  match j with
  | .fill k l => s.after 64 phNet k (.op (.sliceFill k l))
  | .back k l => (s.updSlice k fun x => { x with granted := insertNat l x.granted }).after 64 phNet k (.op (.writeBackDrain k))
  | .through id _ => s.throughReaches id

/-- The dynamic plane's slots: fills, write-backs and write-throughs, oldest first (R270, log entry 51); sweeps go on (14_fabric R427). -/
def State.dynamicSlots (s : State) (plate : Nat) (free : Nat → Bool) : State :=
  let js := servedJobs free (s.plate plate).dyn
  let s1 := js.foldl (fun s j => s.grantJob j) (s.updPlate plate fun p => { p with dyn := p.dyn.filter fun j => !js.contains j })
  (List.range 16).foldl (fun s i =>
    let k := 16 * plate + i
    if (s.slice k).dead.any fun d => s.rangeWhole d.1 then s.after 0 phDispatch k (.op (.deadRangeSweep k)) else s) s1

/-- HBM_SLOT (R269, R270): in a timed slot each channel of the plate's stacks carries one waiting burst, and an idle one is lent when
lend is set; the other slots are the dynamic plane's. An unset plate lends. -/
def execHbmSlot (plate : Nat) (s : State) : Result :=
  let p := s.plate plate
  let f := p.frame
  let timed := decide (s.tick.toNat / 64 % (f.1 + f.2) < f.1)
  if s.resetting plate then .next s
  else
    let now := if timed then servedBursts p.bursts else []
    let s1 := now.foldl (fun s b => s.after 0 phNet b.2.1 (.op (.taggedCopyLine b.2.1 b.2.2)))
      (s.updPlate plate fun p => { p with bursts := p.bursts.filter fun b => !now.contains b })
    let free (c : Nat) : Bool := !timed || ((!p.set || p.lend) && !now.any fun b => channelOf b.1 == c)
    .next (s1.dynamicSlots plate free)

/-! ## Timed copies (R222 to R225, R236) -/

/-- Perform offsets of line `u` (R222). -/
def copyReadOffset (cell space a u : Nat) : Nat :=
  if space == 0 then 2 + u else 10 + 2 * hops (clusterOf cell) (spaceCluster cell space a) + u
def copyWriteOffset (cell src a dst b u : Nat) : Nat :=
  let hs := hops (clusterOf cell) (spaceCluster cell src a)
  let hd := hops (clusterOf cell) (spaceCluster cell dst b)
  (if src == 0 then (if dst == 0 then 5 else 15 + 2 * hd) else if dst == 0 then 20 + 4 * hs else 30 + 4 * hs + 2 * hd) + u

/-- The lines of one side of a timed copy. -/
def copyLines (a n : Nat) : List AccessLine := (List.range n).map fun u => { address := a + 64 * u, len := 64, lane := u }

/-- Faults of a timed copy in the order of R236. -/
def State.timedCopyFault (s : State) (f : FormE) (dst src : Nat) : Option SlotFault :=
  let c := s.cur
  let n := c.s' f.f3.toNat
  let a := (c.s' f.f1.toNat).toNat
  let b := (c.s' f.f2.toNat).toNat
  if 4 ≤ c.cpy.channels s.clk then some (274, 0, 4)
  else if !(1 ≤ n.toNat && n.toNat ≤ 4096) then some (275, 0, n)
  else
    let bad (ls : List AccessLine) (p : AccessLine → Bool) (cause : Nat) : Option SlotFault :=
      (ls.find? p).map fun l => (cause, l.lane, word l.address)
    firstOf [misaligned a 64, misaligned b 64,
      bad (copyLines a n.toNat) (fun l => outsideSpace dst l.address 64) 48,
      bad (copyLines b n.toNat) (fun l => outsideSpace src l.address 64) 48,
      bad (copyLines a n.toNat) (fun l => s.protectedLine s.curT.cell dst l.address 64) 49,
      bad (copyLines b n.toNat) (fun l => s.protectedLine s.curT.cell src l.address 64) 49]

/-- Issue a timed copy. -/
def State.timedCopy (s : State) (f : FormE) (dst src : Nat) : State :=
  let c := s.cur
  let cell := s.curT.cell
  let n := (c.s' f.f3.toNat).toNat
  let a := (c.s' f.f1.toNat).toNat
  let b := (c.s' f.f2.toNat).toNat
  let id := s.nextId
  let offsets := (List.range n).map fun u => copyWriteOffset cell src (b + 64 * u) dst (a + 64 * u) u
  let t : TimedCopy :=
    { id, pc := s.curT.pc, issued := s.clk, frees := s.clk + offsets.foldl max 0 + 1, data := [],
      ranges := (if dst == 0 then [(a, 64 * n)] else []) ++ (if src == 0 then [(b, 64 * n)] else []), dead := false }
  let s1 := { s with nextId := id + 1 }.updCpy cell fun e =>
    { e with timed := e.timed.filter (fun (x : TimedCopy) => decide (s.clk < x.frees)) ++ [t] }
  (List.range n).foldl (fun s u =>
    let ra := b + 64 * u
    let wa := a + 64 * u
    (s.access (copyReadOffset cell src ra u) src [{ address := ra, len := 64, lane := u }] (.copyRead id u)).access
      (copyWriteOffset cell src ra dst wa u) dst [{ address := wa, len := 64, lane := u }] (.copyWrite id u)) s1

/-! ## Issue of tagged copies (R229, R231, R234, R237 to R241) -/

def roundUp (n m : Nat) : Nat := (n + m - 1) / m * m

/-- Targets of a multicast: positions in CMASK below 80 (R231). -/
def Core.targets (c : Core) : List Nat := (List.range 80).filter fun i => c.cpy.cmask.getLsbD i

/-- The lowest bad position of the target mask, or 0xFF (R231). -/
def Core.targetFault (c : Core) : Option SlotFault :=
  if c.targets.isEmpty then some (276, 0, 0xFF)
  else (c.targets.find? fun i => decide (c.gangSize ≤ i)).map fun i => (276, 0, word i)

/-- Bytes a CPD delivers to each target (R239). -/
def spreadBytes (len block targets : Nat) : Nat := cdiv len (block * 64 * targets) * block * 64

/-- What a tagged copy moves: its length operand (a multiple of this), core-store ranges, global addresses, page-list address. -/
structure CopyShape where
  len    : Nat
  unit   : Nat
  ranges : List (Nat × Nat)
  own    : List (Nat × Nat)
  aligns : List (Nat × Nat)
  target : Bool
  slot   : Bool
  deriving DecidableEq, Repr

/-- Faults of a tagged copy in the order of R229. -/
def State.shapeFault (s : State) (x : CopyShape) : Option SlotFault :=
  let c := s.cur
  let windows := c.clock.windows.toList.filter fun w => w.openNow s.tick
  let hit := windows.foldl (fun m w => match firstInRegion w x.own, m with
    | some a, some b => some (min a b)
    | some a, none => some a
    | none, m => m) none
  firstOf [
    if x.slot && 256 ≤ c.cpy.slots then some (273, 0, 256) else none,
    if x.len == 0 || x.len % x.unit != 0 then some (275, 0, word x.len) else none,
    (x.ranges.find? fun r => decide (coreStoreSize < r.2)).map fun _ => (275, 0, word x.len),
    (x.aligns.find? fun a => a.1 % a.2 != 0).map fun a => (50, 0, word a.1),
    (x.ranges.find? fun r => decide (coreStoreSize < r.1 + r.2)).map fun r => (48, 0, word r.1),
    hit.map fun a => (176, 0, word a),
    if x.target then c.targetFault else none]

/-- The shape of each tagged copy. -/
def State.copyShape (s : State) (i : Instr) : Option CopyShape :=
  let c := s.cur
  let r (n : BitVec 6) : Nat := (c.s' n.toNat).toNat
  let multi (f : FormE) (unit bytes : Nat) : CopyShape :=
    let own := c.targets.contains c.gangPos
    { len := r f.f3, unit, ranges := [(r f.f1, bytes)], own := if own then [(r f.f1, bytes)] else [],
      aligns := [(r f.f1, 64), (r f.f2, 64)], target := true, slot := true }
  match i with
  | .cph _ f => some { len := r f.f3, unit := 64, ranges := [(r f.f1, r f.f3)], own := [(r f.f1, r f.f3)],
                       aligns := [(r f.f1, 64), (r f.f2, 64)], target := false, slot := true }
  | .cpw _ f => some { len := r f.f3, unit := 64, ranges := [(r f.f2, r f.f3)], own := [(r f.f2, r f.f3)],
                       aligns := [(r f.f1, 64), (r f.f2, 64)], target := false, slot := true }
  | .cpm _ f => some (multi f 64 (r f.f3))
  | .cpd _ f => some (multi f (64 * 2 ^ fld f.func 0 4) (spreadBytes (r f.f3) (2 ^ fld f.func 0 4) c.targets.length))
  | .cpf _ f => some { len := r f.f2, unit := 64, ranges := [], own := [], aligns := [(r f.f1, 64)], target := false, slot := false }
  | .cdisc _ f => some { len := r f.f2, unit := 64, ranges := [], own := [], aligns := [(r f.f1, 64)], target := false, slot := true }
  | _ => none

/-- Faults of CPG and CPS (R229, R233, R238): `core` and `list` are the operands. -/
def State.pageFault (s : State) (f : FormE) (gather : Bool) : Option SlotFault :=
  let c := s.cur
  let n := c.s' f.f3.toNat
  let core := (c.s' (if gather then f.f1 else f.f2).toNat).toNat
  let list := (c.s' (if gather then f.f2 else f.f1).toNat).toNat
  let span := n.toNat * 2 ^ fld f.func 0 4 * 64
  let aligns := if gather then [(core, 64), (list, 8)] else [(list, 8), (core, 64)]
  let ranges := if gather then [(core, span), (list, 8 * n.toNat)] else [(list, 8 * n.toNat), (core, span)]
  let own := [(core, span)]
  if 256 ≤ c.cpy.slots then some (273, 0, 256)
  else if !(1 ≤ n.toNat && n.toNat ≤ 64) then some (275, 0, n)
  else if coreStoreSize < span then some (275, 0, word span)
  else s.shapeFault { len := 64, unit := 64, ranges, own, aligns, target := false, slot := false }

/-- Faults of the copy slot's instructions at issue. -/
def State.copyFault (s : State) (i : Instr) : Option SlotFault :=
  match i with
  | .cpt _ f => s.timedCopyFault f (fld f.func 0 2) (fld f.func 2 2)
  | .cptx _ f => s.timedCopyFault f (fld f.func 0 2) 2
  | .cpg _ f => s.pageFault f true
  | .cps _ f => s.pageFault f false
  | i => match s.copyShape i with
    | some x => s.shapeFault x
    | none => none

/-- Take a copy slot and count a copy on its tag (R220). -/
def CopyEngine.countUp (e : CopyEngine) (tag : Nat) : CopyEngine :=
  let g := e.tags[tag]?.getD Tag.reset
  { e with tags := e.tags.setIfInBounds tag { g with count := g.count + 1, done := false, armed := true, slots := g.slots + 1 } }

/-- Take back the slot and the count of a copy whose page list or record could not be read (R234). -/
def CopyEngine.undo (e : CopyEngine) (t : TaggedCopy) : CopyEngine :=
  let e1 := e.finishCopy { t with coll := false }
  let g := e1.tags[t.tag]?.getD Tag.reset
  { e1 with tags := e1.tags.setIfInBounds t.tag { g with slots := g.slots - 1, armed := decide (1 < g.slots) } }

/-- Give lines to a copy, each requested after an open time; a copy without lines has performed. -/
def State.giveLines (s : State) (cell id : Nat) (ls : List (LineEnd × List LineEnd × Bool)) : State :=
  let s1 := ls.foldl (fun s x =>
    let l : CopyLine := { id := s.nextId, src := x.1, dsts := x.2.1, stage := 0, read := false, physical := 0, data := 0, bytes := 64, discard := x.2.2 }
    ({ s with nextId := s.nextId + 1 }.updCpy cell fun e => e.mapCopy id fun t =>
      { t with lines := t.lines ++ [l] }).lineLater cell l.id) s
  s1.updCpy cell fun e => e.settle id

/-- A new tagged copy of the current core. -/
def State.newCopy (s : State) (tag : Nat) (list : Option PageList) (ranges : List (Nat × Nat)) (coll proof : Bool) : State :=
  let t : TaggedCopy := { id := s.nextId, tag, pc := s.curT.pc, issued := s.clk, lines := [], list, ranges, fallen := [], coll, proof }
  { s with nextId := s.nextId + 1 }.updCpy s.curT.cell fun e => { e.countUp tag with tagged := e.tagged ++ [t] }

/-- Lines of a plain copy. -/
def pairEnds (n : Nat) (src dst : Nat → LineEnd) (discard : Bool) : List (LineEnd × List LineEnd × Bool) :=
  (List.range n).map fun u => (src u, [dst u], discard)

/-- The store of a gang position. -/
def State.positionCell (s : State) (cell position : Nat) : Nat := (s.members cell)[position]?.getD cell

/-- Issue a tagged copy with its lines. -/
def State.taggedCopy (s : State) (f : FormE) (ranges : List (Nat × Nat)) (proof : Bool) (ls : List (LineEnd × List LineEnd × Bool)) : State :=
  let id := s.nextId
  (s.newCopy f.f4.toNat none ranges false proof).giveLines s.curT.cell id ls

/-- The lines that a page list describes (R238), and the addresses of its bad entries. -/
def PageList.lines (p : PageList) (cell : Nat) : List (LineEnd × List LineEnd × Bool) × List Nat :=
  (List.range p.entries).foldl (fun (x : List (LineEnd × List LineEnd × Bool) × List Nat) e =>
    let w := p.data.num (p.address + 8 * e) 8
    let count := w / 2 ^ 48
    let base := w % 2 ^ 48
    let page := p.core + e * 2 ^ p.g * 64
    if 2 ^ p.g < count || w % 64 != 0 then (x.1, x.2 ++ [p.address + 8 * e])
    else
      let at' (u : Nat) : LineEnd := .core cell (page + 64 * u) notTarget
      let go (u : Nat) : LineEnd := .global (base + 64 * u)
      let move := if p.gather then pairEnds count go at' false else pairEnds count at' go false
      let fill := if p.gather && p.zf then (List.range (2 ^ p.g - count)).map fun u => (LineEnd.zeros, [at' (count + u)], false) else []
      (x.1 ++ move ++ fill, x.2)) ([], [])

/-- The whole page list has been read (R234). -/
def State.listRead (s : State) (cell id : Nat) : State :=
  match (s.core cell).cpy.copy? id with
  | none => s
  | some t => match t.list with
    | none => s
    | some p =>
      let r := p.lines cell
      (s.updCpy cell fun e => r.2.foldl (fun e a => e.error t 277 a) (e.setCopy { t with list := none })).giveLines cell id r.1

/-- Issue a gather or a scatter: its list is read at offsets 2 and on. -/
def State.pageCopy (s : State) (f : FormE) (gather : Bool) : State :=
  let c := s.cur
  let core := (c.s' (if gather then f.f1 else f.f2).toNat).toNat
  let address := (c.s' (if gather then f.f2 else f.f1).toNat).toNat
  let entries := (c.s' f.f3.toNat).toNat
  let g := fld f.func 0 4
  let left := cdiv (address % 64 + 8 * entries) 64
  let id := s.nextId
  let p : PageList := { address, entries, g, core, gather, zf := fbit f.func 4, left, data := [] }
  let s1 := s.newCopy f.f4.toNat (some p) [(core, entries * 2 ^ g * 64), (address, 8 * entries)] false !gather
  (List.range left).foldl (fun s v => s.access (2 + v) 0 [{ address := lineOf address + 64 * v, len := 64, lane := v }] (.pageList id)) s1

/-! ## The instructions -/

def execCpt (g : Gate) (f : FormE) (s : State) : Result :=
  s.guarded g (s.copyFault (.cpt g f)) fun s => s.timedCopy f (fld f.func 0 2) (fld f.func 2 2)

def execCptx (g : Gate) (f : FormE) (s : State) : Result :=
  s.guarded g (s.copyFault (.cptx g f)) fun s => s.timedCopy f (fld f.func 0 2) 2

/-- CPH (R237), with its run-ahead of K × 4 KiB. -/
def execCph (g : Gate) (f : FormE) (s : State) : Result :=
  s.guarded g (s.copyFault (.cph g f)) fun s =>
    let c := s.cur
    let cell := s.curT.cell
    let dst := (c.s' f.f1.toNat).toNat
    let src := (c.s' f.f2.toNat).toNat
    let len := (c.s' f.f3.toNat).toNat
    (s.taggedCopy f [(dst, len)] false (pairEnds (len / 64) (fun u => .global (src + 64 * u)) (fun u => .core cell (dst + 64 * u) notTarget)
      false)).prefetch cell (src + len) (fld f.func 4 4 * 64)

/-- CPW (R237). -/
def execCpw (g : Gate) (f : FormE) (s : State) : Result :=
  s.guarded g (s.copyFault (.cpw g f)) fun s =>
    let c := s.cur
    let cell := s.curT.cell
    let dst := (c.s' f.f1.toNat).toNat
    let src := (c.s' f.f2.toNat).toNat
    let len := (c.s' f.f3.toNat).toNat
    s.taggedCopy f [(src, len)] true (pairEnds (len / 64) (fun u => .core cell (src + 64 * u) notTarget) (fun u => .global (dst + 64 * u)) false)

def execCpg (g : Gate) (f : FormE) (s : State) : Result := s.guarded g (s.copyFault (.cpg g f)) fun s => s.pageCopy f true
def execCps (g : Gate) (f : FormE) (s : State) : Result := s.guarded g (s.copyFault (.cps g f)) fun s => s.pageCopy f false

/-- CPM (R239): every line goes to every target. -/
def execCpm (g : Gate) (f : FormE) (s : State) : Result :=
  s.guarded g (s.copyFault (.cpm g f)) fun s =>
    let c := s.cur
    let cell := s.curT.cell
    let dst := (c.s' f.f1.toNat).toNat
    let src := (c.s' f.f2.toNat).toNat
    let len := (c.s' f.f3.toNat).toNat
    let own := if c.targets.contains c.gangPos then [(dst, len)] else []
    s.taggedCopy f own false ((List.range (len / 64)).map fun u =>
      (.global (src + 64 * u), c.targets.map fun p => .core (s.positionCell cell p) (dst + 64 * u) p, false))

/-- CPD (R239): block k goes to target k mod P. -/
def execCpd (g : Gate) (f : FormE) (s : State) : Result :=
  s.guarded g (s.copyFault (.cpd g f)) fun s =>
    let c := s.cur
    let cell := s.curT.cell
    let dst := (c.s' f.f1.toNat).toNat
    let src := (c.s' f.f2.toNat).toNat
    let len := (c.s' f.f3.toNat).toNat
    let b := 2 ^ fld f.func 0 4
    let ts := c.targets
    let own := if ts.contains c.gangPos then [(dst, spreadBytes len b ts.length)] else []
    s.taggedCopy f own false ((List.range (len / 64)).map fun u =>
      let k := u / b
      let p := ts[k % ts.length]?.getD 0
      (.global (src + 64 * u), [.core (s.positionCell cell p) (dst + k / ts.length * b * 64 + u % b * 64) p], false))

/-- CPF (R240). -/
def execCpf (g : Gate) (f : FormE) (s : State) : Result :=
  s.guarded g (s.copyFault (.cpf g f)) fun s =>
    s.prefetch s.curT.cell (s.cur.s' f.f1.toNat).toNat ((s.cur.s' f.f2.toNat).toNat / 64)

/-- CDISC (R241). -/
def execCdisc (g : Gate) (f : FormE) (s : State) : Result :=
  s.guarded g (s.copyFault (.cdisc g f)) fun s =>
    let a := (s.cur.s' f.f1.toNat).toNat
    s.taggedCopy f [] true (pairEnds ((s.cur.s' f.f2.toNat).toNat / 64) (fun _ => .zeros) (fun u => .global (a + 64 * u)) true)

/-! ## Tag waits (R242, R243) -/

/-- Whether a tag wait's condition holds. -/
def CopyEngine.waitOver (e : CopyEngine) (i : Instr) (mask : Word) : Bool :=
  let tags := (List.range 64).filter fun t => mask.getLsbD t
  let g (t : Nat) : Tag := e.tags[t]?.getD Tag.reset
  match i with
  | .cwall .. => tags.all fun t => (g t).done
  | .cwany .. => tags.all (fun t => !(g t).armed) || tags.any fun t => (g t).armed && (g t).done
  | _ => true

/-- The tags an instruction observes now. -/
def CopyEngine.observes (e : CopyEngine) (i : Instr) (mask : Word) : Word :=
  let armed := packTags e.tags (·.armed) &&& mask
  let ready := packTags e.tags (fun g => g.armed && g.done) &&& mask
  match i with
  | .cwall .. => armed
  | .cwany .. => ready
  | .cfirst .. => match (List.range 64).find? fun t => ready.getLsbD t with
    | some t => BitVec.twoPow 64 t
    | none => 0
  | _ => 0

/-- The set fixed when the wait ended, else the set of now (R242). -/
def State.observedSet (s : State) (i : Instr) (mask : Word) : Word :=
  match s.cur.seq.observed.find? fun x => x.1 == s.curT.pc with
  | some x => x.2
  | none => s.cur.cpy.observes i mask

/-- The lowest bit of a word. -/
def lowestBit (w : Word) : Option Nat := (List.range 64).find? fun t => w.getLsbD t

/-- The trap of a wait that observes an error (R243). -/
def State.tagFault (s : State) (i : Instr) (mask : Word) : Option SlotFault :=
  if !s.cur.cpy.etrap then none
  else (lowestBit (s.observedSet i mask &&& packTags s.cur.cpy.tags (·.err))).map fun t => (272, 0, word t)

/-- Observation (R220): armed falls and every slot of the tag is freed. -/
def CopyEngine.observe (e : CopyEngine) (set : Word) : CopyEngine :=
  { e with tags := (List.range 64).foldl (fun (ts : Vector Tag 64) t =>
      if set.getLsbD t then
        let g := ts[t]?.getD Tag.reset
        ts.setIfInBounds t { g with armed := false, slots := 0 }
      else ts) e.tags }

/-- A tag wait's issue: its trap, or its observation and result. -/
def State.tagWait (s : State) (g : Gate) (f : FormE) (i : Instr) (result : CopyEngine → Word → Word → Word) : Result :=
  let mask := s.cur.s' f.f2.toNat
  s.guarded g (s.tagFault i mask) fun s =>
    let set := s.observedSet i mask
    (s.updCpy s.curT.cell fun e => e.observe set).fly 1 [.s f.f1.toNat (result s.cur.cpy mask set)]

def execCwany (g : Gate) (f : FormE) (s : State) : Result := s.tagWait g f (.cwany g f) fun _ _ set => set
def execCwall (g : Gate) (f : FormE) (s : State) : Result :=
  s.tagWait g f (.cwall g f) fun e mask _ => packTags e.tags (·.err) &&& mask
def execCfirst (g : Gate) (f : FormE) (s : State) : Result :=
  s.tagWait g f (.cfirst g f) fun _ _ set => word ((lowestBit set).getD 64)

/-- CTAGS (R244). -/
def execCtags (g : Gate) (f : FormE) (s : State) : Result :=
  s.guarded g none fun s =>
    let mask := s.cur.s' f.f2.toNat
    let sel := fld f.func 0 2
    let v := packTags s.cur.cpy.tags fun t => match sel with
      | 0 => t.done
      | 1 => t.armed
      | 2 => t.err
      | _ => t.cxl
    s.fly 1 (.s f.f1.toNat (v &&& mask) :: if fbit f.func 2 then [.tagClear sel mask] else [])

/-- CCANCEL (R245). -/
def execCcancel (g : Gate) (f : FormE) (s : State) : Result :=
  s.guarded g none fun s => s.updCpy s.curT.cell fun e => e.cancel (s.cur.s' f.f2.toNat)

end Sys2Proof.Machine
end

