-- ==== Sys2Proof/Machine/Collective.lean ====
section
/-! DEFINITION. Collectives (14_fabric R442 to R450). -/

namespace Sys2Proof.Machine

open Sys2Proof

/-! ## Beats to other packages (R437) -/

/-- Axis, direction and lane of a port (R436). -/
def portAxis (p : Nat) : Nat := p / 4
def portMinus (p : Nat) : Bool := p / 2 % 2 == 1
def portLane (p : Nat) : Nat := p % 2
/-- The other lane of a port's pair. -/
def otherLane (p : Nat) : Nat := if portLane p == 0 then p + 1 else p - 1

def State.link (s : State) (p : Nat) : Link := s.pkg.links[p]?.getD Link.reset
def State.updLink (s : State) (p : Nat) (f : Link → Link) : State :=
  s.updPkg fun k => { k with links := k.links.setIfInBounds p (f (s.link p)) }

/-- Whether a link's training is complete (R436). -/
def Link.up (l : Link) (clk : Nat) : Bool := l.upAt.any fun t => decide (t ≤ clk)

/-- The first port in service that satisfies a test. -/
def State.firstPort (s : State) (ok : Nat → Link → Bool) : Option Nat := (List.range 12).find? fun p => (s.link p).en && ok p (s.link p)

/-- The port that a beat for a domain position leaves by: the neighbour's, else the one along the first axis, x before y before z, on
which the two packages' places differ (R438). Their places on the torus are not in the spec (log entry 32). -/
def State.portFor (s : State) (dest : Nat) : Option Nat :=
  let here := s.pkg.domPos
  match s.firstPort fun _ l => l.nbr == dest with
  | some p => some p
  | none => ([0, 1, 2].find? fun a => Config.torusAt here a != Config.torusAt dest a).bind fun a =>
      s.firstPort fun p _ => portAxis p == a && portMinus p == Config.torusMinus here dest

/-- Domain-barrier arrivals go out on both lanes of a pair (R438). -/
def bothLanes (b : BeatBody) : Bool :=
  match b with
  | .domainArrival .. => true
  | _ => false

/-- Queue a beat at a port. -/
def State.queueBeat (s : State) (p cls dest : Nat) (body : BeatBody) : State :=
  let b : Beat := { destination := dest, sent := 0, body }
  s.updLink p fun l => { l with queue := l.queue ++ [(cls, b)] }

/-- Queue a beat of a class. -/
def State.sendBeat (s : State) (cls dest : Nat) (body : BeatBody) : State :=
  match s.portFor dest with
  | none => s
  | some p =>
    let s1 := s.queueBeat p cls dest body
    if bothLanes body && (s.link (otherLane p)).en then s1.queueBeat (otherLane p) cls dest body else s1

def clsCollective : Nat := 0
def clsMirror : Nat := 1
def clsCounter : Nat := 2
def clsControl : Nat := 3

/-- The other positions of a mask. -/
def State.others (s : State) (mask : Word) : List Nat := (List.range 64).filter fun i => mask.getLsbD i && i != s.pkg.domPos

/-! ## Records (R443, R444) -/

def wordAt (ws : List Word) (n : Nat) : Word := ws[n]?.getD 0
def cKind (ws : List Word) : Nat := fld (wordAt ws 0) 0 4
def cOp (ws : List Word) : Nat := fld (wordAt ws 0) 4 4
def cType (ws : List Word) : Nat := fld (wordAt ws 0) 8 5
def cRnd (ws : List Word) : Nat := fld (wordAt ws 0) 13 3
def cId (ws : List Word) : Nat := fld (wordAt ws 0) 16 10
def cRootPos (ws : List Word) : Nat := fld (wordAt ws 0) 32 7
def cRootPkg (ws : List Word) : Nat := fld (wordAt ws 0) 39 6
def cTo (ws : List Word) : Nat := fld (wordAt ws 0) 45 5
def cSrc (ws : List Word) : Nat := fld (wordAt ws 1) 0 32
def cDst (ws : List Word) : Nat := fld (wordAt ws 1) 32 32
def cN (ws : List Word) : Nat := fld (wordAt ws 2) 0 32
def cMask (ws : List Word) : Word := wordAt ws 3
def cWidth (ws : List Word) : Nat := typeBytes (cType ws)

def maskCount (m : Word) : Nat := (List.range 64).foldl (fun n i => n + (m.getLsbD i).toNat) 0
/-- Packages taking part, this package's rank, and participants (R442). -/
def cPackages (ws : List Word) : Nat := if cMask ws == 0 then 1 else maskCount (cMask ws)
def State.cRank (s : State) (ws : List Word) : Nat := maskCount (cMask ws &&& (BitVec.twoPow 64 s.pkg.domPos - 1))
def cAll (ws : List Word) (p : Nat) : Nat := p * cPackages ws

def cSourceBytes (ws : List Word) : Nat := cN ws * cWidth ws
/-- Destination length (R443). -/
def cDestBytes (ws : List Word) (p : Nat) : Nat :=
  match cKind ws with
  | 1 => cN ws * cWidth ws / cAll ws p
  | 2 => cAll ws p * cN ws * cWidth ws
  | _ => cN ws * cWidth ws

/-- The lowest set bit of some bits of a word, if any. -/
def badBits (w : Word) (lo n : Nat) : Option Nat := (List.range n).findSome? fun i => if w.getLsbD (lo + i) then some (lo + i) else none

def badIf (b : Bool) (bit : Nat) : Option Nat := if b then some bit else none

/-- The lowest of the bits found. -/
def leastBit (xs : List (Option Nat)) : Option Nat := xs.foldl (fun m x => match m, x with
  | some a, some b => some (min a b)
  | some a, none => some a
  | none, x => x) none

/-- The offending bit of word 0. -/
def badWord0 (ws : List Word) (p : Nat) : Option Nat :=
  let w := wordAt ws 0
  let t := cType ws
  let bcast := cKind ws == 3
  leastBit [badIf (decide (3 < cKind ws)) 0, badIf (decide (7 < cOp ws) || (decide (3 ≤ cOp ws) && decide (cOp ws ≤ 5) && 8 ≤ t)) 4,
    badIf (!(t == 2 || t == 3 || t == 6 || t == 7 || (8 ≤ t && t ≤ 11))) 8, badIf (decide (4 < cRnd ws)) 13, badBits w 26 6,
    badIf (if bcast then decide (p ≤ cRootPos ws) else cRootPos ws != 0) 32,
    badIf (if bcast then (if cMask ws == 0 then cRootPkg ws != 0 else !(cMask ws).getLsbD (cRootPkg ws)) else cRootPkg ws != 0) 39,
    badIf (!(10 ≤ cTo ws && cTo ws ≤ 30)) 45, badBits w 50 14]

/-- The offending bit of word 3. -/
def State.badWord3 (s : State) (ws : List Word) : Option Nat :=
  let m := cMask ws
  if m == 0 then none
  else if !s.pkg.indom then badBits m 0 64
  else leastBit [badBits m s.pkg.domSize (64 - s.pkg.domSize), badIf (!m.getLsbD s.pkg.domPos) s.pkg.domPos]

/-- The offending word and bit of a record (R444): `live` when the core holds a live instance of its id. -/
def State.badRecord (s : State) (ws : List Word) (p : Nat) (live : Bool) : Option (Nat × Nat) :=
  let outsideStore (a n : Nat) : Bool := a % 64 != 0 || decide (coreStoreSize < a + n)
  let n := cN ws
  let bits : List (Nat × Option Nat) :=
    [(0, leastBit [badWord0 ws p, badIf live 16]),
     (1, leastBit [badIf (outsideStore (cSrc ws) (cSourceBytes ws)) 0, badIf (outsideStore (cDst ws) (cDestBytes ws p)) 32]),
     (2, leastBit [badIf (!(1 ≤ n && n ≤ 2 ^ 18) || (cKind ws == 1 && n % cAll ws p != 0)) 0, badBits (wordAt ws 2) 32 32]),
     (3, s.badWord3 ws), (4, badBits (wordAt ws 4) 0 64), (5, badBits (wordAt ws 5) 0 64), (6, badBits (wordAt ws 6) 0 64)]
  bits.findSome? fun x => x.2.map fun b => (x.1, b)

def recordVal (x : Nat × Nat) : Word := word (x.1 + x.2 * 2 ^ 8)

/-! ## Attempts (R448, R449) -/

def State.attempt (s : State) (ctx id : Nat) : BitVec 16 := (s.ctx ctx).attempts.getD id 0
/-- Attempt `a` is newer than `b`. -/
def newer (a b : BitVec 16) : Bool := decide (1 ≤ (a - b).toNat) && decide ((a - b).toNat ≤ 32767)

/-- The participant has neither abandoned its instance nor finished it. -/
def Phase.live (p : Phase) : Bool :=
  match p with
  | .abandoned _ | .ending _ | .served _ => false
  | _ => true

/-- An instance ends for one participant (R447, R450): its pending lines are dropped, the cause is
recorded, and a control packet tells its core (R421); the status word follows. -/
def State.abandonOne (s : State) (p : Participant) (cause : Nat) : State :=
  if !p.phase.live then s
  else
    let s1 := s.updPkg fun k => { k with colls := k.colls.map fun x => { x with here := x.here.map fun q =>
      if q.copy == p.copy then { q with phase := .abandoned cause } else q } }
    let s2 := s1.updCpy p.cell fun e => match e.copy? p.copy with
      | some t => (e.setCopy { t with lines := [] }).error t cause p.record
      | none => e
    s2.send portDie (routerOf p.cell) 4 phNet p.cell (.op (.collectiveComplete p.cell p.copy))

/-- Abandon the instances of an id that run under an older attempt (R448). -/
def State.abandonOlder (s : State) (ctx id : Nat) (attempt : BitVec 16) (cause : Nat) : State :=
  (s.pkg.colls.filter fun x => x.ctx == ctx && x.id == id && newer attempt x.attempt).foldl
    (fun s x => x.here.foldl (fun s p => s.abandonOne p cause) s) s

/-- The key of a package's partials of a name, and whether a key is of an id of a context. -/
def nameKey (ctx gang id place : Nat) : Nat := ((ctx * 1024 + id) * 128 + gang) * 64 + place
def ofName (ctx id key : Nat) : Bool := key / (64 * 128) == ctx * 1024 + id

/-- Advance the attempt table (R448): the instances and partials of the new attempt are counted anew. -/
def State.advance (s : State) (ctx id : Nat) (attempt : BitVec 16) : State :=
  if newer attempt (s.attempt ctx id) then
    ((s.updCtx ctx fun x => { x with attempts := x.attempts.set id attempt }).updPkg fun k =>
      { k with partials := k.partials.filter fun p => !(p.ctx == ctx && p.id == id)
               colls := k.colls.filter fun x => !(x.ctx == ctx && x.id == id && x.here.isEmpty)
               begun := k.begun.filter fun b => !ofName ctx id b.1, came := k.came.filter fun b => !ofName ctx id b.1 }).abandonOlder
      ctx id attempt 369
  else s

/-- Send an abort token for an id to this package and to the packages of a mask (R449). This package's own table takes it at once (log
entry 47), so that an instance begun later runs under a newer attempt (R450, 13_proof R408). -/
def State.abortToken (s : State) (ctx id : Nat) (mask : Word) : State :=
  let a := s.attempt ctx id + 1
  ((s.others mask).foldl (fun s d => s.sendBeat clsControl d (.abort ctx id a)) s).advance ctx id a

/-- ABORT_TOKEN_ARRIVAL (R449). -/
def execAbortTokenArrival (ctx id : Nat) (attempt : BitVec 16) (s : State) : Result := .next (s.advance ctx id attempt)

/-- Whether a packet of an attempt is dropped at ingress (R448). -/
def State.stale (s : State) (ctx id : Nat) (attempt : BitVec 16) : Bool := newer (s.attempt ctx id) attempt

/-- COLLECTIVE_PACKET_INGRESS (R448). -/
def execCollectivePacketIngress (ctx id : Nat) (attempt : BitVec 16) (s : State) : Result :=
  .next (if s.stale ctx id attempt then s.updPkg fun k => { k with collDrop := k.collDrop + 1 } else s.advance ctx id attempt)

/-! ## COLL and CABORT (R444, R449) -/

/-- Issue-time faults of COLL and CABORT. -/
def State.collFault (s : State) (i : Instr) : Option SlotFault :=
  let c := s.cur
  let check (a : Nat) : List (Option SlotFault) := [misaligned a 64, outside a 64]
  match i with
  | .coll _ f =>
    let a := (c.s' f.f2.toNat).toNat
    firstOf (check a ++ [(s.regionHit s.curT.cell a 64).map fun x => (176, 0, word x),
      if 256 ≤ c.cpy.slots then some (273, 0, 256) else none])
  | .cabort _ f => firstOf (check (c.s' f.f2.toNat).toNat)
  | _ => none

def execColl (g : Gate) (f : FormE) (s : State) : Result :=
  s.guarded g (s.collFault (.coll g f)) fun s =>
    let a := (s.cur.s' f.f2.toNat).toNat
    let id := s.nextId
    (s.newCopy f.f4.toNat none [(a, 64)] true false).access 2 0 (oneLine a 64) (.record id)

def execCabort (g : Gate) (f : FormE) (s : State) : Result :=
  s.guarded g (s.collFault (.cabort g f)) fun s => s.access 2 0 (oneLine (s.cur.s' f.f2.toNat).toNat 64) .abortRecord

/-- The words of a record. -/
def recordWords (m : Memory) (a : Nat) : List Word := (List.range 8).map fun i => word (m.num (a + 8 * i) 8)

/-- Whether a core holds a live instance of an id. -/
def State.holdsInstance (s : State) (cell id : Nat) : Bool :=
  s.pkg.colls.any fun x => x.id == id && x.here.any fun p => p.cell == cell

/-- The place of a participant in an instance is free. -/
def Collective.lacks (x : Collective) (position : Nat) : Bool := !(x.gone.contains position || x.here.any fun p => p.position == position)

/-- Join the oldest instance of the name and attempt that lacks the participant, or begin one (R442). -/
def joinInstance (x : Collective) (p : Participant) : List Collective → List Collective
  | [] => [{ x with here := [p] }]
  | y :: t =>
    if y.ctx == x.ctx && y.gang == x.gang && y.plate == x.plate && y.id == x.id && y.attempt == x.attempt && y.lacks p.position then
      { y with here := y.here ++ [p] } :: t
    else y :: joinInstance x p t

def State.updColl (s : State) (no : Nat) (f : Collective → Collective) : State :=
  s.updPkg fun k => { k with colls := k.colls.map fun y => if y.no == no then f y else y }

/-- An instance expects a partial of each other package of a mask: the next one that no instance expects yet. -/
def State.expects (s : State) (no : Nat) (mask : Word) : State :=
  (s.others mask).foldl (fun s place =>
    match s.pkg.colls.find? fun x => x.no == no && (x.orders.get? place).isNone with
    | none => s
    | some x =>
      let key := nameKey x.ctx x.gang x.id place
      let n := s.pkg.begun.getD key 0
      (s.updColl no fun y => { y with orders := y.orders.set place n }).updPkg fun k => { k with begun := k.begun.set key (n + 1) }) s

/-- The instance that a copy is a participant of. -/
def State.collOf (s : State) (copy : Nat) : Option Collective := s.pkg.colls.find? fun x => x.here.any fun p => p.copy == copy

/-- The record of a COLL has been read at offset 2 (R444): its perform-time fault, or the participant. -/
def State.recordRead (s : State) (a : Access) (address copy : Nat) : State :=
  let cell := a.cell
  let c := s.core cell
  let ws := recordWords s.mem (coreStoreBase cell + address)
  let p := c.gangSize
  match c.cpy.copy? copy with
  | none => s
  | some t =>
    let fail (cause : Nat) (val : Word) : State :=
      (s.updCpy cell fun e => e.undo t).noteFault cell a.issued .trap { cause, slot := a.slot, lane := 0, pc := a.pc, val }
    match s.badRecord ws p (s.holdsInstance cell (cId ws)) with
    | some x => fail 368 (recordVal x)
    | none =>
      let src := (cSrc ws, cSourceBytes ws)
      let dst := (cDst ws, cDestBytes ws p)
      match s.regionHit cell src.1 src.2, s.regionHit cell dst.1 dst.2 with
      | some x, some y => fail 176 (word (min x y))
      | some x, none => fail 176 (word x)
      | none, some y => fail 176 (word y)
      | none, none =>
        let q : Participant := { cell, copy, record := address, words := ws, position := c.gangPos, issued := a.issued,
                                 phase := .collecting, source := [], flags := 0 }
        let x : Collective := { no := s.nextId, ctx := c.ctx, gang := c.gang, plate := plateOf cell, id := cId ws, attempt := s.attempt c.ctx (cId ws),
                                size := p, here := [], gone := [], orders := [], sent := false, given := false, differ := false }
        let s0 := { s with nextId := s.nextId + 1 }.updPkg fun k => { k with colls := joinInstance x q k.colls }
        let s1 := (s0.expects (((s0.collOf copy).map (·.no)).getD s.nextId) (cMask ws)).updCpy cell fun e =>
          e.setCopy { t with ranges := [(address, 64), src, dst] }
        let s2 := (s1.giveLines cell copy (pairEnds (cdiv src.2 64) (fun u => .core cell (src.1 + 64 * u) notTarget)
          (fun u => .collect (64 * u)) false)).at' (a.issued + 2 ^ cTo ws) phNet cell (.op (.collectiveTimeout cell copy))
        -- the core has ended or is being pre-empted since the COLL issued (R450), or the records differ
        let s3 := if c.run.live then s2 else s2.after 0 phNet cell (.op (.collectiveTimeout cell copy))
        s3.after 0 phNet cell (.op (.collectiveComplete cell copy))

/-- The record of a CABORT has been read. -/
def State.abortRead (s : State) (a : Access) (address : Nat) : State :=
  let c := s.core a.cell
  let ws := recordWords s.mem (coreStoreBase a.cell + address)
  let bad : Option (Nat × Nat) := match badWord0 ws c.gangSize with
    | some b => some (0, b)
    | none => (s.badWord3 ws).map fun b => (3, b)
  match bad with
  | some x => s.noteFault a.cell a.issued .trap { cause := 368, slot := a.slot, lane := 0, pc := a.pc, val := recordVal x }
  | none => s.abortToken c.ctx (cId ws) (cMask ws)

/-! ## Results (R445, R446) -/

/-- R445's operation as a tree operation. -/
def cTreeOp (ws : List Word) : Nat × Bool :=
  match cOp ws with
  | 0 => (if isIntType (cType ws) then 0 else 1, false)
  | 1 => (2, false)
  | 2 => (3, false)
  | 3 => (6, false)
  | 4 => (7, false)
  | 5 => (8, false)
  | 6 => (2, true)
  | _ => (3, true)

/-- Elements of a byte list. -/
def elemsOf (w : Nat) (bs : List Byte) : List Nat :=
  (List.range (bs.length / w)).map fun e => ((bs.drop (e * w)).take w).foldr (fun b n => n * 256 + b.toNat) 0

/-- Reduce one element over sources in order. -/
def reduceElem (ws : List Word) (xs : List Nat) : Nat × Flags :=
  let o := cTreeOp ws
  let r := treeReduce o.1 (cType ws) o.2 (cRnd ws) false xs.length (xs.map fun x => some (x, 0))
  ((r.1.map (·.1)).getD 0, r.2)

/-- Reduce sources element by element. -/
def reduceAll (ws : List Word) (sources : List (List Byte)) : List Byte × Flags :=
  let w := cWidth ws
  let es := sources.map (elemsOf w)
  (List.range (cN ws)).foldl (fun (x : List Byte × Flags) e =>
    let r := reduceElem ws (es.map fun l => l[e]?.getD 0)
    (x.1 ++ leBytes r.1 w, x.2 ||| r.2)) ([], 0)

/-- The participants of an instance in gang order. -/
def Collective.ordered (x : Collective) : List Participant := (List.range x.size).filterMap fun i => x.here.find? fun p => p.position == i

def Participant.bytes (p : Participant) : List Byte := p.source.bytes 0 (cSourceBytes p.words)

/-- This package's partial, with its flags: a reduced vector, every source in order, or the root's source (R446). -/
def State.localPartial (s : State) (x : Collective) (ws : List Word) : List Byte × Flags :=
  let srcs := x.ordered.map Participant.bytes
  match cKind ws with
  | 2 => (srcs.flatMap id, 0)
  | 3 => (if cMask ws == 0 || cRootPkg ws == s.pkg.domPos then srcs[cRootPos ws]?.getD [] else [], 0)
  | _ => reduceAll ws srcs

/-- The bytes of a partial that have come, and whether they are all of it. -/
def RemotePartial.bytes (p : RemotePartial) : List Byte := p.pieces.flatMap (·.2)
def RemotePartial.whole (p : RemotePartial) : Bool := !p.pieces.isEmpty && p.bytes.length == p.total

/-- The payloads that carry a partial, by their offsets: 64 bytes a beat (R437). -/
def beatPieces (bs : List Byte) : Table (List Byte) :=
  if bs.isEmpty then [(0, [])] else (List.range (cdiv bs.length 64)).map fun i => (64 * i, (bs.drop (64 * i)).take 64)

/-- A partial is the one that an instance waits for from its package. -/
def Collective.meets (x : Collective) (p : RemotePartial) : Bool :=
  p.ctx == x.ctx && p.gang == x.gang && p.id == x.id && p.attempt == x.attempt && x.orders.get? p.place == some p.order

/-- The domain positions of a mask in rank order. -/
def maskPlaces (m : Word) : List Nat := (List.range 64).filter fun i => m.getLsbD i

/-- The partials of every package in rank order, if all are here. -/
def State.allPartials (s : State) (x : Collective) (ws : List Word) : Option (List (RemotePartial)) :=
  let own : RemotePartial :=
    let r := s.localPartial x ws
    { ctx := x.ctx, gang := x.gang, id := x.id, place := s.pkg.domPos, order := 0, size := x.size, attempt := x.attempt,
      words := [wordAt ws 0, wordAt ws 2, wordAt ws 3], total := r.1.length, pieces := beatPieces r.1, flags := r.2 }
  let places := if cMask ws == 0 then [s.pkg.domPos] else maskPlaces (cMask ws)
  places.foldr (fun k acc => match acc, (if k == s.pkg.domPos then some own
      else s.pkg.partials.find? fun p => p.place == k && x.meets p && p.whole) with
    | some l, some p => some (p :: l)
    | _, _ => none) (some [])

/-- What participant `i` of a package of a rank receives, and the collective's flags. -/
def resultFor (ws : List Word) (size rank i : Nat) (ps : List RemotePartial) : List Byte × Flags :=
  let fl := ps.foldl (fun f p => f ||| p.flags) 0
  let all := ps.flatMap fun p => p.bytes
  match cKind ws with
  | 2 => (all, fl)
  | 3 => (all, fl)
  | k =>
    let r := reduceAll ws (ps.map fun p => p.bytes)
    let n := cDestBytes ws size
    (if k == 1 then (r.1.drop ((rank * size + i) * n)).take n else r.1, fl ||| r.2)

/-- Give a participant its destination lines: the last one only as far as the destination reaches (R446). -/
def State.deliver (s : State) (p : Participant) (bs : List Byte) (fl : Flags) : State :=
  let s1 := s.updPkg fun k => { k with colls := k.colls.map fun x => { x with here := x.here.map fun q =>
    if q.copy == p.copy then { q with phase := .delivering, flags := fl } else q } }
  (List.range (cdiv bs.length 64)).foldl (fun s u =>
    let part := (bs.drop (64 * u)).take 64
    let l : CopyLine := { id := s.nextId, src := .zeros, dsts := [.core p.cell (cDst p.words + 64 * u) notTarget], stage := 0, read := true,
                          physical := 0, data := BitVec.ofNat 512 (part.foldr (fun b n => n * 256 + b.toNat) 0), bytes := part.length,
                          discard := false }
    ({ s with nextId := s.nextId + 1 }.updCpy p.cell fun e => e.mapCopy p.copy fun t =>
      { t with lines := t.lines ++ [l] }).lineLater p.cell l.id) s1

/-- Words 0, 2 and 3 agree over the participants that have joined and the partials that have come, and so do the gang sizes (R450). -/
def State.sameRecords (s : State) (x : Collective) (ws : List Word) : Bool :=
  let key (v : List Word) : List Word := [wordAt v 0, wordAt v 2, wordAt v 3]
  (x.here.all fun p => key p.words == key ws) && s.pkg.partials.all fun p => !x.meets p || (p.words == key ws && p.size == x.size)

/-- Send this package's partial of an instance, of gang size `size`, to the packages of a mask (R437). -/
def State.sendPartial (s : State) (x : Collective) (ws : List Word) (size : Nat) (r : List Byte × Flags) (mask : Word) : State :=
  let body (c : Nat × List Byte) : BeatBody := .partialResult x.ctx x.gang x.id (s.cRank ws) size x.attempt
    [wordAt ws 0, wordAt ws 2, wordAt ws 3] r.1.length c.1 c.2 r.2
  ((s.others mask).foldl (fun s d => (beatPieces r.1).foldl (fun s c => s.sendBeat clsCollective d (body c)) s) s).updColl x.no fun y =>
    { y with sent := true }

/-- The records of an instance differ (R450): every participant abandons it. A package that has not sent its partial tells the packages
that any record or partial names by a partial of gang size 0, which no record matches (log entry 47). -/
def State.mismatch (s : State) (x : Collective) (ws : List Word) : State :=
  let masks := x.here.map (fun p => cMask p.words) ++ ((s.pkg.partials.filter x.meets).map fun p => wordAt p.words 2)
  let mask := masks.foldl (· ||| ·) 0
  let s1 := if x.sent then s else s.sendPartial x ws 0 ([], 0) mask
  x.here.foldl (fun s q => s.abandonOne q 370) ((s1.expects x.no mask).updColl x.no fun y => { y with differ := true })

/-- Carry an instance on: abandon it as mismatched as soon as that shows, else send its partial, then deliver. -/
def State.tryInstance (s : State) (x : Collective) : State :=
  let ready := x.ordered.length == x.size && x.here.all fun p => p.phase == .waiting
  match x.here with
  | [] => s
  | p :: _ =>
    let ws := p.words
    if x.given then s
    else if x.differ || !s.sameRecords x ws then s.mismatch x ws
    else if !ready then s
    else
      let s1 := if x.sent || cPackages ws ≤ 1 then s else s.sendPartial x ws x.size (s.localPartial x ws) (cMask ws)
      match s1.allPartials x ws with
      | none => s1
      | some ps => x.here.foldl (fun s q =>
          let r := resultFor ws x.size (s.cRank ws) q.position ps
          s.deliver q r.1 r.2) (s1.updColl x.no fun y => { y with given := true })

/-- The status word of R447. -/
def statusWord (cause : Nat) (err : Bool) (fl : Flags) (attempt : BitVec 16) : Word :=
  word (cause * 2 ^ 24 + err.toNat * 2 ^ 23 + 2 ^ 22 + fl.toNat * 2 ^ 16 + attempt.toNat)

/-- A participant's status word goes to the side port of its record (R447). -/
def State.endsWith (s : State) (p : Participant) (cause : Nat) : State :=
  (s.updPkg fun k => { k with colls := k.colls.map fun x => { x with here := x.here.map fun q =>
    if q.copy == p.copy then { q with phase := .ending cause } else q } }).queueJob p.cell (bankOf p.record) (.status p.cell p.copy)

/-- A participant writes its status word and its copy has performed (R447). An instance goes with its last participant, and so do the
partials that it used. -/
def State.endParticipant (s : State) (x : Collective) (p : Participant) (cause : Nat) : State :=
  let w := statusWord cause (cause != 0) p.flags x.attempt
  let s1 := { s with mem := s.mem.putNum (coreStoreBase p.cell + p.record + 56) 8 w.toNat }.updCpy p.cell fun e =>
    match e.copy? p.copy with
    | some t => e.finishCopy t
    | none => e
  let y : Collective := { x with here := x.here.filter (fun q => q.copy != p.copy), gone := p.position :: x.gone }
  let ends := decide (y.size ≤ y.gone.length) || (y.here.isEmpty && y.attempt != s.attempt y.ctx y.id)
  if !ends then s1.updColl x.no fun _ => y
  else s1.updPkg fun k => { k with colls := k.colls.filter (fun z => z.no != x.no), partials := k.partials.filter fun q => !(x.meets q && q.whole) }

/-- COLLECTIVE_COMPLETE (R446, R447): a participant whose lines are done waits for the others, or writes its status word. -/
def execCollectiveComplete (cell job : Nat) (s : State) : Result :=
  match s.collOf job with
  | none => .next s
  | some x => match x.here.find? fun p => p.copy == job with
    | none => .next s
    | some p =>
      let empty := match (s.core cell).cpy.copy? job with
        | some t => t.lines.isEmpty
        | none => true
      match p.phase with
      | .abandoned cause => .next (s.endsWith p cause)
      | .ending _ => .next s
      | .served cause => .next (s.endParticipant x p cause)
      | .delivering => .next (if empty then s.endsWith p 0 else s)
      | .waiting => .next (s.tryInstance x)
      | .collecting =>
        if !empty then .next (s.tryInstance x)
        else
          let x1 := { x with here := x.here.map fun q => if q.copy == job then { q with phase := .waiting } else q }
          let s1 := s.updPkg fun k => { k with colls := k.colls.map fun y => if y == x then x1 else y }
          .next (s1.tryInstance x1)

/-- COLLECTIVE_TIMEOUT (R450): the participant abandons its incomplete instance, by its timeout or because its core ends or is
pre-empted, and sends an abort token. -/
def execCollectiveTimeout (cell job : Nat) (s : State) : Result :=
  match s.collOf job with
  | none => .next s
  | some x => match x.here.find? fun p => p.copy == job with
    | none => .next s
    | some p =>
      if p.cell != cell || !p.phase.live then .next s
      else
        let cause := if p.issued + 2 ^ cTo p.words ≤ s.clk then 371 else 369
        .next ((s.abandonOne p cause).abortToken x.ctx x.id (cMask p.words))

end Sys2Proof.Machine
end

