-- ==== Sys2Proof/Machine/Perform.lean ====
section
/-! DEFINITION. Results land and timed accesses perform (05_sequencer R118, R119, R140 to R144; 04_ordering R96 to R99; 14_fabric R419;
15_causes R454). -/

namespace Sys2Proof.Machine

open Sys2Proof

/-! ## RESULT_LANDING -/

/-- Insert by a rank, after those of equal rank. -/
def insertBy {α : Type} (key : α → Nat) (x : α) : List α → List α
  | [] => [x]
  | y :: t => if key y ≤ key x then y :: insertBy key x t else x :: y :: t

def sortBy {α : Type} (key : α → Nat) (xs : List α) : List α := xs.foldl (fun l x => insertBy key x l) []

/-- Two results, or a result and an access, of one instruction. -/
def Flight.mate (f g : Flight) : Bool := f.issued == g.issued && f.slot == g.slot && f.pc == g.pc

/-- WOPEN lands (09_windows R274): a core that has ended or is being pre-empted closes it at once (R266). -/
def State.openWindow (s : State) (cell n : Nat) (w : Window) : State :=
  let s1 := s.setWindow cell n w
  let r := (s.core cell).run
  if r.ended || r == .idle || r == .preempting || r == .preempted then s1.closeWindow cell n true else s1

/-- One landing of a result. -/
def State.landOne (s : State) (cell : Nat) (f : Flight) (l : Landing) : State :=
  let upd (g : TimedRegs → TimedRegs) : State := s.updCore cell fun c => { c with regs := g c.regs }
  match l with
  | .s n v => upd (·.setS n v)
  | .a n v => upd (·.setA n v)
  | .p n v => upd (·.setP n v)
  | .v n x bits => upd (·.setV n x bits)
  | .pv n x bits => upd (·.setPv n x bits)
  | .k n x bits => upd (·.setK n x bits)
  | .stride n v => s.updCore cell fun c => { c with regs := c.regs.setA n (c.a' n + v) }
  | .creg n v => s.updCore cell fun c => c.writeCreg n v
  | .energy rate => s.updMtx cell fun m =>
      let r : BitVec 32 := BitVec.ofNat 32 (min rate.toNat m.cap.toNat)
      { m with rate := r, bucket := clipBucket m.bucket.toInt r.toNat }
  | .tagClear sel mask => s.updCpy cell fun e => { e with tags := clearTags e.tags mask (sel == 2) (sel == 3) }
  | .swapPlanes => s.updMtx cell fun m => { m with active := m.shadow, shadow := m.active }
  | .zrow tile first xs => s.updMtx cell fun m =>
      m.setTile tile ((List.range xs.length).zip xs |>.foldl (fun (t : Tile) x => t.put (first + x.1) x.2) (m.tile tile))
  | .matrixGang mask => s.landGang cell (BitVec.ofNat 4 mask)
  | .openWindow n base size close action expect posts =>
      let old := (s.core cell).window n
      s.openWindow cell n { base, size, openAt := s.tick, close, action, rcvd := 0, expect, stalling := false, absent := false,
                            missed := false, isOpen := true, target := old.target, pst := posts, owed := old.owed, opener := some f.issued }
  | .shut n =>
      if ((s.core cell).window n).isOpen then (s.closeWindow cell n false).endStall cell n (s.clk + 9) else s
  | .post d n k st =>
      let w := (s.core cell).window n
      let v := if st then w.stat else w.pst[k]?.getD 0
      let g : Flight := { f with due := s.clk + 1, landings := [.s d v] }
      (s.updCore cell fun c => { c with flights := c.flights ++ [g] }).after 1 phLand cell (.op (.resultLanding cell))

def Landing.isCreg : Landing → Bool
  | .creg .. => true
  | _ => false
def Landing.isStride : Landing → Bool
  | .stride .. => true
  | _ => false

/-- The landings of some results that satisfy a test. -/
def State.landSome (s : State) (cell : Nat) (p : Landing → Bool) (fs : List Flight) : State :=
  fs.foldl (fun s f => (f.landings.filter p).foldl (fun s l => s.landOne cell f l) s) s

/-- The fault of a result at its landing (06_vector R157, R175; 07_matrix R196). -/
def Flight.fault (f : Flight) (t : TimedControl) : Option (FaultAct × FaultInfo) :=
  match f.park with
  | some p => some (.park, { cause := 240, slot := f.slot, lane := p.1, pc := f.pc, val := p.2 })
  | none =>
    let all := unionFlags f.flags
    let en := t.enables f.group
    if all &&& en == 0 then none
    else some (.trap, { cause := f.group.cause, slot := f.slot, lane := firstLane f.flags en, pc := f.pc, val := arithVal all f.opcode })

/-- RESULT_LANDING (R119): the results due on a core land in issue order; control registers first, then flags over them (R121), loop
strides last. A faulting result writes nothing, and no other destination of its instruction is written. -/
def execResultLanding (cell : Nat) (s : State) : Result :=
  let c := s.core cell
  let due := sortBy Flight.seq (c.flights.filter fun f => decide (f.due ≤ s.clk))
  let s1 := s.updCore cell fun c => { c with flights := c.flights.filter fun f => !decide (f.due ≤ s.clk) }
  let s2 := s1.landSome cell Landing.isCreg due
  let ctl := (s2.core cell).ctl
  let bad := due.filter fun f => (f.fault ctl).isSome
  let good := due.filter fun f => !bad.any (·.mate f)
  let s3 := s2.updCore cell fun c => { c with flights := c.flights.filter fun f => !bad.any (·.mate f) }
  let s4 := s3.landSome cell (fun l => !(l.isCreg || l.isStride)) good
  let s5 := s4.updCore cell fun c => { c with ctl := due.foldl (fun t f => t.raise f.group (unionFlags f.flags)) c.ctl }
  let s6 := bad.foldl (fun s f => match f.fault ctl with
    | some x => s.noteFault cell f.issued x.1 x.2
    | none => s) s5
  .next (s6.landSome cell Landing.isStride good)

/-! ## TIMED_ACCESS_PERFORM -/

/-- Requester kind of R98. -/
def Access.requester (a : Access) : Nat :=
  if a.space == 2 then 4
  else match a.kind with
    | .load .. => 0
    | .store .. => 1
    | .matrix .. => 2
    | _ => 3

/-- The core store a line lies in. -/
def Access.store (a : Access) (l : AccessLine) : Nat := if a.space == 2 then l.address / 2 ^ 22 else a.cell
/-- Offset of a line in its core store. -/
def Access.storeOffset (_ : Access) (l : AccessLine) : Nat := l.address % 2 ^ 22
/-- The bank port of a line: 32 × cell + bank in core store; in the vault, 128 × cluster + 16 × vault + bank. -/
def Access.portOf (a : Access) (l : AccessLine) : Nat :=
  if a.space == 1 then l.address / 2 ^ 26 * 128 + l.address / 2 ^ 23 % 8 * 16 + l.address / 2 ^ 6 % 16
  else a.store l * 32 + bankOf (a.storeOffset l)

def Access.lateral (a : Access) (l : AccessLine) : Bool := clusterOf a.cell != l.address / 2 ^ 26

/-- A touch of a bank port: whether it is a vault bank, its port, its requester and its cell. -/
structure Touch where
  vault : Bool
  port  : Nat
  kind  : Nat
  cell  : Nat
  lateral : Bool
  deriving DecidableEq, Repr

def Access.touch (a : Access) (l : AccessLine) : Touch :=
  { vault := a.space == 1, port := a.portOf l, kind := a.requester, cell := a.cell, lateral := a.space == 1 && a.lateral l }

/-- The touches that collide with one of them, itself among them (R98, R99, R223, R419). -/
def rivals (ts : List Touch) (t : Touch) : List Touch :=
  if t.vault then ts.filter fun u => u.vault && u.port == t.port && u.lateral == t.lateral && (t.lateral || u.cell == t.cell)
  else ts.filter fun u => !u.vault && u.port == t.port

/-- The two lowest of some numbers, each named once; a single one stands for both. -/
def lowestTwo (xs : List Nat) : Nat × Nat :=
  let a := xs.foldl min (xs.headD 0)
  match xs.filter fun x => x != a with
  | [] => (a, a)
  | y :: ys => (a, ys.foldl min y)

/-- The collision fault of a touch: cause and TVAL (15_causes R454, 14_fabric R419). All touches of one kind of one core are one
requester (R98, 07_matrix R193, 08_copy R223), which is named twice when no other takes part. -/
def collision (ts : List Touch) (t : Touch) : Option (Nat × Word) :=
  let rs := rivals ts t
  if rs.length < 2 then none
  else if t.vault then
    let x := lowestTwo (rs.map (·.cell))
    some (144, word (t.port / 128 * 2 ^ 40 + t.port / 16 % 8 * 2 ^ 36 + t.port % 16 * 2 ^ 32 + x.2 * 2 ^ 16 + x.1))
  else
    let x := lowestTwo (rs.map fun u => u.kind * 512 + u.cell)
    some (112 + t.port % 32, word (x.2 % 512 * 2 ^ 20 + x.2 / 512 * 2 ^ 17 + x.1 % 512 * 2 ^ 5 + x.1 / 512 * 4))

/-- The window-region fault of a line (R142). -/
def State.regionFault (s : State) (a : Access) (l : AccessLine) : Option (Nat × Word) :=
  if a.space == 1 then none
  else (s.regionHit (a.store l) (a.storeOffset l) l.len).map fun x =>
    (176, word (if a.space == 2 then a.store l * 2 ^ 22 + x else x))

/-- Whether two accesses belong to one instruction. -/
def Access.mate (a b : Access) : Bool := a.cell == b.cell && a.issued == b.issued && a.slot == b.slot && a.pc == b.pc

/-- The first fault of an instruction's lines: collisions before window regions, then by line. -/
def State.accessFault (s : State) (ts : List Touch) (mates : List Access) : Option (Nat × Nat × Word) :=
  let ls := mates.flatMap fun a => a.lines.map fun l => (a, l)
  match ls.findSome? fun x => (collision ts (x.1.touch x.2)).map fun f => (f.1, x.2.lane, f.2) with
  | some f => some f
  | none => ls.findSome? fun x => (s.regionFault x.1 x.2).map fun f => (f.1, x.2.lane, f.2)

/-- What the fault of an access undoes or abandons (07_matrix R195, 08_copy R225, R234). -/
def State.abandonAccess (s : State) (a : Access) : State :=
  match a.kind with
  | .matrix command _ => s.updMtx a.cell fun m =>
      { m with cmds := m.cmds.map fun k => if k.id == command then { k with abandoned := true } else k }
  | .copyRead copy _ | .copyWrite copy _ => s.updCpy a.cell fun e => { e with timed := e.timed.filter fun t => t.id != copy }
  | .pageList copy | .record copy => s.updCpy a.cell fun e => match e.copy? copy with
      | some t => e.undo t
      | none => e
  | _ => s

/-- An access faults: none of its instruction's accesses performs from now on, and no result of it lands. -/
def State.failAccess (s : State) (a : Access) (f : Nat × Nat × Word) : State :=
  let s1 := { s with accesses := s.accesses.filter fun b => !a.mate b }.updCore a.cell fun c =>
    { c with flights := c.flights.filter fun g => !(g.issued == a.issued && g.slot == a.slot && g.pc == a.pc) }
  (s1.abandonAccess a).noteFault a.cell a.issued .trap { cause := f.1, slot := a.slot, lane := f.2.1, pc := a.pc, val := f.2.2 }

/-- The register write of a loaded line (R139). -/
def LoadDest.landing (d : LoadDest) (lane x : Nat) : Landing :=
  match d with
  | .scalar n t => .s n (if t < 4 then (BitVec.ofInt 64 (intOf t x)) else word x)
  | .vector n => .v n (BitVec.ofNat 2048 (x * 2 ^ (512 * lane))) (BitVec.ofNat 2048 ((2 ^ 512 - 1) * 2 ^ (512 * lane)))
  | .broadcast n t => .v n (BitVec.ofNat 2048 (x * ((2 ^ 2048 - 1) / (2 ^ typeBits t - 1)))) (BitVec.allOnes 2048)
  | .mask n => .k n (BitVec.ofNat 256 x) (BitVec.allOnes 256)

def AccessKind.writes : AccessKind → Bool
  | .store .. | .copyWrite .. => true
  | _ => false

/-- A timed access consumes an uncorrectable error of the line it reads (05_sequencer R145): the core's program is contained. The spec
gives no TVAL for it: an open value (log entry 12). -/
def State.consumeError (s : State) (a : Access) (l : AccessLine) : State :=
  let d := s.drawValue
  d.2.noteFault a.cell a.issued .contain { cause := 380, slot := a.slot, lane := l.lane, pc := a.pc, val := word d.1 }

/-- The data of one read line. -/
def State.readData (s : State) (a : Access) (l : AccessLine) : State :=
  let x := s.mem.num (spacePhys a.cell a.space l.address) l.len
  match a.kind with
  | .load dest land =>
    let f : Flight := { due := land, seq := a.seq, issued := a.issued, slot := a.slot, opcode := 0, pc := a.pc,
                        landings := [dest.landing l.lane x], group := .none, flags := [], park := none }
    (s.updCore a.cell fun c => { c with flights := c.flights ++ [f] }).at' land phLand a.cell (.op (.resultLanding a.cell))
  | .matrix command scale => s.updMtx a.cell fun m =>
      let put (k : MatrixCommand) : MatrixCommand :=
        if scale then { k with scales := k.scales.putNum (l.address - k.scaleAt) l.len x }
        else { k with elems := k.elems.putNum (l.address - k.address) l.len x }
      { m with cmds := m.cmds.map fun k => if k.id == command then put k else k }
  | .copyRead copy u => s.updCpy a.cell fun e =>
      { e with timed := e.timed.map fun t => if t.id == copy then { t with data := t.data.set u (BitVec.ofNat 512 x) } else t }
  | .pageList copy =>
    let e := (s.core a.cell).cpy
    match e.copy? copy with
    | none => s
    | some t => match t.list with
      | none => s
      | some p =>
        let p1 := { p with left := p.left - 1, data := p.data.putNum l.address 64 x }
        let s1 := s.updCpy a.cell fun e => e.setCopy { t with list := some p1 }
        if p1.left == 0 then s1.listRead a.cell copy else s1
  | .record copy => s.recordRead a l.address copy
  | .abortRecord => s.abortRead a l.address
  | .store .. | .copyWrite .. => s

/-- One read line. -/
def State.readLine (s : State) (a : Access) (l : AccessLine) : State :=
  if !a.kind.writes && s.pkg.poison.contains (lineOf (spacePhys a.cell a.space l.address)) then s.consumeError a l else s.readData a l

/-- One written line. -/
def State.writeLine (s0 : State) (a : Access) (l : AccessLine) : State :=
  let at' := spacePhys a.cell a.space l.address
  let whole := match a.kind with
    | .store _ mask => l.len == 64 && mask / 2 ^ (64 * l.lane) % 2 ^ 64 == 2 ^ 64 - 1
    | .copyWrite .. => true
    | _ => false
  let s := if whole then s0.cleansed at' else s0
  match a.kind with
  | .store data mask => { s with mem := s.mem.putMasked at' l.len (data / 2 ^ (512 * l.lane)) (mask / 2 ^ (64 * l.lane)) }
  | .copyWrite copy u => match (s.core a.cell).cpy.timed.find? fun t => t.id == copy with
    | some t => { s with mem := s.mem.putNum at' 64 (t.data.getD u 0).toNat }
    | none => s
  | _ => s

/-- The first access of each instruction. -/
def leaders : List Access → List Access
  | [] => []
  | a :: t => a :: (leaders t).filter fun b => !a.mate b

/-- TIMED_ACCESS_PERFORM (R96): the accesses due in this period: faults, then reads of the memory of the period before, then writes,
each vault bank's local ports by core and its lateral port last (R419). -/
def execTimedAccessPerform (s : State) : Result :=
  let due := s.accesses.filter fun a => decide (a.due ≤ s.clk)
  let s1 := { s with accesses := s.accesses.filter fun a => !decide (a.due ≤ s.clk) }
  let ts := due.flatMap fun a => a.lines.map a.touch
  let bad := (leaders due).filterMap fun a => (s.accessFault ts (due.filter a.mate)).map fun f => (a, f)
  let good := due.filter fun a => !bad.any fun b => b.1.mate a
  let s2 := bad.foldl (fun s b => s.failAccess b.1 b.2) s1
  let s3 := (sortBy Access.seq good).foldl (fun s a => a.lines.foldl (fun s l => s.readLine a l) s) s2
  let lines := good.flatMap fun a => a.lines.map fun l => (a, l)
  .next ((sortBy (fun x => (if x.1.space == 1 && x.1.lateral x.2 then 512 else 0) + x.1.cell) lines).foldl
    (fun s x => s.writeLine x.1 x.2) s3)

end Sys2Proof.Machine
end

