-- ==== Sys2Proof/Machine/Group.lean ====
section
/-! DEFINITION. The names an instruction uses and the checks of a group (03_encoding R71, R72, R75). -/

namespace Sys2Proof.Machine

open Sys2Proof

/-- A name of R71: its class as R75 numbers it, and its number. -/
abbrev Name := Nat × Nat

def nS (n : BitVec 6) : Name := (0, n.toNat)
def nA (n : Nat) : Name := (1, n)
def nP (n : Nat) : Name := (2, n)
/-- A vector register or a latch. -/
def nV (n : BitVec 6) : Name := if n.toNat < 56 then (3, n.toNat) else (4, n.toNat - 56)
def nPv (n : Nat) : Name := (5, n)
def nK (n : Nat) : Name := (6, n)
def nZ (n : BitVec 6) : Name := (7, n.toNat)
def nLoop : Name := (8, 0)
def nReturn : Name := (9, 0)
def nCreg (n : Nat) : Name := (10, n)

/-- An s or an a register by its class bit. -/
def nCls (isA : Bool) (n : BitVec 6) : Name := if isA then nA n.toNat else nS n
/-- A predicate or a lane mask by its class bit (06_vector R181). -/
def nMask (isK : Bool) (n : BitVec 6) : Name := if isK then nK n.toNat else nPv n.toNat

/-- FMODE as a source of an instruction that rounds with dyn (05_sequencer R122). -/
def nDyn (rnd : Nat) : List Name := if rnd == 6 then [nCreg 0x21] else []

/-- Sources and destinations. -/
abbrev Names := List Name × List Name

def classedNames (f : FormA) : Names := ([nCls (fbit f.func 8) f.a, nCls (fbit f.func 7) f.b], [nCls (fbit f.func 9) f.d])
def vecNames (f : FormA) (b c : Bool) : Names :=
  ([nV f.a] ++ (if b then [nV f.b] else []) ++ (if c then [nV f.c] else []) ++ nDyn f.rnd.toNat, [nV f.d])
def loadNames (f : FormC) (d : Name) : Names := ([nA f.base.toNat], [d])
def storeNames (f : FormC) (x : Name) : Names := ([nA f.base.toNat, x], [])
/-- The four offsets of LDVX and STVX (R139). -/
def indexNames (f : FormC) : List Name := (List.range 4).map fun j => (0, 4 * f.func.toNat + j)
def recordName (f : FormE) : Name := nCreg (0x80 + f.tag.toNat)

/-- What an instruction names apart from its guard. -/
def namesOf (i : Instr) : Names :=
  match i with
  | .waitt _ f => ([nS f.f2], [nS f.f1])
  | .wopen _ f => ([nS f.f1, nS f.f2, nS f.f3] ++ (List.range 4).map (fun j => (0, f.f4.toNat + j)), [])
  | .getpost _ f | .rcnt _ f | .rdtk _ f | .prel _ f => ([], [nS f.f1])
  | .bar _ f => ((if fbit f.func 1 then [nS f.f2] else []) ++ (if fbit f.func 0 then [nS f.f3] else []), [])
  | .pseal _ f => ([nS f.f2], [nS f.f1])
  | .coll _ f | .cabort _ f | .signal _ f => ([nS f.f2], [])
  | .add _ f | .sub _ f | .and _ f | .or _ f | .xor _ f | .shl _ f | .shr _ f | .sar _ f => classedNames f
  | .addi _ f => ([nS f.a], [nS f.d])
  | .mul _ f | .mulh _ f | .mulhn _ f | .div _ f | .divn _ f | .rem _ f | .remn _ f | .min _ f | .max _ f | .minn _ f | .maxn _ f =>
    ([nS f.a, nS f.b], [nS f.d])
  | .clz _ f | .popc _ f | .realign _ f => ([nS f.a], [nS f.d])
  | .li _ f => ([], [nCls (f.a == 1) f.d])
  | .lih _ f => ([nCls (f.a == 1) f.d], [nCls (f.a == 1) f.d])
  | .sel _ f => ([nCls (fbit f.func 8) f.a, nCls (fbit f.func 7) f.b, nP f.c.toNat], [nCls (fbit f.func 9) f.d])
  | .cmp _ f => ([nCls (fbit f.func 8) f.a, nCls (fbit f.func 7) f.b], [nP f.d.toNat])
  | .plog _ f => ([nP f.a.toNat, nP f.b.toNat], [nP f.d.toNat])
  | .br _ f => (if fld f.func 0 3 == 0 then [] else [nS f.cond], [])
  | .brp _ f => ([nP f.cond.toNat], [])
  | .call .. | .ret .. => ([nReturn], [nReturn])
  | .loop _ f => ([nS f.a, nLoop], [nLoop])
  | .lbrk .. => ([nLoop], [nLoop])
  | .lstr _ f => ([nS f.a], [nLoop])
  | .mfc _ f => ([nCreg f.func.toNat], [nS f.d])
  | .mtc _ f => ([nS f.a], [nCreg f.func.toNat])
  | .lds _ f => loadNames f (nS f.data)
  | .ldv _ f | .ldvs _ f | .ldvb _ f => loadNames f (nV f.data)
  | .ldvx _ f => (nA f.base.toNat :: indexNames f, [nV f.data])
  | .ldk _ f => loadNames f (nK f.data.toNat)
  | .sts _ f | .strs _ f => storeNames f (nS f.data)
  | .stv _ f | .strv _ f => storeNames f (nV f.data)
  | .stvm _ f => ([nA f.base.toNat, nV f.data, nK (f.func.toNat % 8)], [])
  | .stvx _ f => ([nA f.base.toNat, nV f.data] ++ indexNames f, [])
  | .stk _ f => storeNames f (nK f.data.toNat)
  | .vadd _ f | .vsub _ f | .vmul _ f | .vmulh _ f | .vmin _ f | .vmax _ f | .vand _ f | .vor _ f | .vxor _ f | .vadds _ f | .vsubs _ f
  | .vshl _ f | .vshr _ f | .vsar _ f | .vfadd _ f | .vfsub _ f | .vfmul _ f | .vfdiv _ f | .vfmin _ f | .vfmax _ f
  | .vqb _ f | .vdqb _ f | .vbias _ f => vecNames f true false
  | .vabs _ f | .vneg _ f | .vnot _ f | .vshlImm _ f | .vshrImm _ f | .vsarImm _ f | .vfsqrt _ f | .vfabs _ f | .vfneg _ f | .vfcls _ f
  | .vbcast _ f | .vrot _ f | .vred _ f | .vscan _ f | .vcvt _ f | .vnrw _ f | .vwid _ f | .vbexp _ f
  | .vexp2 _ f | .vlog2 _ f | .vrcp _ f | .vrsq _ f | .vmov _ f => vecNames f false false
  | .vfma _ f | .vfms _ f | .vperm _ f | .vmxFit _ f | .vmxCvt _ f => vecNames f true true
  | .vslide _ f => vecNames f false true
  | .vcmp _ f | .vfcmp _ f | .vtest _ f => ([nV f.a, nV f.b], [nPv f.d.toNat])
  | .vsel _ f => ([nV f.a, nV f.b, nPv f.c.toNat], [nV f.d])
  | .vcas _ f => ([nV f.a, nV f.b], [nV f.d, nV f.c])
  | .vnrwf _ f => ([nV f.a, nV f.c] ++ nDyn f.rnd.toNat, [nV f.d, nV f.c])
  | .vrng _ f => ([], [nV f.d])
  | .kand _ f | .kor _ f | .kxor _ f => ([nMask (fbit f.func 1) f.a, nMask (fbit f.func 0) f.b], [nMask (fbit f.func 2) f.d])
  | .knot _ f => ([nMask (fbit f.func 1) f.a], [nMask (fbit f.func 2) f.d])
  | .kpop _ f | .kfirst _ f => ([nMask (fbit f.func 1) f.a], [nV f.d])
  | .mlds _ f | .mldst _ f => ([nS f.f1, nS f.f2, recordName f], [])
  | .mmul _ f => ([nS f.f2, nS f.f3, nS f.f4, recordName f], [nZ f.f1])
  | .mmul64 _ f => ([nS f.f2, nS f.f3, recordName f] ++ nDyn (fld f.func 4 3), [nZ f.f1])
  | .mzero _ f => ([], [nZ f.f1])
  | .mrdz _ f => ([nZ f.f1, nS f.f3] ++ nDyn (fld f.func 2 3), [nV f.f2])
  | .mwrz _ f => ([nV f.f2, nS f.f3], [nZ f.f1])
  | .mscl _ f => ([nS f.f2] ++ nDyn (fld f.func 2 3), [nZ f.f1])
  | .mchk _ f => ([nZ f.f1], [nS f.f2])
  | .mec _ f => (if fbit f.func 2 then [nS f.f2] else [], [nS f.f1, nCreg 0x86, nCreg 0x88])
  | .cpt _ f | .cptx _ f | .cph _ f | .cpw _ f | .cpg _ f | .cps _ f | .cpm _ f | .cpd _ f => ([nS f.f1, nS f.f2, nS f.f3], [])
  | .cpf _ f | .cdisc _ f => ([nS f.f1, nS f.f2], [])
  | .cwany _ f | .cwall _ f | .cfirst _ f | .ctags _ f => ([nS f.f2], [nS f.f1])
  | .ccancel _ f => ([nS f.f2], [])
  | .xin src dst => if dst.toNat < 56 then ([nS src], [nV dst]) else ([nP src.toNat], [nPv (8 + (dst.toNat - 56))])
  | .xout src _ dst => if src.toNat < 56 then ([nV src], [nS dst]) else ([nPv (8 + (src.toNat - 56))], [nP dst.toNat])
  | _ => ([], [])

/-- The guard as a source: a pv in the vector slots, a p elsewhere (R66). -/
def guardName (slot : Nat) (i : Instr) : List Name :=
  match gateOf i with
  | some g => [if slot == 3 || slot == 2 then nPv g.guard.toNat else nP g.guard.toNat]
  | none => []

/-- An instruction of a group: its bundle's index, its position, and its names. -/
structure Member where
  bundle : Nat
  slot   : Nat
  instr  : Instr
  deriving DecidableEq, Repr

def Member.sources (m : Member) : List Name := guardName m.slot m.instr ++ (namesOf m.instr).1
/-- Destinations p0 and pv0 are never counted (R71). -/
def Member.dests (m : Member) : List Name := (namesOf m.instr).2.filter fun n => n != nP 0 && n != nPv 0

/-- The name of the later of two instructions that breaks R71, as TVAL reports it. Which of several conflicting names R75 means the
spec does not say. DESIGN CHOICE (log 42): the later's guard, then its sources, then its destinations, in the order its form lists
them, against the earlier's destinations; then its destinations against the earlier's sources. -/
def conflictOf (earlier later : Member) : Option Name :=
  match (later.sources ++ later.dests).find? fun n => earlier.dests.contains n with
  | some n => some n
  | none => later.dests.find? fun n => earlier.sources.contains n

/-- A control instruction (R72). -/
def isControl (i : Instr) : Bool :=
  match i with
  | .br .. | .brp .. | .call .. | .ret .. | .loop .. | .lbrk .. | .trap .. | .rtt .. | .halt .. | .yield .. => true
  | _ => false

/-- A breach of R71 or R72: the bundle and position it is counted at, and TVAL (R75). -/
structure GroupError where
  bundle : Nat
  slot   : Nat
  val    : Word
  deriving DecidableEq, Repr

/-- A breach of reasons 1 to 3, `earlier` the bundle of the earlier instruction of the pair, 0 where there is none. -/
def plainBreach (bundle slot reason earlier : Nat) : GroupError :=
  { bundle, slot, val := word (reason * 2 ^ 20 + 15 * 2 ^ 16 + 15 * 2 ^ 2 + earlier) }

/-- TVAL of a name conflict. -/
def conflictVal (e : Member) (n : Name) : Word :=
  word ((if n.1 == 10 then n.2 * 2 ^ 24 else 0) + n.1 * 2 ^ 16 + (if n.1 < 8 then n.2 * 2 ^ 8 else 0) + e.slot * 4 + e.bundle)

/-- The breach of one instruction against those before it. DESIGN CHOICE (log 42): of several earlier instructions the first one in
the order of R74 is reported, and a name conflict of an instruction goes before reasons 2 and 3 of it. Reason 2 has no earlier
instruction, so its bundle field reads 0. -/
def memberBreach (bundles : Nat) (before : List Member) (m : Member) : Option GroupError :=
  match before.findSome? fun e => (conflictOf e m).map fun n => (e, n) with
  | some x => some { bundle := m.bundle, slot := m.slot, val := conflictVal x.1 x.2 }
  | none =>
    if !isControl m.instr then none
    else if m.bundle + 1 < bundles then some (plainBreach m.bundle m.slot 2 0)
    else match before.find? fun e => isControl e.instr with
      | some e => some (plainBreach m.bundle m.slot 3 e.bundle)
      | none => none

/-- The first breach, in order. -/
def firstBreach (bundles : Nat) (before : List Member) : List Member → Option GroupError
  | [] => none
  | m :: t => match memberBreach bundles before m with
    | some e => some e
    | none => firstBreach bundles (before ++ [m]) t

/-- The instructions of a group's bundles. -/
def membersOf (bs : List Bundle) : List Member :=
  ((List.range bs.length).zip bs).flatMap fun x => x.2.instrs.map fun i => { bundle := x.1, slot := i.1, instr := i.2 }

/-- The checks of R71 and R72. A group whose fourth bundle has no stop breaks R71 there. DESIGN CHOICE (log 42): that breach is
reported after every breach of an instruction, those of the fourth bundle too. -/
def groupBreach (bs : List Bundle) : Option GroupError :=
  match firstBreach bs.length [] (membersOf bs) with
  | some e => some e
  | none => if bs.length == 4 && !(bs.getLast?.map (·.stop)).getD true then some (plainBreach 3 15 1 0) else none

end Sys2Proof.Machine
end

