-- ==== Sys2Proof/Machine/Sequencer.lean ====
section
/-! DEFINITION. Fetch, the group check, interlocks and issue of a timed core; halts, stops, pre-emption and the context image
(03_encoding R73, R74; 05_sequencer R123 to R150; 09_windows R264 to R268). -/

namespace Sys2Proof.Machine

open Sys2Proof

/-! ## Fetch (R123) -/

def textSize : Nat := 2 ^ 20

/-- The bundle at an address, if it lies in the quad's text. -/
def State.bundleAt (s : State) (cell : Nat) (pc : BitVec 64) : Option (BitVec 512) :=
  let q := quadOf cell
  let base := s.pkg.txbase.getD q 0
  if base ≤ pc.toNat && pc.toNat < base + textSize then
    some (BitVec.ofNat 512 (s.text.num (q * textSize + (pc.toNat - base)) 64))
  else none

/-- A fault of the sequencer: its bundle and what the trap records. -/
def seqFault (cause slot : Nat) (pc : BitVec 64) (val : Word) : FaultInfo := { cause, slot, lane := 0, pc, val }

/-- The decoding fault of a bundle (R75). -/
def decodeFault (pc : BitVec 64) (e : BundleError) : FaultInfo :=
  match e.error with
  | .illegalOpcode op => seqFault 1 e.position pc (word op)
  | .illegalField bit => seqFault 2 e.position pc (word bit)
  | .illegalRegister bit v => seqFault 4 e.position pc (word (v * 2 ^ 8 + bit))

/-- The bundles of the group at an address, up to its stop bit or four of them, or its first fault in ascending address (R73, R74). -/
def State.fetchGroup (s : State) (cell : Nat) : Nat → BitVec 64 → Except FaultInfo (List Bundle)
  | 0, _ => .ok []
  | n + 1, pc =>
    match s.bundleAt cell pc with
    | none => .error (seqFault 11 15 pc (pc))
    | some x => match decodeBundle x with
      | .error e => .error (decodeFault pc e)
      | .ok b =>
        if b.stop then .ok [b]
        else match s.fetchGroup cell n (pc + 64) with
          | .error f => .error f
          | .ok bs => .ok (b :: bs)

/-- Address of bundle `i` of a group. -/
def bundlePc (base : BitVec 64) (i : Nat) : BitVec 64 := base + BitVec.ofNat 64 (64 * i)

/-- A whole group that decodes and obeys R71 and R72, or its fault. -/
def State.checkedGroup (s : State) (cell : Nat) (pc : BitVec 64) : Except FaultInfo (List Bundle) :=
  match s.fetchGroup cell 4 pc with
  | .error f => .error f
  | .ok bs => match groupBreach bs with
    | some e => .error (seqFault 3 e.slot (bundlePc pc e.bundle) e.val)
    | none => .ok bs

/-! ## Iteration conditions (R131, R147) -/

def Core.firstIter (c : Core) : Bool :=
  c.ctl.inh || match c.seq.loops with
    | l :: _ => l.index == 0
    | [] => true
def Core.lastIter (c : Core) : Bool :=
  c.ctl.inh || match c.seq.loops with
    | l :: _ => l.left == 1
    | [] => true

/-- The context of a slot of a bundle. -/
def State.atSlot (s : State) (cell : Nat) (pc : BitVec 64) (slot : Nat) (first last : Bool) : State :=
  { s with curT := { cell, pc, slot, first, last } }

/-! ## Interlocks (03_encoding R67, R73) -/

/-- What holds a group: nothing, an ordinary interlock, or a wait in which pre-emption can land (R148). -/
inductive Hold where
  | no | plain | window
  deriving DecidableEq, Repr

/-- The stronger of two holds. -/
def Hold.max (a b : Hold) : Hold :=
  match a, b with
  | .window, _ | _, .window => .window
  | .plain, _ | _, .plain => .plain
  | .no, .no => .no

def holdIf (b : Bool) : Hold := if b then .plain else .no

/-- TICK some periods from now, the slew steps that are already decided taken (09_windows R249, R250): `by'` is what the next increment
adds, `slew` the step owed. -/
def ticksOn : Nat → Nat → Nat → Option Bool → Nat
  | 0, t, _, _ => t
  | n + 1, t, by', slew =>
    if by' != 0 && (t + by') % 4096 == 0 then match slew with
      | some a => ticksOn n (t + by') (if a then 2 else 0) none
      | none => ticksOn n (t + by') 1 none
    else ticksOn n (t + by') 1 slew

/-- TICK at the issue of bundle `j` of a group that begins now. -/
def State.tickAt (s : State) (j : Nat) : Nat := ticksOn j s.tick.toNat s.stepBy s.pkg.slew

/-- GETPOST's wait at bundle `j` of its group (09_windows R276). -/
def State.postHold (s : State) (cell : Nat) (f : FormE) (j : Nat) : Hold :=
  let w := (s.core cell).window f.tag.toNat
  let at' := s.tickAt j
  if !w.isOpen then .no
  else if w.action == 2 then (if w.hit && decide (w.close.toNat ≤ at') then .no else .window)
  else if w.close.toNat ≤ at' + 1 then .no else .window

/-- The waits of an instruction at bundle `j` of the group about to issue; `curT` is its slot. -/
def State.instrHold (s : State) (cell j : Nat) (i : Instr) : Hold :=
  let c := s.core cell
  let full (space : Nat) (a : Nat) : Bool := space == 2 &&
    decide (65535 ≤ c.clock.counts[remoteClass cell (a / 2 ^ 22) - 1]?.getD 0)
  let wcls (f : FormC) : Hold := holdIf (f.wcls != 0 && c.clock.counts[f.wcls.toNat - 1]?.getD 0 != 0)
  match i with
  | .waitt _ f => holdIf (decide (s.tickAt j < (c.waitTarget f).toNat))
  | .getpost _ f => s.postHold cell f j
  | .fence _ f =>
    holdIf ((fbit f.func 0 && !c.cpy.tagged.isEmpty) || (fbit f.func 1 && c.clock.counts.toList.any (· != 0)))
  | .cwany _ f | .cwall _ f => holdIf (!(c.seq.observed.any fun x => x.1 == bundlePc c.seq.pc j) && !c.cpy.waitOver i (c.s' f.f2.toNat))
  | .strs _ f | .strv _ f => (wcls f).max (holdIf (full f.space.toNat (c.formC f)))
  | .mlds .. | .mldst .. | .mmul .. | .mmul64 .. =>
    holdIf (c.mtx.found s.clk i != 0 || decide (c.mtx.bucket.toInt < 0))
  | i => match c.touched i with
    | some t => wcls t.1
    | none => holdIf (c.mtx.found s.clk i != 0)

/-- The instructions of a group that take part in its interlocks, each with its bundle. -/
def Core.waiters (c : Core) (bs : List Bundle) : List Member :=
  (membersOf bs).filter fun m => match gateOf m.instr with
    | some g => match g.iter.toNat with
      | 1 => c.firstIter
      | 2 => c.lastIter
      | _ => true
    | none => false

/-- The class of a remote store (04_ordering R101). -/
def Core.postClass (c : Core) (cell : Nat) (i : Instr) : Option Nat :=
  match i with
  | .strs _ f | .strv _ f => some (remoteClass cell (c.formC f / 2 ^ 22))
  | _ => none

/-- The stores of a group wait until the counts have room for all of them (09_windows R278). -/
def State.countHold (s : State) (cell : Nat) (ms : List Member) : Hold :=
  let c := s.core cell
  holdIf ([1, 2, 3].any fun k =>
    let n := (ms.filter fun m => c.postClass cell m.instr == some k).length
    n != 0 && decide (65535 < c.clock.counts[k - 1]?.getD 0 + n))

/-- The waits of a whole group, its barriers apart. -/
def State.groupHold (s : State) (cell : Nat) (ms : List Member) : Hold :=
  ms.foldl (fun h m => h.max (s.instrHold cell m.bundle m.instr)) (s.countHold cell ms)

/-- Gang stalls that hold a group now (09_windows R265). -/
def State.gangStalled (s : State) (cell : Nat) : Bool :=
  (s.core cell).seq.stalls.any fun g => decide (g.from' ≤ s.clk) && match g.until' with
    | none => true
    | some x => decide (s.clk < x)

/-- The first command that meets an exhausted budget (07_matrix R200). -/
def Core.exhausted (c : Core) (ms : List Member) : Option Member :=
  if decide (c.mtx.bucket.toInt < 0) && c.mtx.rate == 0 then ms.find? fun m => charged m.instr else none

/-! ## REALIGN (R136) -/

/-- The other cores that a REALIGN waits for. -/
def State.realignMates (s : State) (cell : Nat) : List Nat :=
  (s.members cell).filter fun m => m != cell && clusterOf m == clusterOf cell &&
    ((s.core m).run.live && !(s.core m).ctl.inh || (s.core m).seq.ceased == s.clk)

/-- Whether a core has arrived at a REALIGN of an address before this period. -/
def State.realignedAt (s : State) (cell : Nat) (a : BitVec 64) : Bool :=
  match (s.core cell).seq.realign with
  | some r => r.address == a && r.release.isNone && match r.arrived with
    | some t => decide (t < s.clk)
    | none => false
  | none => false

/-- Release every waiting core of a completed REALIGN, each with the periods it waited. -/
def State.realignRelease (s : State) (cell : Nat) (a : BitVec 64) : State :=
  (cell :: s.realignMates cell).foldl (fun s m => s.updSeq m fun q => { q with realign := q.realign.map fun r =>
    if r.address == a && r.release.isNone then { r with release := some (s.clk - 1 - r.arrived.getD 0, false) } else r }) s

/-- Whether a core's REALIGN still waits, after a release that became due (the joint release goes first). -/
def State.realignStep (s : State) (cell : Nat) : State × Bool :=
  match (s.core cell).seq.realign with
  | none => (s, false)
  | some r =>
    if r.release.isSome then (s, false)
    else if s.realignedAt cell r.address && (s.realignMates cell).all fun m => s.realignedAt m r.address then
      (s.realignRelease cell r.address, false)
    else (s, true)

/-- REALIGN_TIMEOUT (R136). -/
def execRealignTimeout (cell : Nat) (s : State) : Result :=
  match (s.core cell).seq.realign with
  | none => .next s
  | some r =>
    if r.arrived.map (fun t => t + r.timeout + 1) != some s.clk then .next s
    else
      let x := s.realignStep cell
      .next (if x.2 then x.1.updSeq cell fun q => { q with realign := some { r with release := some (r.timeout, true) } } else x.1)

/-! ## Issue -/

/-- Let the next bundle, or the look at the next group's waits, come at a period. -/
def State.issueAt (s : State) (cell due : Nat) : State :=
  (s.updSeq cell fun q => { q with notBefore := due }).at' due phIssue (cell * 32) (.op (.groupIssue cell))

/-- The issue-time fault of an instruction in the state its bundle issues in (R143). -/
def State.slotFault (s : State) (slot : Nat) (i : Instr) : Option SlotFault :=
  match gateOf i with
  | none => none
  | some g =>
    if !(slot != 3 && slot != 2 && s.issues g) then none
    else match slot with
      | 7 => match i with
        | .coll .. | .cabort .. => s.collFault i
        | i => s.syncFault i
      | 6 => match i with
        | .div _ f | .divn _ f | .rem _ f | .remn _ f =>
          if s.cur.s' f.b.toNat == 0 then some (16, 0, s.cur.s' f.a.toNat) else none
        | .mtc _ f => if mtcFault s.cur f then some (2, 0, 348) else none
        | i => s.controlFault i
      | 1 => s.matrixFault i
      | 0 => match i with
        | .cwany _ f | .cwall _ f | .cfirst _ f => s.tagFault i (s.cur.s' f.f2.toNat)
        | i => s.copyFault i
      | _ => s.memFault i

/-- A collective of the bundle takes its copy slot, and counts on its tag, before the bundle's copy or tag wait does. -/
def State.afterSync (s : State) (b : Bundle) : State :=
  match b.instrs.findSome? fun x => match x.2 with
    | .coll g f => if s.issues g then some f.f4.toNat else none
    | _ => none
  with
  | some tag => s.updCpy s.curT.cell fun e => e.countUp tag
  | none => s

/-- The issue-time faults of a bundle: slots 7 down to 0 (R144). -/
def State.bundleFaults (s : State) (cell : Nat) (pc : BitVec 64) (g : Group) (b : Bundle) : List (Nat × Instr × SlotFault) :=
  b.instrs.filterMap fun x =>
    let s1 := s.atSlot cell pc x.1 g.first g.last
    ((if x.1 == 0 then s1.afterSync b else s1).slotFault x.1 x.2).map fun f => (x.1, x.2, f)

/-- The first issue-time fault of a bundle (R144). -/
def State.bundleFault (s : State) (cell : Nat) (pc : BitVec 64) (g : Group) (b : Bundle) : Option (Nat × Instr × SlotFault) :=
  (s.bundleFaults cell pc g b).head?

/-- Clear the refusal bit that a trap reports (04_ordering R103). -/
def State.clearReported (s : State) (i : Instr) : State :=
  match s.cur.touched i with
  | some t => s.clearRefusal s.curT.cell t.1.wcls.toNat
  | none => s.clearTaken i

/-- A bundle issues: its first fault is taken, and any other fault of it sets TSTAT.lost (R144); or its instructions run in order in this
period and its end follows them. R144 gives the stop-bit fault of R129 no place among the faults of its bundle. DESIGN CHOICE (log 53):
it goes first. R137 and R143 do not say which trap a bundle takes that holds TRAP and an issue-time fault of another slot. DESIGN CHOICE
(log 53): that fault, and TRAP has no effect. -/
def State.issueBundle (s : State) (cell : Nat) (g : Group) : State :=
  let c := s.core cell
  let pc := bundlePc g.base g.index
  match g.bundles with
  | [] => s.updSeq cell fun q => { q with group := none }
  | b :: _ =>
    let ends := c.seq.loops.any fun l => l.last == pc
    if !c.ctl.inh && ends && !b.stop then s.takeTrap cell (seqFault 8 15 pc 0) pc
    else match s.bundleFault cell pc g b with
      | some (slot, i, f) =>
        let s1 := s.atSlot cell pc slot g.first g.last
        let s2 := if f.1 == 56 then s1.clearReported i else s1
        let s3 := s2.takeTrap cell { cause := f.1, slot, lane := f.2.1, pc, val := f.2.2 } pc
        if (s.bundleFaults cell pc g b).length ≤ 1 then s3 else s3.markLost cell
      | none =>
        (b.instrs.foldl (fun s x => s.at' s.clk phIssue (cell * 32 + (if x.1 ≤ 7 then 8 - x.1 else x.1 + 1)) (.slot cell pc x.1)) s).at'
          s.clk phIssue (cell * 32 + 11) (.finish cell)

/-- The tags that the tag waits of the group due observe, fixed for each in the period in which its own condition first holds
(08_copy R242). -/
def State.fixObserved (s : State) (cell : Nat) (ms : List Member) : State :=
  let c := s.core cell
  let sets := ms.filterMap fun m =>
    let pc := bundlePc c.seq.pc m.bundle
    match m.instr with
    | .cwany _ f | .cwall _ f =>
      if c.cpy.waitOver m.instr (c.s' f.f2.toNat) && !(c.seq.observed.any fun x => x.1 == pc) then
        some (pc, c.cpy.observes m.instr (c.s' f.f2.toNat))
      else none
    | _ => none
  if sets.isEmpty then s else s.updSeq cell fun q => { q with observed := q.observed ++ sets }

/-- A group whose waits have ended begins to issue. -/
def State.startGroup (s0 : State) (cell : Nat) (bs : List Bundle) : State :=
  let s := s0.landRealign cell
  let c := s.core cell
  let g : Group := { base := c.seq.pc, index := 0, bundles := bs, first := c.firstIter, last := c.lastIter }
  (s.updSeq cell fun q => { q with
    group := some g, bar := none, barsDone := 0,
    stalls := q.stalls.filter fun x => match x.until' with
      | some t => decide (s.clk < t)
      | none => true }).issueBundle cell g

/-- The barriers of a group that its core arrives at, in order. -/
def State.barsOf (s : State) (cell : Nat) (ms : List Member) : List FormE :=
  ms.filterMap fun m => match m.instr with
    | .bar _ f => if fbit f.func 0 && !s.domainMask ((s.core cell).s' f.f3.toNat) then none else some f
    | _ => none

/-- Arrive at a barrier (09_windows R267, R277). R277 does not say when the waiting BAR reads its registers. DESIGN CHOICE (log 53): the
mask and the timeout are read at the arrival. -/
def State.arrive (s : State) (cell : Nat) (f : FormE) : State :=
  let c := s.core cell
  let limit := if fbit f.func 1 then some (s.clk + (c.s' f.f2.toNat).toNat) else none
  let b : BarWait := { barrier := f.tag.toNat, dom := fbit f.func 0, mask := c.s' f.f3.toNat, arrived := s.clk, limit, release := none }
  let s1 := s.updSeq cell fun q => { q with bar := some b }
  let s2 := match limit with
    | some t => s1.at' t phTrap cell (.op (.barrierTimeout cell))
    | none => s1
  s2.checkBarriers cell

/-- Look again in the next period; a pre-emption request lands in a window stall or a barrier wait (R148). -/
def State.holdGroup (s : State) (cell : Nat) (h : Hold) : State :=
  if h == .window && (s.core cell).clock.prq && !(s.core cell).ctl.inh then
    s.after 0 phIssue (cell * 32) (.op (.preemptionLanding cell))
  else s.issueAt cell (s.clk + 1)

/-- The barriers of a group whose other waits have ended: the state, and whether the group still waits. -/
def State.barStep (s : State) (cell : Nat) (ms : List Member) : State × Bool :=
  let q := (s.core cell).seq
  let arriveNext (s : State) : State × Bool := match (s.barsOf cell ms).drop (s.core cell).seq.barsDone with
    | f :: _ => (s.arrive cell f, true)
    | [] => (s, false)
  match q.bar with
  | none => arriveNext s
  | some b => match b.release with
    | some t => if t ≤ s.clk then arriveNext (s.updSeq cell fun q => { q with bar := none, barsDone := q.barsDone + 1 }) else (s, true)
    | none => (s, true)

/-- The next group of a core: its redirect, its faults, its waits, or its first bundle. -/
def State.beginGroup (s : State) (cell : Nat) : State :=
  let c := s.core cell
  let x := s.realignStep cell
  if !c.ctl.inh && c.clock.windows.toList.any (·.owed) then s.after 0 phIssue (cell * 32) (.op (.windowRedirect cell))
  else if x.2 then x.1.holdGroup cell .plain
  else if s.tick.toNat < c.seq.startAt.toNat then x.1.holdGroup cell .plain
  else if s.gangStalled cell then x.1.holdGroup cell .window
  else
    let s := x.1
    match s.checkedGroup cell c.seq.pc with
    | .error f => s.takeTrap cell f f.pc
    | .ok bs =>
      let ms := c.waiters bs
      match c.exhausted ms with
      | some m => s.takeTrap cell (seqFault 247 1 (bundlePc c.seq.pc m.bundle) c.mtx.bucket) (bundlePc c.seq.pc m.bundle)
      | none =>
        let s := s.fixObserved cell ms
        let h := s.groupHold cell ms
        let waiting := c.seq.bar.isSome
        if h != .no then s.holdGroup cell (if waiting then .window else h)
        else
          let y := s.barStep cell ms
          if y.2 then y.1.holdGroup cell .window else y.1.startGroup cell bs

/-- GROUP_ISSUE (R73): the next bundle of a group, or the first bundle of the next group once its waits have ended. -/
def execGroupIssue (cell : Nat) (s : State) : Result :=
  let c := s.core cell
  if c.run != .running || c.seq.drained || c.seq.notBefore != s.clk then .next s
  else match c.seq.group with
    | some g => .next (s.issueBundle cell g)
    | none => .next (s.beginGroup cell)

/-! ## The end of a bundle (R125, R129) -/

/-- What follows the bundle that has issued: the next address and whether a pre-emption may land there. The spec does not order a
pre-emption that could land at the end of a bundle with a HALT or TRAP of that bundle. DESIGN CHOICE (log 53): the HALT or the TRAP
goes first, and the request stays pending. -/
def State.endBundle (s : State) (cell : Nat) (g : Group) : State :=
  let c := s.core cell
  let q := c.seq
  let pc := bundlePc g.base g.index
  let r : LoopEnd := if c.ctl.inh || q.taken.isSome then { loops := q.loops, next := none, strides := [], least := none }
    else endIterations pc q.loops
  let next := q.taken.getD (r.next.getD (pc + 64))
  let more := match g.bundles with
    | _ :: b :: bs => some { g with index := g.index + 1, bundles := b :: bs }
    | _ => none
  let group := if q.taken.isSome then none else more
  let s1 := (if r.least.isSome then s.atSlot cell pc 15 g.first g.last |>.applyLoopEnd cell r else s).updSeq cell fun q => { q with
    pc := next, group, taken := none, slow := false, after := none, observed := if group.isSome then q.observed else [] }
  let admits := c.clock.prq && !c.ctl.inh && match q.after with
    | some .yield | some .boundary => true
    | _ => decide (r.least.getD 7 ≤ c.ctl.plevel)
  let arrived (s : State) : State := match (s.core cell).seq.realign with
    | some x => if group.isSome || x.arrived.isSome then s
      else (s.updSeq cell fun q => { q with realign := some { x with arrived := some s.clk } }).after (x.timeout + 1) phTrap cell
        (.op (.realignTimeout cell))
    | none => s
  match q.after with
  | some .halt =>
    ((arrived s1).updCore cell fun c => { c with run := .halting, seq := { c.seq with haltPc := pc } }).after 0 phIssue
      (cell * 32 + 12) (.op (.haltComplete cell))
  | some .trap => (arrived s1).takeTrap cell (seqFault 9 6 pc q.trapVal) next
  | _ =>
    if admits then (arrived s1).after 0 phIssue (cell * 32 + 12) (.op (.preemptionLanding cell))
    else (arrived s1).issueAt cell (s.clk + (if q.taken.isSome && q.slow then 2 else 1))

def State.finishBundle (s : State) (cell : Nat) : State :=
  match (s.core cell).seq.group with
  | some g => if (s.core cell).run == .running then s.endBundle cell g else s
  | none => s

/-- WINDOW_REDIRECT (09_windows R264): the group due is skipped into WRPC. -/
def execWindowRedirect (cell : Nat) (s : State) : Result :=
  let c := s.core cell
  match (List.range 16).find? fun n => (c.window n).owed with
  | none => .next s
  | some n =>
    let w := c.window n
    .next (((s.updClock cell fun k => { k with windows := k.windows.setIfInBounds n { w with owed := false }
                                               wrpc := c.seq.pc }).updSeq cell fun q =>
      { q with pc := w.target, bar := none, barsDone := 0, observed := [] }).leaveBarrier cell |>.issueAt cell (s.clk + 1))

/-! ## Handler, halt and stop (R138, R145, R146) -/

/-- HANDLER_START (R146). -/
def execHandlerStart (cell : Nat) (s : State) : Result :=
  let c := s.core cell
  if c.run == .running && c.seq.drained then
    .next ((s.updSeq cell fun q => { q with drained := false }).issueAt cell s.clk)
  else .next s

/-- Every recovery release of the core has completed (13_proof R397). -/
def ClockEngine.released (k : ClockEngine) : Bool := k.prIssued == k.prDone

/-- Every scalar, load, vector and crossing result of the core has landed (R146). -/
def State.drainedNow (s : State) (cell : Nat) : Bool :=
  !((s.core cell).flights.any fun f => drainSlot f.slot) && !(s.accesses.any fun a => a.cell == cell && match a.kind with
    | .load .. => true
    | _ => false)

/-- A core stops: its windows close as absent, its matrix gang dissolves, its gang goes on without it. -/
def State.endCore (s : State) (cell : Nat) (r : RunState) : State :=
  ((((s.updCore cell fun c => { c with run := r, clock := { c.clock with prq := false } }).closeAbsent cell).dissolve cell).memberEnded cell)

/-- HALT_COMPLETE (R138): a fault of the last result is taken before the stop. -/
def execHaltComplete (cell : Nat) (s : State) : Result :=
  let c := s.core cell
  if c.run != .halting then .next s
  else if !c.faults.isEmpty then .next (s.after 0 phIssue (cell * 32 + 12) (.op (.haltComplete cell)))
  else if !(s.quiet cell && c.clock.released) then .next (s.after 1 phTrap cell (.op (.haltComplete cell)))
  else match c.clock.firstRefusal [1, 2, 3] with
    | some r =>
      let s1 := (s.clearRefusal cell r.1).updCore cell fun c => { c with run := .running, seq := { c.seq with pc := c.seq.haltPc } }
      .next (s1.takeTrap cell (seqFault 56 6 c.seq.haltPc r.2) c.seq.haltPc)
    | none => .next (s.endCore cell .halted)

/-- TIMED_CORE_STOP (R145, R29): a stopping core waits as HALT waits, a parking one for its drain; each posts its message. -/
def execTimedCoreStop (cell : Nat) (s : State) : Result :=
  let c := s.core cell
  let i := c.seq.fault
  let again := Host.Outcome.next (s.after (if c.faults.isEmpty then 1 else 0) phTrap cell (.op (.timedCoreStop cell)))
  match c.run with
  | .stopping =>
    if c.faults.isEmpty && s.quiet cell && c.clock.released then .next ((s.postCore cell 0x01 i.cause (i.pc) i.val).endCore cell .stopped) else again
  | .parking =>
    if c.faults.isEmpty && s.drainedNow cell then .next ((s.postCore cell 0x03 i.cause (i.pc) i.val).endCore cell .parked) else again
  | _ => .next s

/-! ## Pre-emption and the context image (R148 to R150) -/

/-- Redirects that a core owes reach the group that a pre-emption saves (09_windows R264). -/
def Core.redirected (c : Core) : Core :=
  (List.range 16).foldl (fun (c : Core) n =>
    let w := c.window n
    if w.owed then
      { c with clock := { c.clock with windows := c.clock.windows.setIfInBounds n { w with owed := false }
                                       wrpc := c.seq.pc }
               seq := { c.seq with pc := w.target } }
    else c) c

/-- A member that starts again in this tick and took the redirect of a window closed as absent (09_windows R266). An image knows such a
window only by its close tick, which is the landing tick. So that the redirect is taken once, a request does not land in that tick
but in the next one (DEDUCED, log entry 24). -/
def Core.redirectsNow (c : Core) (tick : Word) : Bool :=
  c.seq.startAt == tick && c.clock.windows.toList.any fun w => w.action == 1 && w.absent && w.missed && w.close == tick

/-- PREEMPTION_LANDING (R148). -/
def execPreemptionLanding (cell : Nat) (s : State) : Result :=
  let c := s.core cell
  if !(c.run == .running && c.clock.prq && !c.ctl.inh) then .next s
  else if c.redirectsNow s.tick then .next (s.after 1 phIssue (cell * 32) (.op (.preemptionLanding cell)))
  else
    let s1 := ((s.landRealign cell).updCore cell Core.redirected).updCore cell fun c => { c with
      run := .preempting
      seq := { c.seq with group := none, bar := none, barsDone := 0, observed := [], landed := s.tick, ceased := s.clk } }
    let s2 := (((s1.leaveBarrier cell).closeAbsent cell).dissolve cell).checkBarriers cell
    let s3 := c.cpy.tagged.foldl (fun s t => if t.coll then s.after 0 phNet cell (.op (.collectiveTimeout cell t.id)) else s) s2
    .next ((s3.dropUnit (.image cell)).at' (s.drainTick cell) phTrap cell (.op (.contextImageSave cell)))

def imageSize : Nat := 0x420000

/-- Fields of an image: offset, bytes, value. -/
abbrev ImageFields := List (Nat × Nat × Nat)

/-- A numbered row of equal fields. -/
def imageRow (offset step size : Nat) (xs : List Nat) : ImageFields :=
  ((List.range xs.length).zip xs).map fun x => (offset + step * x.1, size, x.2)

/-- A loop level (R149). -/
def imageLevel (offset : Nat) (l : LoopLevel) : ImageFields :=
  let regs := ((List.range 4).zip l.strides).foldl (fun n x => n + x.2.1 * 2 ^ (48 + 4 * x.1)) 0
  [(offset, 8, l.left.toNat), (offset + 8, 8, l.index.toNat), (offset + 16, 8, l.start.toNat % 2 ^ 48 + regs), (offset + 24, 8, l.last.toNat)] ++
    imageRow (offset + 32) 8 8 (l.strides.map fun x => x.2.toNat)

/-- A window's entry (09_windows R285). -/
def imageWindow (offset : Nat) (w : Window) : ImageFields :=
  imageRow offset 8 8 ([w.base.toNat, w.size.toNat, w.openAt.toNat, w.close.toNat, w.stat.toNat, w.target.toNat] ++
    w.pst.toList.map (·.toNat))

def tagBits (t : Tag) : Nat := t.cxl.toNat * 2 ^ 18 + t.err.toNat * 2 ^ 17 + t.armed.toNat * 2 ^ 16 + t.slots

/-- The control registers of an image (R149, 06_vector R158, 07_matrix R217, 08_copy R247, 09_windows R285). -/
def State.imageCregs (s : State) (cell : Nat) : ImageFields :=
  (List.range 0x140).map fun n => (0x600 + 8 * n, 8, if n == 0x85 || n == 0x127 then 0 else (s.readCreg cell n).toNat)

/-- The listed parts of the image before the tiles and the core store: p0 reads true and pv0 all ones. -/
def State.imageFields (s : State) (cell : Nat) : ImageFields :=
  let c := s.core cell
  let q := c.seq
  [(0x0, 8, q.pc.toNat), (0x8, 8, q.landed.toNat), (0x10, 8, q.stat.toNat), (0x18, 8, c.ctl.plevel),
   (0x2C0, 8, (c.regs.p ||| 1).toNat),
   (0x480, 8, q.pending.length)] ++
  imageRow 0x40 8 8 (c.regs.s.toList.map (·.toNat)) ++ imageRow 0x240 8 8 (c.regs.a.toList.map (·.toNat)) ++
  ((List.range 6).zip q.loops.reverse).flatMap (fun x => imageLevel (0x300 + 64 * x.1) x.2) ++
  imageRow 0x488 8 8 (q.pending.flatMap fun x => [x.1, x.2.toNat]) ++
  imageRow 0x500 8 8 (q.rstack.reverse.map (·.toNat)) ++ s.imageCregs cell ++
  imageRow 0x1000 256 256 (c.regs.v.toList.map (·.toNat)) ++ imageRow 0x5000 32 32 (c.regs.k.toList.map (·.toNat)) ++
  imageRow 0x5100 32 32 ((List.range 16).map fun n => (c.pv' n).toNat) ++
  imageRow 0x5400 8 8 ((List.range 5).map fun n => (s.readCreg cell (0x140 + n)).toNat) ++
  imageRow 0x18000 8 8 (c.cpy.tags.toList.map tagBits) ++
  ((List.range 16).flatMap fun n => imageWindow (0x18200 + 128 * n) (c.window n)) ++
  imageRow 0x18A00 8 8 c.clock.counts.toList ++
  [(0x18A18, 8, ((List.range 3).zip c.clock.refused.toList).foldl (fun n x => n + x.2.toNat * 2 ^ x.1) 0)] ++
  imageRow 0x18A20 8 8 ((c.clock.refused.toList.zip c.clock.refusedAt.toList).map fun x => if x.1 then x.2.toNat else 0)

/-- The containers of a tile, in rows (R149). -/
def Tile.bytes (t : Tile) : List Byte := (List.range 32768).flatMap fun k => leBytes (t.cells.getD k t.fill).toNat 8

/-- The whole image. -/
def State.image (s : State) (cell : Nat) : Memory :=
  let c := s.core cell
  let m1 := (s.imageFields cell).foldl (fun (m : Memory) f => m.putNum f.1 f.2.1 f.2.2) []
  let m2 := (((m1.copyFrom c.mtx.active.elems 0 0x8000 16384).copyFrom c.mtx.active.scales 0 0xC000 64).copyFrom c.mtx.shadow.elems 0
    0x10000 16384).copyFrom c.mtx.shadow.scales 0 0x14000 64
  let m3 := ((List.range 4).zip c.mtx.z.toList).foldl (fun (m : Memory) x => m.put (0x20000 + 0x40000 * x.1) x.2.bytes) m2
  m3.copyFrom s.mem (coreStoreBase cell) 0x120000 coreStoreSize

/-- The physical pages of an image, or its first translation fault: cause and address. -/
def State.imagePages (s : State) (plate ctx va : Nat) (write : Bool) : Nat → Except UnitStop (Except (Nat × Nat) (List Nat))
  | 0 => .ok (.ok [])
  | n + 1 => do
    match ← s.unitPhys plate ctx va write with
    | .error c => return .error (c, va)
    | .ok pa => match ← s.imagePages plate ctx (va + 4096) write n with
      | .error e => return .error e
      | .ok ps => return .ok (pa :: ps)

/-- The writes that put an image into its pages. -/
def imageWrites (img : Memory) (pages : List Nat) : List WritePiece :=
  ((List.range pages.length).zip pages).flatMap fun x => (List.range 64).flatMap fun l =>
    (piecesOf (x.2 + 64 * l) 64).map fun p => { pa := p.1, len := p.2, x := img.num (4096 * x.1 + (p.1 - x.2)) p.2 }

/-- The pages of an image are known: the image is what the core holds now, and its writes begin. -/
def State.beginImage (s : State) (cell : Nat) (pages : List Nat) : State :=
  ((s.setUnit { s.unitJob (.image cell) with left := some (imageWrites (s.image cell) pages) }).updSeq cell fun q =>
    { q with drained := true, saveFrom := s.nextId }).after 1 phTrap cell (.op (.contextImageSave cell))

/-- CONTEXT_IMAGE_SAVE (R149, R150): once the waits of R148 and R397 end, the image is written by demand writes, whose agent is the core
(13_proof R391), and the core counts as pre-empted. R150 does not say what a translation fault in the middle of the image leaves of the
pages before it. DESIGN CHOICE (log 54): every page is translated first, and nothing is written on a fault. -/
def execContextImageSave (cell : Nat) (s : State) : Result :=
  let c := s.core cell
  let u := MemUnit.image cell
  let again := Host.Outcome.next (s.after 1 phTrap cell (.op (.contextImageSave cell)))
  if c.run != .preempting then .next (s.dropUnit u)
  else if !(s.quiet cell && c.mtx.busy s.clk == 0 && c.clock.released) then again
  else if c.seq.drained then
    let w := s.unitWritesOut u (timedAgent cell) s.nextId
    if !w.1 then .next w.2
    -- the image is written; its lines in proof pages must be durable (13_proof R407)
    else if s.throughs.any fun x => x.2.agent == timedAgent cell && decide (c.seq.saveFrom ≤ x.2.order) then again
    else .next (((s.dropUnit u).updCore cell fun c => { c with run := .preempted, clock := { c.clock with prq := false }, idleAt := s.tick
                                                               seq := { c.seq with drained := false } }).preemptCheck cell)
  else match (s.asUnit u false).imagePages (plateOf cell) c.ctx c.ctl.psav.toNat true (imageSize / 4096) with
    | .error stop => .next (s.unitNeeds u stop)
    | .ok (.error e) => .next (((s.dropUnit u).postCore cell 0x01 e.1 (c.seq.pc) (word e.2)).containCore cell)
    | .ok (.ok ps) => .next (s.beginImage cell ps)

end Sys2Proof.Machine
end

