-- ==== Sys2Proof/Machine/Schedule.lean ====
section
/-! DEFINITION. Schedule tables, launch, resume and pre-emption (01_machine R27, R28; 09_windows R252 to R258), window closes (R262 to
R265), barriers (R267, R268) and the counter (01_machine R26, 09_windows R249 to R251). -/

namespace Sys2Proof.Machine

open Sys2Proof

/-! ## Schedule entries (R252, R253) -/

abbrev ScheduleEntry := BitVec 512

def seTick (e : ScheduleEntry) : Nat := (e.extractLsb' 0 64).toNat
def seCells (e : ScheduleEntry) : List Nat := (List.range 320).filter fun n => e.getLsbD (64 + n)
def seEntry (e : ScheduleEntry) : Nat := (e.extractLsb' 384 48).toNat
def seLevel (e : ScheduleEntry) : Nat := (e.extractLsb' 432 3).toNat
def seGang (e : ScheduleEntry) : Nat := (e.extractLsb' 435 7).toNat
def seResult (e : ScheduleEntry) : Nat := (e.extractLsb' 442 3).toNat
def seArmed (e : ScheduleEntry) : Bool := e.getLsbD 445
def seKind (e : ScheduleEntry) : Nat := (e.extractLsb' 446 2).toNat
def seArgs (e : ScheduleEntry) : Nat := (e.extractLsb' 448 48).toNat
def seContext (e : ScheduleEntry) : Nat := (e.extractLsb' 496 16).toNat

/-- An entry with its armed bit and result. -/
def seWith (e : ScheduleEntry) (armed : Bool) (result : Nat) : ScheduleEntry :=
  (e &&& ~~~(0xF#512 <<< 442)) ||| (BitVec.ofNat 512 (result % 8 + armed.toNat * 8) <<< 442)

def State.entry (s : State) (plate index : Nat) : ScheduleEntry := (s.plate plate).table.getD index 0
def State.setEntry (s : State) (plate index : Nat) (e : ScheduleEntry) : State :=
  s.updPlate plate fun p => { p with table := p.table.set index e }

/-- Whether an arming write is refused (R253). -/
def State.entryRefused (s : State) (plate : Nat) (e : ScheduleEntry) : Bool :=
  let k := seKind e
  let cells := seCells e
  k == 3 || seLevel e == 7 || seContext e == 0 || seContext e == 0xFFFF || (k != 0 && seArgs e != 0) || (k == 2 && seEntry e != 0) ||
  cells.isEmpty || cells.any (fun n => plateOf n != plate) || (k == 0 && seEntry e % 64 != 0) ||
  decide (seTick e < s.tick.toNat + (if k == 1 then 65536 else 4096))

/-- A period before an armed launch's tick for its argument copy, slew steps allowed for (R28, log entry 5). -/
def State.copyDelay (s : State) (e : ScheduleEntry) : Nat × State :=
  let d := s.drawDelay
  let n := seTick e - s.tick.toNat
  (d.1 % (n - n / 4096 - 2) + 1, d.2)

/-- A period in the last 32768 before an armed resume's tick to begin reading its images (log entry 24). -/
def State.imagesDelay (s : State) (e : ScheduleEntry) : Nat × State :=
  let d := s.drawDelay
  let n := seTick e - s.tick.toNat
  (n - n / 4096 - 2 - d.1 % 32768, d.2)

/-- SCHEDULE_ENTRY_WRITE (R253). -/
def execScheduleEntryWrite (plate index : Nat) (entry : BitVec 512) (s : State) : Result :=
  let s0 := (s.dropUnit (.args plate index)).dropUnit (.resume plate index)
  let s1 := s0.updPlate plate fun p => { p with argFaults := p.argFaults.erase index }
  if !seArmed entry then .next (s1.setEntry plate index (seWith entry false (seResult (s.entry plate index))))
  else if s.entryRefused plate entry then .next (s1.setEntry plate index (seWith entry false 2))
  else
    let s2 := s1.setEntry plate index (seWith entry true 0)
    if seKind entry == 0 then
      let d := s2.copyDelay entry
      .next (d.2.after d.1 phNet (plate * 256 + index) (.op (.launchArgumentBlockCopy plate index)))
    else if seKind entry == 1 then
      let d := s2.imagesDelay entry
      .next (d.2.after d.1 phNet (plate * 256 + index) (.images plate index))
    else .next s2

/-! ## Launch (R27, R28) -/

/-- The argument block has been read: it reaches the core store of every named cell, or its fault is kept for the launch. -/
def State.argsCopied (s : State) (plate index : Nat) (r : Except (Nat × Nat) (List Byte)) : State :=
  let e := s.entry plate index
  match r with
  | .error f => s.updPlate plate fun p => { p with argFaults := p.argFaults.set index f }
  | .ok bs => (seCells e).foldl (fun s n => { s with mem := s.mem.put (coreStoreBase n + 0x2FFF00) bs }) s

/-- LAUNCH_ARGUMENT_BLOCK_COPY (R28). The spec does not say what becomes of the block when the launch is refused. DESIGN CHOICE (log 5):
the copy reaches the core store of every named cell before the launch's conditions are judged, so it lands also where the launch is then
refused, or where a named cell runs or lies outside the partition. -/
def execLaunchArgumentBlockCopy (plate index : Nat) (s : State) : Result :=
  let e := s.entry plate index
  let u := MemUnit.args plate index
  if !(seArmed e && seKind e == 0) then .next (s.dropUnit u)
  else match (s.asUnit u false).readRange plate (seContext e) (seArgs e) 256 with
    | .error stop => .next (s.unitNeeds u stop)
    | .ok r => .next ((s.dropUnit u).argsCopied plate index r)

/-- The copy is complete before the launch tick (R28): one that still waits then reads at once what it lacks, and a block in stacks held by a
plate reset (13_proof R393) counts as a fault of that reset's cause (log entry 5). -/
def State.argsDue (s : State) (plate index : Nat) : State :=
  let e := s.entry plate index
  let u := MemUnit.args plate index
  if !s.units.any fun j => j.user == u then s
  else (s.dropUnit u).argsCopied plate index (match (s.asUnit u true).readRange plate (seContext e) (seArgs e) 256 with
    | .ok r => r
    | .error _ => .error (344, lineOf (seArgs e)))

/-- A cell that a launch cannot use (R27): a member of a live gang counts as running (R22). -/
def State.launchOffends (s : State) (ctx cell : Nat) : Bool :=
  s.retired cell || !s.holds ctx cell || (s.core cell).run.occupied || (s.gangOf cell).any (fun g => g.members.contains cell) ||
  s.pkg.imgbase.getD cell 0 == 0

/-- MECAP at launch (16_host R468). -/
def State.launchCap (s : State) (ctx : Nat) : BitVec 32 :=
  let x := s.ctx ctx
  let n := 4 * ((List.range 80).filter fun q => x.quads.getLsbD q).length
  BitVec.ofNat 32 (min x.cap.toNat (x.ceiling.toNat / n))

/-- A member core at its launch (R28). R28 gives its tiles the contents zero. DEDUCED (log 17): that is the canonical zero of a48, which
R210 gives as the container 1. -/
def State.launched (s : State) (cell : Nat) (e : ScheduleEntry) (position size : Nat) : Core :=
  let x := s.ctx (seContext e)
  let cap := s.launchCap (seContext e)
  let r := Core.reset
  { r with
    run := .running, ctx := seContext e, gang := seGang e, gangPos := position, gangSize := size
    regs := (((r.regs.setA 0 0x2FFF00).setS 1 (word (seGang e))).setS 2 (word position)).setS 3 (word size)
    ctl := { r.ctl with plevel := seLevel e, psav := word (s.pkg.imgbase.getD cell 0), rnd := x.rnd, vae := x.vae, vbe := x.vbe,
                        mxe := x.mxe }
    seq := { r.seq with pc := BitVec.ofNat 64 (seEntry e) }
    mtx := { r.mtx with rate := cap, cap, bucket := word (16 * cap.toNat),
                        z := Vector.replicate 4 { Tile.reset with fill := word (Acc.zero false).toBits } }
    idleAt := (s.core cell).idleAt }

/-- Begin a gang at a plate: instances of an earlier gang of its id that nobody is in any more are over. Recovery releases of the programs before it no longer count for its cores. -/
def State.setGang (s : State) (plate : Nat) (e : ScheduleEntry) : State :=
  let g : Gang := { ctx := seContext e, members := seCells e, preempt := [] }
  ((seCells e).foldl (fun s c => s.newOwner c) s).updPkg fun k => { k with
    gangs := k.gangs.set (gangKey plate (seGang e)) g
    colls := k.colls.filter fun x => !(x.gang == seGang e && x.plate == plate && x.here.isEmpty) }

/-- A message of a plate about one of its entries. -/
def State.postEntry (s : State) (plate kind cause : Nat) (e : ScheduleEntry) (pc val : Nat) : State :=
  s.postMessage plate { kind, cause, cell := 0, thread := 0, ctx := seContext e, pc := word pc, val := word val }

/-- SCHEDULE_LAUNCH (R27). -/
def execScheduleLaunch (plate index : Nat) (s0 : State) : Result :=
  let e := s0.entry plate index
  let s := s0.argsDue plate index
  let refuse (cause val : Nat) : Result := .next ((s.setEntry plate index (seWith e false 3)).postEntry plate 0x04 cause e index val)
  if !(seArmed e && seKind e == 0 && decide (seTick e ≤ s0.tick.toNat)) then .next s0
  else match (seCells e).find? fun n => s.launchOffends (seContext e) n with
    | some n => refuse 0 n
    | none =>
      if (s.pkg.gangs.get? (gangKey plate (seGang e))).isSome then refuse 0 0x1FF
      else match (s.plate plate).argFaults.get? index with
        | some f => refuse f.1 f.2
        | none =>
          let cells := seCells e
          let s1 := (s.setEntry plate index (seWith e false 1)).setGang plate e
          .next (((List.range cells.length).zip cells).foldl (fun s x =>
            (s.setCore x.2 (s.launched x.2 e x.1 cells.length)).issueAt x.2 s.clk) s1)

/-! ## Resume (R254, R256) -/

/-- Members of a pre-empted gang that a resume of the entry takes up again: its cells count as idle for it (log entry 24). -/
def State.resumable (s : State) (plate : Nat) (e : ScheduleEntry) : Bool :=
  match s.pkg.gangs.get? (gangKey plate (seGang e)) with
  | none => true
  | some g => g.ctx == seContext e && g.members.all fun m => (s.core m).run == .preempted || (s.core m).run.ended

def State.resumeOffends (s : State) (e : ScheduleEntry) (cell : Nat) : Bool :=
  let c := s.core cell
  let own := c.gang == seGang e && (s.gangOf cell).any fun g => g.ctx == seContext e && g.members.contains cell
  s.retired cell || !s.holds (seContext e) cell || (c.run.occupied && !(c.run == .preempted && own)) ||
  (!own && (s.gangOf cell).any fun g => g.members.contains cell) || decide (seTick e < c.idleAt.toNat + 65536)

/-- The images of an entry's table, if all of them can be read. -/
def State.resumeImages (s : State) (plate : Nat) (e : ScheduleEntry) : Except UnitStop (Option (List (Nat × Memory))) :=
  let ctx := seContext e
  (List.range (seCells e).length).foldlM (fun (acc : Option (List (Nat × Memory))) k => match acc with
    | none => return none
    | some l => do
      match ← s.readRange plate ctx (seEntry e + 8 * k) 8 with
      | .error _ => return none
      | .ok bs =>
        let a := bs.foldr (fun b n => n * 256 + b.toNat) 0
        if a == 0 || a % 4096 != 0 then return none
        else match ← s.imagePages plate ctx a false (imageSize / 4096) with
          | .error _ => return none
          | .ok ps =>
            let ms ← ps.mapM s.unitPage
            if ms.any (·.2) then return none
            else return some (l ++ [(a, ((List.range ps.length).zip (ps.zip ms)).flatMap fun x => x.2.2.1.shift x.2.1 (4096 * x.1))])) (some [])

/-- The images of a resume entry are read ahead of its tick, by demand reads. -/
def State.readImages (s : State) (plate index : Nat) : State :=
  let e := s.entry plate index
  let u := MemUnit.resume plate index
  if !(seArmed e && seKind e == 1 && decide (seTick e < s.tick.toNat + 65536)) then s
  else match (s.asUnit u false).resumeImages plate e with
    | .error stop => s.unitNeeds u stop
    | .ok _ => s

/-- The images of an entry at its tick: what has been read, and the rest as it stands; none when they cannot be read, or lie in stacks held
by a plate reset (13_proof R393). -/
def State.imagesNow (s : State) (plate index : Nat) (e : ScheduleEntry) : Option (List (Nat × Memory)) :=
  match (s.asUnit (.resume plate index) true).resumeImages plate e with
  | .ok r => r
  | .error _ => none

/-- Numbers at equal steps of an image. -/
def imageColumn (m : Memory) (offset step size n : Nat) : List Nat := (List.range n).map fun i => m.num (offset + step * i) size

def imageCreg (m : Memory) (n : Nat) : Word := word (m.num (0x600 + 8 * n) 8)

/-- The words of a vector from an image. -/
def imageVector (w : Nat) (m : Memory) (offset step size n : Nat) : Vector (BitVec w) n :=
  Vector.ofFn fun i => BitVec.ofNat w (m.num (offset + step * i.val) size)

/-- A bundle address of an image: bits [5:0] read zero (03_encoding R64, 05_sequencer R120). -/
def imagePc (w : Word) : Word := w &&& ~~~63

/-- A loop level of an image. -/
def imageLoop (m : Memory) (o : Nat) : LoopLevel :=
  let start := m.num (o + 16) 8
  { left := word (m.num o 8), index := word (m.num (o + 8) 8), start := imagePc (word (start % 2 ^ 48))
    last := imagePc (word (m.num (o + 24) 8))
    strides := (List.range 4).map fun j => (start / 2 ^ (48 + 4 * j) % 16, word (m.num (o + 32 + 8 * j) 8)) }

/-- A window of an image, its ticks moved by the pause (R256). -/
def imageWin (m : Memory) (o : Nat) (delta : Word) : Window :=
  let n (i : Nat) : Word := word (m.num (o + 8 * i) 8)
  let st := n 4
  { base := n 0, size := n 1, openAt := n 2 + delta, close := n 3 + delta, action := fld st 12 2, rcvd := st.extractLsb' 8 4
    expect := st.extractLsb' 4 4, stalling := st.getLsbD 3, absent := st.getLsbD 2, missed := st.getLsbD 1, isOpen := st.getLsbD 0
    target := imagePc (n 5), pst := imageVector 64 m (o + 48) 8 8 4, owed := false, opener := none }

def imageTile (m : Memory) (i : Nat) (f64 : Bool) : Tile :=
  let fill := if f64 then 0 else word (Acc.zero false).toBits
  { f64, fill, cells := ((List.range 32768).map fun k => (k, word (m.num (0x20000 + 0x40000 * i + 8 * k) 8))).filter fun x => x.2 != fill }

def imageFlags (w : Word) (lo : Nat) : Flags := flagsAt w lo

/-- The control and trap registers of an image. FMODE holds only rounding codes 0 .. 4 (02_numbers R40); what a resume does with an image
whose code is 5 .. 7 the spec does not say. DESIGN CHOICE (log 54): the bits are restored as they stand. -/
def imageControl (m : Memory) (psav : Nat) : TimedControl :=
  let r := imageCreg m
  { plevel := (r 4).toNat, psav := word psav, tvec := imagePc (r 8), inh := (r 9).getLsbD 0, lost := (r 9).getLsbD 1, tcause := (r 0xA).toNat
    tbpc := r 0xB, trpc := imagePc (r 0xC), tslot := (r 0xD).toNat, tlane := (r 0xE).toNat, ttick := r 0xF, tval := r 0x10
    tscr := imageVector 64 m (0x600 + 8 * 0x11) 8 8 4, va := flagsAt (r 0x20) 0, vb := flagsAt (r 0x20) 8, mx := flagsAt (r 0x20) 16
    rnd := fld (r 0x21) 24 3, vae := flagsAt (r 0x21) 0, vbe := flagsAt (r 0x21) 8, mxe := flagsAt (r 0x21) 16
    keyA := r 0x40, ctrA := r 0x42 ++ r 0x41, keyB := r 0x43, ctrB := r 0x45 ++ r 0x44, keyM := r 0x8B, ctrM := r 0x8D ++ r 0x8C }

/-- The matrix engine of an image: no gang, no busy bit (07_matrix R217); its rate and bucket fit the ceiling of now (16_host R468). -/
def imageMatrix (m : Memory) (cap : BitVec 32) : Matrix :=
  let r := imageCreg m
  let st := r 0x84
  let rate := min (fld (r 0x86) 0 32) cap.toNat
  { Matrix.reset with
    active := { elems := (m.slice 0x8000 16384).shift 0x8000 0, scales := (m.slice 0xC000 64).shift 0xC000 0, valid := st.getLsbD 17
                stype := fld st 12 5 }
    shadow := { elems := (m.slice 0x10000 16384).shift 0x10000 0, scales := (m.slice 0x14000 64).shift 0x14000 0, valid := st.getLsbD 24
                stype := fld st 19 5 }
    z := Vector.ofFn fun i => imageTile m i.val (st.getLsbD (8 + i.val))
    fmt := imageVector 64 m (0x600 + 8 * 0x80) 8 8 4
    rate := BitVec.ofNat 32 rate, cap, bucket := clipBucket (r 0x88).toInt rate, resid := r 0x8A ++ r 0x89 }

/-- The copy engine of an image: every tag done (08_copy R247). -/
def imageCopy (m : Memory) : CopyEngine :=
  let r := imageCreg m
  let e := r 0xCA
  { CopyEngine.reset with
    tags := Vector.ofFn fun i =>
      let t := word (m.num (0x18000 + 8 * i.val) 8)
      { count := 0, done := true, armed := t.getLsbD 16, err := t.getLsbD 17, cxl := t.getLsbD 18, slots := fld t 0 9, records := [] }
    etrap := (r 0xC0).getLsbD 0, cmask := (r 0xC7).setWidth 16 ++ r 0xC6, cfmask := (r 0xC9).setWidth 16 ++ r 0xC8
    eValid := e.getLsbD 25, eMore := e.getLsbD 24, eTag := fld e 16 6, eCause := fld e 0 9, errPc := r 0xCB, errA := r 0xCC
    drop := r 0xCD, zfall := r 0xCE }

/-- The clock and window engine of an image, realigned by the pause (R256, R285, 13_proof R397). -/
def imageClock (m : Memory) (delta : Word) : ClockEngine :=
  let r := imageCreg m
  let bits := m.num 0x18A18 8
  let seq := word (m.num (0x5400 + 24) 8)
  let err := word (m.num (0x5400 + 32) 8)
  { windows := Vector.ofFn fun i => imageWin m (0x18200 + 128 * i.val) delta
    wrpc := r 0x120, rshift := r 0x124 + delta, siglost := r 0x126, prq := false
    counts := Vector.ofFn fun i => m.num (0x18A00 + 8 * i.val) 8
    refused := Vector.ofFn fun i => bits.testBit i.val
    refusedAt := imageVector 64 m 0x18A20 8 8 3
    prIssued := seq.extractLsb' 32 32, prDone := seq.extractLsb' 32 32
    prErr := err.extractLsb' 32 32, prSfail := err.getLsbD 1, prMlost := err.getLsbD 0 }

/-- The br windows that this pre-emption closed as absent and missed: the first takes the resume PC, the others are owed (R266). -/
def Core.resumeRedirect (c : Core) (landed delta : Word) : Core :=
  match (List.range 16).filter fun n =>
    let w := c.window n
    w.action == 1 && w.absent && w.missed && w.close == landed + delta with
  | [] => c
  | n :: ns => { c with
      seq := { c.seq with pc := (c.window n).target }
      clock := { c.clock with
        wrpc := c.seq.pc
        windows := ns.foldl (fun (ws : Vector Window 16) k => ws.setIfInBounds k { c.window k with owed := true }) c.clock.windows } }

/-- A member restored from its image (R149, R256); p0 and pv0 hold nothing (05_sequencer R118, 06_vector R152). -/
def State.resumed (s : State) (cell : Nat) (e : ScheduleEntry) (position size : Nat) (a : Nat) (m : Memory) (first : Word) : Core :=
  let landed := word (m.num 8 8)
  let delta := word (seTick e) - first
  let seqst := word (m.num 0x10 8)
  let c : Core := { Core.reset with
    run := .running, ctx := seContext e, gang := seGang e, gangPos := position, gangSize := size
    regs := { s := imageVector 64 m 0x40 8 8 64, a := imageVector 64 m 0x240 8 8 16, p := BitVec.ofNat 16 (m.num 0x2C0 8) &&& 0xFFFE
              v := imageVector 2048 m 0x1000 256 256 64, k := imageVector 256 m 0x5000 32 32 8, pv := (imageVector 256 m 0x5100 32 32 16).setIfInBounds 0 0 }
    ctl := imageControl m a
    seq := { Sequencer.reset with
      pc := imagePc (word (m.num 0 8))
      loops := ((List.range (fld seqst 0 3)).map fun l => imageLoop m (0x300 + 64 * l)).reverse
      pending := (List.range (m.num 0x480 8)).map fun j => (m.num (0x488 + 16 * j) 8, word (m.num (0x490 + 16 * j) 8))
      rstack := ((imageColumn m 0x500 8 8 (fld seqst 8 4)).map fun a => imagePc (word a)).reverse
      startAt := word (seTick e) + (landed - first) }
    mtx := imageMatrix m (s.launchCap (seContext e)), cpy := imageCopy m, clock := imageClock m delta, idleAt := (s.core cell).idleAt }
  c.resumeRedirect landed delta

/-- Restore one member: its image's core store too. -/
def State.resumeMember (s : State) (e : ScheduleEntry) (size : Nat) (first : Word) (x : Nat × Nat × Nat × Memory) : State :=
  let s1 := s.setCore x.2.1 (s.resumed x.2.1 e x.1 size x.2.2.1 x.2.2.2 first)
  ({ s1 with mem := s1.mem.copyFrom x.2.2.2 0x120000 (coreStoreBase x.2.1) coreStoreSize }).issueAt x.2.1 s.clk

/-- TVAL of a refused resume or pre-empt entry (R254). -/
def scheduleVal (index kind cell : Nat) : Nat := index + kind * 2 ^ 8 + cell * 2 ^ 16

/-- SCHEDULE_RESUME (R256). -/
def execScheduleResume (plate index : Nat) (s0 : State) : Result :=
  let e := s0.entry plate index
  let s := s0.dropUnit (.resume plate index)
  let refuse (cell : Nat) : Result :=
    .next ((s.setEntry plate index (seWith e false 3)).postEntry plate 0x05 184 e 0 (scheduleVal index 1 cell))
  if !(seArmed e && seKind e == 1 && decide (seTick e ≤ s0.tick.toNat)) then .next s0
  else match (seCells e).find? fun n => s.resumeOffends e n with
    | some n => refuse n
    | none =>
      if !s.resumable plate e then refuse 0x1FF
      else match s0.imagesNow plate index e with
        | none => refuse 0x1FF
        | some imgs =>
          let cells := seCells e
          let landed := imgs.map fun x => word (x.2.num 8 8)
          let first := landed.foldl (fun (m : Word) x => if x.toNat < m.toNat then x else m) (landed.headD 0)
          let old := (s.pkg.gangs.get? (gangKey plate (seGang e))).map (·.members) |>.getD []
          let s1 := old.foldl (fun s m => s.updCore m fun c => if c.run == .preempted then { c with run := .idle } else c) s
          let s2 := (s1.setEntry plate index (seWith e false 1)).setGang plate e
          .next (((List.range cells.length).zip (cells.zip imgs)).foldl (fun s x => s.resumeMember e cells.length first x) s2)

/-! ## Pre-emption requests (R254, R255) -/

/-- The first cell on which a live gang and an entry's cells differ. -/
def State.preemptOffends (s : State) (plate : Nat) (e : ScheduleEntry) : Option Nat :=
  match s.pkg.gangs.get? (gangKey plate (seGang e)) with
  | none => some ((seCells e).headD 0x1FF)
  | some g => (List.range 320).find? fun n => (seCells e).contains n != g.members.contains n

/-- A pending pre-empt entry is answered (R255): result 1 once every member that has not stopped is pre-empted; a gang whose members have
all stopped has retired, and the entry is refused. -/
def State.preemptAnswer (s : State) (plate index : Nat) (e : ScheduleEntry) : State :=
  match s.pkg.gangs.get? (gangKey plate (seGang e)) with
  | some g =>
    if g.preempt.contains index && g.members.all (fun m => (s.core m).run.ended || (s.core m).run == .preempted) then
      (s.setEntry plate index (seWith e false 1)).updPkg fun k =>
        { k with gangs := k.gangs.set (gangKey plate (seGang e)) { g with preempt := g.preempt.erase index } }
    else s
  | none =>
    if seResult e == 0 then
      (s.setEntry plate index (seWith e false 3)).postEntry plate 0x05 184 e 0 (scheduleVal index 2 ((seCells e).headD 0x1FF))
    else s

/-- SCHEDULE_PREEMPT (R254, R255): the requests go out; once the gang is pre-empted, the same entry's result becomes 1. -/
def execSchedulePreempt (plate index : Nat) (s : State) : Result :=
  let e := s.entry plate index
  if seKind e != 2 then .next s
  else if !seArmed e then .next (s.preemptAnswer plate index e)
  else if s.tick.toNat < seTick e then .next s
  else match s.preemptOffends plate e with
    | some n =>
      .next ((s.setEntry plate index (seWith e false 3)).postEntry plate 0x05 184 e 0 (scheduleVal index 2 n))
    | none =>
      let s1 := (s.setEntry plate index (seWith e false 0)).updPkg fun k => { k with
        gangs := k.gangs.map fun x => if x.1 == gangKey plate (seGang e) then (x.1, { x.2 with preempt := x.2.preempt ++ [index] }) else x }
      let s2 := (seCells e).foldl (fun s n => s.updCore n fun c =>
        if c.run.live then { c with clock := { c.clock with prq := true } } else c) s1
      .next (s2.preemptCheck ((seCells e).headD 0))

/-- KCONT_CONTAIN (R258): every member of the gang is contained. -/
def execKcontContain (s : State) : Result :=
  let k := s.pkg
  match k.gangs.get? (gangKey k.kPlate k.kGang) with
  | some g =>
    let s1 := if g.ctx == k.kCtx && k.kBusy then g.members.foldl (fun s m => s.containCore m) s else s
    .next (s1.updPkg fun k => { k with kBusy := false })
  | none => .next (s.updPkg fun k => { k with kBusy := false })

/-! ## Window closes (R262, R263, R265) -/

/-- The members stall on a window that missed (R265). -/
def State.startStall (s : State) (cell n : Nat) : State :=
  (s.members cell).foldl (fun s m => s.updSeq m fun q =>
    if (s.core m).run.live then { q with stalls := q.stalls ++ [{ owner := cell, window := n, from' := s.clk + 8, until' := none }] } else q)
    (s.setWindow cell n { (s.core cell).window n with stalling := true })

/-- WINDOW_CLOSE (R262, R265). -/
def execWindowClose (cell window : Nat) (s : State) : Result :=
  let w := (s.core cell).window window
  if !w.isOpen || s.tick.toNat < w.close.toNat then .next s
  else if w.stalling then
    .next (if w.hit then (s.closeWindow cell window false).endStall cell window (s.clk + 8) else s)
  else if w.action == 2 && !w.hit then .next (s.startStall cell window)
  else .next (s.closeWindow cell window false)

/-! ## Barriers (R267, R268, R277) -/

/-- The members of a gang of a plate. -/
def State.gangMembers (s : State) (plate gang : Nat) : List Nat := (s.pkg.gangs.get? (gangKey plate gang)).map (·.members) |>.getD []

/-- Give the waiting members of a barrier their release. -/
def State.releaseBarrier (s : State) (cells : List Nat) (n due : Nat) : State :=
  (s.waitingAt cells n).foldl (fun s m => s.updSeq m fun q => { q with bar := q.bar.map fun b => { b with release := some due } }) s

/-- BARRIER_RELEASE (R267): every live member has arrived in this tick. -/
def execBarrierRelease (plate gang barrier : Nat) (s : State) : Result :=
  let cells := s.gangMembers plate gang
  .next (if s.allArrived cells barrier then s.releaseBarrier cells barrier (s.clk + 8) else s)

/-- BARRIER_TIMEOUT (R277): the arrival is withdrawn and the bundle of the BAR traps. -/
def execBarrierTimeout (cell : Nat) (s : State) : Result :=
  let c := s.core cell
  match c.seq.bar with
  | none => .next s
  | some b =>
    let ended := match b.release with
      | none => false
      | some t => !b.dom || decide (t ≤ s.clk)
    if ended || c.run != .running then .next s
    else match s.checkedGroup cell c.seq.pc with
      | .error _ => .next s
      | .ok bs => match ((c.waiters bs).filter fun m => match m.instr with
          | .bar .. => true
          | _ => false)[c.seq.barsDone]? with
        | none => .next s
        | some m => match m.instr with
          | .bar _ f =>
            if b.limit.any fun t => decide (t ≤ s.clk) then
              let pc := bundlePc c.seq.pc m.bundle
              .next (s.takeTrap cell (seqFault 182 7 pc (word f.tag.toNat)) pc)
            else .next s
          | _ => .next s

/-- The record of a domain barrier, changed, or begun. -/
def withBarrier (gang barrier : Nat) (f : DomainBarrier → DomainBarrier) (bs : List DomainBarrier) : List DomainBarrier :=
  if bs.any fun b => b.gang == gang && b.barrier == barrier then
    bs.map fun b => if b.gang == gang && b.barrier == barrier then f b else b
  else bs ++ [f { gang, barrier, plates := [], ticks := [], seen := [] }]

/-- Note another package's arrival at a domain barrier: the first copy is used (14_fabric R438). -/
def noteArrival (gang barrier position : Nat) (tick : Word) (bs : List DomainBarrier) : List DomainBarrier :=
  withBarrier gang barrier (fun b =>
    if b.seen.get? position == some tick then b
    else { b with ticks := b.ticks.set position tick, seen := b.seen.set position tick }) bs

/-- The release tick of a domain barrier for the gang of a plate, once every package of its mask has arrived (R268): this package's
arrival is that gang's own (log entry 46). -/
def DomainBarrier.release (b : DomainBarrier) (own lat plate : Nat) : Option Nat :=
  match b.plates.get? plate with
  | none => none
  | some (mask, here) =>
    let ps := (List.range 64).filter fun i => mask.getLsbD i && i != own
    if ps.all fun i => (b.ticks.get? i).isSome then some (ps.foldl (fun m i => max m (b.ticks.getD i 0).toNat) here.toNat + lat) else none

/-- The gang of a plate has been released: the arrivals go with its last gang. -/
def releasedBarrier (plate gang barrier : Nat) (bs : List DomainBarrier) : List DomainBarrier :=
  withBarrier gang barrier (fun b => b.leave plate) bs

/-- DOMAIN_BARRIER_RELEASE (R268): the package's arrival is sent when its gang barrier completes; the members issue when TICK reaches
the release tick. -/
def execDomainBarrierRelease (plate gang barrier : Nat) (s : State) : Result :=
  let cells := s.gangMembers plate gang
  match s.pkg.domBars.find? fun b => b.gang == gang && b.barrier == barrier && (b.plates.get? plate).isSome with
  | some b => match b.release s.pkg.domPos s.pkg.domLat plate with
    | some t =>
      if t ≤ s.tick.toNat then
        .next ((s.releaseBarrier cells barrier s.clk).updPkg fun k => { k with domBars := releasedBarrier plate gang barrier k.domBars })
      else .next s
    | none => .next s
  | none =>
    if !s.allArrived cells barrier then .next s
    else
      let mask := ((s.waitingAt cells barrier).head?.bind fun m => (s.core m).seq.bar).map (·.mask) |>.getD 0
      let mine (b : DomainBarrier) : DomainBarrier := { b with plates := b.plates.set plate (mask, s.tick) }
      let s1 := s.updPkg fun k => { k with domBars := withBarrier gang barrier mine k.domBars }
      .next ((s1.others mask).foldl (fun s d => s.sendBeat clsCounter d (.domainArrival gang barrier s.pkg.domPos s.tick)) s1)

/-! ## The counter (01_machine R26, R249 to R251) -/

/-- SLEW_STEP (R249): the next increment adds 2, or nothing. -/
def execSlewStep (advance : Bool) (s : State) : Result :=
  .next (if s.tick.toNat % 4096 == 0 then { s with stepBy := if advance then 2 else 0 } else s)

/-- COUNTER_EXCHANGE (R251): a neighbour's counter, less this package's. -/
def execCounterExchange (offset : BitVec 64) (s : State) : Result :=
  let n := offset.toInt
  let s1 := s.updPkg fun k => { k with slew := if n == 0 then none else some (decide (0 < n)), skew := k.skew || decide (2 < n.natAbs) }
  .next (if 2 < n.natAbs then
    (List.range 4).foldl (fun s p => s.postMessage p { kind := 0x06, cause := 186, cell := 0, thread := 0, ctx := 0, pc := 0, val := offset }) s1
  else s1)

/-- The instruction that an armed entry runs. -/
def entryInstr (plate index : Nat) (e : ScheduleEntry) : Instr :=
  match seKind e with
  | 0 => .scheduleLaunch plate index
  | 1 => .scheduleResume plate index
  | _ => .schedulePreempt plate index

/-- Beats whose delivery TICK has come (14_fabric R438). -/
def State.linkTargets (s : State) : State :=
  (List.range 12).foldl (fun s p =>
    if (s.link p).arriving.any fun b => decide (b.sent.toNat + (s.link p).lat ≤ s.tick.toNat) then s.after 0 phClock (32 + p) (.beats p) else s) s

/-- Events of absolute ticks that have come (R250): entries in ascending index, window closes, domain barriers. -/
def State.tickTargets (s : State) : State :=
  let s1 := (List.range 4).foldl (fun s p => (s.plate p).table.foldl (fun s x =>
    if seArmed x.2 && decide (seTick x.2 ≤ s.tick.toNat) then s.at' s.clk phTick (p * 256 + x.1) (.op (entryInstr p x.1 x.2)) else s) s) s
  let s2 := s1.cores.foldl (fun s x => (List.range 16).foldl (fun s n =>
    let w := x.2.window n
    if w.isOpen && decide (w.close.toNat ≤ s.tick.toNat) && !w.stalling then
      s.at' s.clk phTick (2048 + x.1 * 16 + n) (.op (.windowClose x.1 n))
    else s) s) s1
  s2.pkg.domBars.foldl (fun s b => b.plates.keys.foldl (fun s p => match b.release s.pkg.domPos s.pkg.domLat p with
    | some t => if t ≤ s.tick.toNat then s.at' s.clk phTick 8192 (.op (.domainBarrierRelease p b.gang b.barrier)) else s
    | none => s) s) (s2.linkTargets)

/-- Events of a new TICK value: slots, refills and samples, error windows, slew steps and counter exchanges. -/
def State.tickMarks (s : State) : State :=
  let t := s.tick.toNat
  let s1 := if t % 64 == 0 then (List.range 4).foldl (fun s p => s.at' s.clk phClock p (.op (.hbmSlot p))) s else s
  let s2 := if t % 1024 == 0 then (s1.at' s.clk phClock 8 (.op .energyRefill)).at' s.clk phSample 0 (.op .cloadSample) else s1
  let s3 := (List.range 7).foldl (fun s c =>
    let w := (s.pkg.errCfg[c]?.map (·.wlog)).getD 0
    if t % 2 ^ w == 0 then s.at' s.clk phClock (16 + c) (.op (.errorWindowStart c)) else s) s2
  let s4 := if t % 4096 == 0 then match s3.pkg.slew with
      | some a => (s3.updPkg fun k => { k with slew := none }).at' s.clk phClock 7 (.op (.slewStep a))
      | none => s3
    else s3
  if t % 2 ^ 20 == 0 && s.pkg.indom then
    (List.range 12).foldl (fun s p => if (s.link p).en then s.queueBeat p clsCounter (s.link p).nbr (.counter s.tick) else s) s4
  else s4

/-- A beat as it leaves at a TICK: an exchanged counter is the counter of its tick (R251). -/
def stampedBeat (b : Beat) (tick : Word) : Beat :=
  match b.body with
  | .counter _ => { b with sent := tick, body := .counter tick }
  | _ => { b with sent := tick }

/-- Each port whose link is up sends the oldest beat of the tick's class, once a TICK value (R436, R437). -/
def State.linkSlots (s : State) : State :=
  let m := s.tick.toNat % 16
  let cls := if m < 12 then clsCollective else if m < 14 then clsMirror else if m == 14 then clsCounter else clsControl
  let sent (l : Link) : Link := match l.queue.find? fun b => b.1 == cls && l.en && l.up s.clk with
    | some b => { l with queue := l.queue.erase b, wire := some (s.tick, stampedBeat b.2 s.tick) }
    | none => { l with wire := none }
  s.updPkg fun k => { k with links := k.links.map sent }

/-- TICK_INCREMENT (R26); until the plates are released only time passes (16_host R463). -/
def execTickIncrement (s : State) : Result :=
  let s1 : State := { s with clk := s.clk + 1, tick := s.tick + word s.stepBy, stepBy := 1 }
  if !s.mgmt.released then .next { s with clk := s.clk + 1 }
  else .next (if s.stepBy == 0 then s1 else s1.tickMarks.linkSlots).tickTargets

end Sys2Proof.Machine
end

