-- ==== Sys2Proof/Machine/Threads.lean ====
section
/-! DEFINITION. Barrel cores and their threads: registers, results, readiness, traps, ends, wakes, the generation token and the
killing of a context (10_barrel R287 to R293, R317 to R319; 11_barrel_traps R330 to R344; 12_draft R377, R378). -/

namespace Sys2Proof.Machine

open Sys2Proof

def State.barrel (s : State) (cell : Nat) : BarrelCore := s.barrels.getD cell BarrelCore.reset
def State.updBarrel (s : State) (cell : Nat) (f : BarrelCore → BarrelCore) : State :=
  { s with barrels := s.barrels.set cell (f (s.barrel cell)) }
def State.thread? (s : State) (cell t : Nat) : Option Thread := (s.barrel cell).threads.get? t
def State.updThread (s : State) (cell t : Nat) (f : Thread → Thread) : State :=
  match s.thread? cell t with
  | some x => s.updBarrel cell fun b => { b with threads := b.threads.set t (f x) }
  | none => s

/-- The thread of a slot that bears a name. -/
def State.named (s : State) (cell t uid : Nat) : Option Thread := (s.thread? cell t).filter fun x => x.uid == uid

/-- A thread as it is dispatched (R292, R294), before its arguments. -/
def Thread.fresh (uid ctx count base : Nat) (pc : BitVec 48) (ready rnd : Nat) (en : Flags) (tfmt tscl : BitVec 48) : Thread :=
  { uid, ctx, state := .runnable, wait := .none, pc, fetched := none, ready, issued := 0, yields := [], until' := 0, fault := none, count, base, rnd, en, flags := 0,
    felim := 20, sdom := 1, live := 0, killed := 0, tspb := 0, tspl := 0, spcnt := 0, srk := 0, src := 0, tfmt, tscl, auto := true,
    level := 0, tvec := 0, tsave := 0, levels := Vector.replicate 2 TrapLevel.reset, returns := [], parent := none, wake := false,
    inbox := [], senders := [], pair := none, sampler := false, prIssued := 0, prDone := 0, view := OrderView.fresh }

/-- The current thread; a blank one in an empty slot. -/
def State.th (s : State) : Thread := (s.thread? s.curB.cell s.curB.thread).getD (Thread.fresh 0 0 8 0 0 0 0 0 0 0)
def State.updTh (s : State) (f : Thread → Thread) : State := s.updThread s.curB.cell s.curB.thread f

/-- The cell and slot of the thread that bears a name. -/
def State.placeOf (s : State) (uid : Nat) : Option (Nat × Nat) :=
  s.barrels.findSome? fun b => (b.2.threads.find? fun t => t.2.uid == uid).map fun t => (b.1, t.1)

/-! ## Registers (03_encoding R79, R291, R293) -/

/-- x0 reads zero; 128 .. 143 are the common registers. -/
def BarrelCore.read (b : BarrelCore) (base n : Nat) : Word :=
  if 128 ≤ n then b.common[n - 128]?.getD 0 else if n == 0 then 0 else b.file.getD (base + n) 0

def BarrelCore.write (b : BarrelCore) (base n : Nat) (v : Word) : BarrelCore :=
  if 128 ≤ n then { b with common := b.common.setIfInBounds (n - 128) v, poison := b.poison &&& ~~~(BitVec.twoPow 16 (n - 128)) }
  else if n == 0 then b
  else { b with file := if v == 0 then b.file.erase (base + n) else b.file.set (base + n) v }

/-- A register of the current thread. -/
def State.rd (s : State) (n : Nat) : Word := (s.barrel s.curB.cell).read s.th.base n
def State.xd (s : State) : Word := s.rd s.curB.word.d.toNat
def State.xa (s : State) : Word := s.rd s.curB.word.a.toNat
def State.xb (s : State) : Word := s.rd s.curB.word.b.toNat
/-- imm32, sign-extended. -/
def State.imm (s : State) : Word := s.curB.word.imm.signExtend 64
/-- A write of register d. -/
def State.dst (s : State) (v : Word) : List BarrelWrite := [.reg s.curB.word.d.toNat v]

/-- Words from an address of registers on. -/
def State.rdRun (s : State) (n k : Nat) : List Word := (List.range k).map fun i => s.rd (n + i)

/-! ## Thread control registers (R294, 11_barrel_traps R336) -/

def Thread.fstat (t : Thread) : Word := word (t.rnd * 2 ^ 16 + t.en.toNat * 2 ^ 8 + t.flags.toNat)
/-- FSTAT := v; an rnd of 5 .. 7 leaves rnd unchanged (R307). -/
def Thread.setFstat (t : Thread) (v : Word) : Thread :=
  { t with rnd := if fld v 16 3 < 5 then fld v 16 3 else t.rnd, en := flagsAt v 8, flags := flagsAt v 0 }

def Thread.lev (t : Thread) (n : Nat) : TrapLevel := t.levels[n]?.getD TrapLevel.reset
def Thread.setLev (t : Thread) (n : Nat) (l : TrapLevel) : Thread := { t with levels := t.levels.setIfInBounds n l }

/-- SETC of a writable register (R336). -/
def Thread.setCreg (t : Thread) (n : Nat) (v : Word) : Thread :=
  let pc : BitVec 48 := v.extractLsb' 3 45 ++ (0 : BitVec 3)
  match n with
  | 0x002 => t.setFstat v
  | 0x003 => { t with felim := if 10 ≤ fld v 8 5 && fld v 8 5 ≤ 30 then fld v 8 5 else t.felim, sdom := fld v 0 2 }
  | 0x005 => { t with tspb := fld v 3 16 * 8 }
  | 0x006 => { t with tspl := fld v 0 17 }
  | 0x008 => { t with srk := v }
  | 0x009 => { t with src := setHalf t.src false v }
  | 0x00A => { t with src := setHalf t.src true v }
  | 0x00D => { t with auto := fbit v 0 }
  | 0x011 => { t with tvec := pc }
  | 0x012 => { t with tsave := v.extractLsb' 6 42 ++ (0 : BitVec 6) }
  | 0x014 => t.setLev 0 { t.lev 0 with epc := pc }
  | 0x016 => t.setLev 0 { t.lev 0 with scr := v }
  | 0x018 => t.setLev 1 { t.lev 1 with epc := pc }
  | 0x01A => t.setLev 1 { t.lev 1 with scr := v }
  | _ => t

/-! ## Results (R287 to R289) -/

/-- Give a thread's writes their landing period; `issued` orders the writes of one period. -/
def State.landAt (s : State) (cell t due issued : Nat) (ws : List BarrelWrite) : State :=
  match ws, s.thread? cell t with
  | [], _ => s
  | _, none => s
  | ws, some x =>
    let f : BarrelFlight := { due, seq := issued, thread := t, uid := x.uid, writes := ws }
    (s.updBarrel cell fun b => { b with flights := b.flights ++ [f] }).at' due phBarrelLand (cell * 2 + 1) (.barrelLand cell)

/-- One write. Common registers take it whatever became of its thread. -/
def State.landWrite (s : State) (cell : Nat) (f : BarrelFlight) (w : BarrelWrite) : State :=
  match w, s.named cell f.thread f.uid with
  | .reg n v, some t => s.updBarrel cell fun b => b.write t.base n v
  | .reg n v, none => if 128 ≤ n then s.updBarrel cell fun b => b.write 0 n v else s
  | .flags x, some _ => s.updThread cell f.thread fun t => { t with flags := t.flags ||| x }
  | .fstat v, some _ => s.updThread cell f.thread fun t => t.setFstat v
  | .creg n v, some _ => s.updThread cell f.thread fun t => t.setCreg n v
  | _, none => s

def BarrelWrite.isFlags : BarrelWrite → Bool
  | .flags _ => true
  | _ => false

/-- The writes due on a core: by issue, flags last (R289, R327). -/
def State.landBarrel (s : State) (cell : Nat) : State :=
  let fs := sortBy BarrelFlight.seq ((s.barrel cell).flights.filter fun f => decide (f.due ≤ s.clk))
  let s1 := s.updBarrel cell fun b => { b with flights := b.flights.filter fun f => !decide (f.due ≤ s.clk) }
  let some' (p : BarrelWrite → Bool) (s : State) : State :=
    fs.foldl (fun s f => (f.writes.filter p).foldl (fun s w => s.landWrite cell f w) s) s
  some' BarrelWrite.isFlags (some' (fun w => !w.isFlags) s1)

/-! ## Readiness (R287) -/

/-- Let a core issue from a period on. -/
def State.issueFrom (s : State) (cell due : Nat) : State := s.at' due phBarrel (cell * 2) (.op (.barrelIssue cell))

/-- A thread's wait ends: it is ready one period later. -/
def State.unblock (s : State) (cell t : Nat) : State :=
  match s.thread? cell t with
  | none => s
  | some x =>
    let r := max x.ready (s.clk + 1)
    (s.updThread cell t fun x => { x with state := .runnable, wait := .none, ready := r }).issueFrom cell r

/-- A waiting instruction completes: its results are written now. -/
def State.completes (s : State) (cell t : Nat) (ws : List BarrelWrite) : State :=
  (s.landAt cell t s.clk ((s.thread? cell t).map (·.issued) |>.getD 0) ws).unblock cell t

/-- The current thread goes on at an address, ready after an offset. -/
def State.goOn (s : State) (pc : BitVec 48) (offset : Nat) : State :=
  (s.updTh fun t => { t with pc, ready := s.clk + offset }).issueFrom s.curB.cell (s.clk + offset)

/-- The next instruction's address. -/
def State.pcNext (s : State) : BitVec 48 := s.th.pc + 8

/-- The current instruction's results land at an offset and the thread goes on one period later (R287). -/
def State.finishAt (s : State) (offset : Nat) (ws : List BarrelWrite) : State :=
  (s.landAt s.curB.cell s.curB.thread (s.clk + offset) s.clk ws).goOn s.pcNext (offset + 1)

/-- A simple instruction. -/
def State.simple (s : State) (ws : List BarrelWrite) : State := s.finishAt 7 ws

/-- The current thread waits; it goes on at the next instruction, not before offset 8. -/
def State.await (s : State) (st : ThreadState) (w : Wait) : State :=
  s.updTh fun t => { t with pc := t.pc + 8, ready := s.clk + 8, state := st, wait := w }

/-- A transfer of control (03_encoding R81, R315). -/
def State.jumpTo (s : State) (pc : BitVec 48) : State := s.goOn pc 8
/-- The target of a displacement. -/
def State.target (s : State) : BitVec 48 := s.th.pc + (s.curB.word.imm.signExtend 48 <<< 3)

/-! ## Traps (11_barrel_traps R330 to R333) -/

/-- A thread will trap: the handler is entered when the fault has been detected and its special functions have landed. -/
def State.trapThread (s : State) (cell t cause : Nat) (val : Word) (epc : BitVec 48) (issued detected : Nat) : State :=
  (s.updThread cell t fun x => { x with
    fault := some { cause, val, epc, issued, detected }, state := .runnable, wait := .none, pc := epc, fetched := none }).at' detected phNet (cell * 64 + t)
    (.op (.barrelTrapEntry cell t))

/-- A fault of the current instruction, detected at an offset. -/
def State.bTrapAt (s : State) (offset cause : Nat) (val : Word) : State :=
  s.trapThread s.curB.cell s.curB.thread cause val s.th.pc s.clk (s.clk + offset)
/-- A fault detected when the sources are read. -/
def State.bTrap (s : State) (cause : Nat) (val : Word) : Result := .next (s.bTrapAt 1 cause val)

/-- A fault of the current instruction, or its effect. -/
def State.bGuard (s : State) (f : Option (Nat × Word)) (k : State → State) : Result :=
  match f with
  | some x => s.bTrap x.1 x.2
  | none => .next (k s)

/-! ## Wakes (R319, 09_windows R284) -/

/-- A wake for a slot: its result, 0 when the slot holds no thread of the context. A woken thread acquires (04_ordering R113). -/
def State.wakeThread (s : State) (cell t : Nat) (ctx : Option Nat) : Nat × State :=
  match s.thread? cell t with
  | none => (0, s)
  | some x =>
    if (match ctx with
      | some c => c != x.ctx
      | none => false) then (0, s)
    else match x.wait with
      | .park => (1, (s.catchUp (threadAgent x.uid) s.nextId).unblock cell t)
      | _ => (2, s.updThread cell t fun x => { x with wake := true })

/-! ## The generation token (12_draft R377, R378) -/

def State.group (s : State) (g : Nat) : ServingGroup := s.groups[g]?.getD ServingGroup.reset
def State.updGroup (s : State) (g : Nat) (f : ServingGroup → ServingGroup) : State :=
  { s with groups := s.groups.setIfInBounds g (f (s.group g)) }

def ServingGroup.rnd (g : ServingGroup) : Word := word (g.orphan.toNat * 2 ^ 63 + g.round)

/-- A free token goes to the first waiter at its cell, which acquires (R378). -/
def State.offerToken (s : State) (g : Nat) : State :=
  let x := s.group g
  if !x.en || x.holder.isSome then s
  else
    let ready (w : Nat × Nat) : Option (Nat × Nat × Nat × Nat) :=
      if w.1 != x.cell then none
      else (s.thread? w.1 w.2).bind fun t => match t.wait with
        | .token d k => if k == g then some (w.1, w.2, t.uid, d) else none
        | _ => none
    match x.waiters.findSome? ready with
    | none => s
    | some (c, t, uid, d) =>
      (s.updGroup g fun x => { x with waiters := x.waiters.erase (c, t), holder := some (c, t, uid), taken := c }).catchUp (threadAgent uid) s.nextId |>.completes c t [.reg d x.rnd]

/-- The member after the cell at which the token was taken. -/
def State.nextMember (s : State) (x : ServingGroup) : Nat :=
  let ok (c : Nat) : Bool := x.mask.getLsbD c && !s.retired c
  (((List.range 320).map fun i => (x.taken + 1 + i) % 320).find? ok).getD x.taken

/-- Pass a token on. -/
def State.passToken (s : State) (g : Nat) (orphan : Bool) : State :=
  (s.updGroup g fun x => { x with orphan, round := (x.round + 1) % 2 ^ 63, cell := s.nextMember x, holder := none }).offerToken g

/-! ## Ends of threads (10_barrel R317, R318; 11_barrel_traps R340 to R342) -/

/-- Its special-function requests are still queued. -/
def BarrelCore.queued (b : BarrelCore) (uid : Nat) : Bool := b.sfn.any fun q => q.uid == uid

/-- Requests of a thread that have not performed. -/
def State.outstanding (s : State) (uid : Nat) : List (Nat × Request) := s.requests.filter fun r => r.2.uid == uid

/-- A child has retired (R317); a JOIN that waits completes at zero (R318). -/
def State.childEnded (s : State) (parent : Option (Nat × Nat × Nat)) (killed : Bool) : State :=
  match parent with
  | none => s
  | some (cell, t, uid) => match s.named cell t uid with
    | none => s
    | some p =>
      let k := if killed then min 65535 (p.killed + 1) else p.killed
      let s1 := s.updThread cell t fun p => { p with live := p.live - 1, killed := k }
      match p.wait with
      | .join d =>
        if p.live ≤ 1 then (s1.updThread cell t fun p => { p with killed := 0 }).completes cell t [.reg d (word k)] else s1
      | _ => s1

/-- Let cores look for a task in the next period. -/
def State.offerTasks (s : State) (cells : List Nat) : State :=
  cells.foldl (fun s c => s.at' (s.clk + 1) phDispatch (c * 2 + 1) (.op (.taskDispatch c))) s

/-- Cells whose dispatch may change when a slot, a run or an entry appears. -/
def State.dispatchFrom (s : State) (cell : Nat) : State :=
  let s1 := if (s.barrel cell).smpStart then s.at' (s.clk + 1) phDispatch (cell * 2) (.op (.samplerStart cell)) else s
  s1.offerTasks (cell :: (s.barrels.filter fun b => b.2.pairOn && b.2.pairCell == cell).map (·.1))

def State.updReq (s : State) (id : Nat) (f : Request → Request) : State :=
  match s.requests.get? id with
  | some r => { s with requests := s.requests.set id (f r) }
  | none => s

/-- Send a request's answer back to its core (R297). -/
def State.reply (s : State) (id router : Nat) (answer : List Word) (fault : Option (Nat × Word)) : State :=
  match s.requests.get? id with
  | none => s
  | some r => (s.updReq id fun r => { r with stage := .served, answer, fault }).send router r.home 1 phNet (r.cell * 64 + r.thread)
      (.deliver id)

/-- Free a slot and its run: the registers are scrubbed, a held token passes on orphaned, messages that wait for
the thread are discarded, a dying context may have ended. -/
def State.freeThread (s : State) (cell t : Nat) : State :=
  match s.thread? cell t with
  | none => s
  | some x =>
    let s1 := s.updBarrel cell fun b => { b with
      threads := b.threads.erase t
      file := b.file.filter fun e => !(decide (x.base ≤ e.1) && decide (e.1 < x.base + roundUp x.count 8)) }
    let s2 := (List.range 16).foldl (fun s g =>
      let q := s.group g
      let s := s.updGroup g fun q => { q with waiters := q.waiters.filter fun w => w != (cell, t) }
      if q.holder == some (cell, t, x.uid) then
        (s.passToken g true).postMessage (plateOf cell)
          { kind := 0x20, cause := 0, cell, thread := t, ctx := x.ctx, pc := word g, val := word ((q.round + 1) % 2 ^ 63) }
      else s) s1
    let s3 := x.senders.foldl (fun s id => s.reply id (routerOf cell) [0] none) ((s2.forget (threadAgent x.uid)).dispatchFrom cell)
    if (s.kills.get? x.ctx).isSome then s3.after 0 phDispatch 0 (.op (.contextKillComplete x.ctx)) else s3

/-- Let the arbiter of a core look at its requests (R297). -/
def State.arbiter (s : State) (cell : Nat) : State :=
  s.at' (max s.clk ((s.barrel cell).portAt + 1)) phNet (cell * 64) (.grant cell)

/-- A request waits at no scratchpad bank any more (R296). -/
def State.leaveBanks (s : State) (id : Nat) : State :=
  let qs : Table (List (Nat × Nat)) := s.scratchPorts.map fun (q : Nat × List (Nat × Nat)) => (q.1, q.2.filter fun x => x.2 != id)
  { s with scratchPorts := qs.filter fun q => !q.2.isEmpty }

/-- Take a request out of the queues of its core and of the scratchpad banks; its slot is free, and its core's arbiter looks again (R297). -/
def State.dropRequest (s : State) (id : Nat) : State :=
  match s.requests.get? id with
  | none => s
  | some r =>
    let s1 := ({ s with requests := s.requests.erase id }.leaveBanks id).updBarrel r.cell fun b =>
      { b with waiting := b.waiting.erase id, slots := if r.slot then b.slots - 1 else b.slots }
    if (s1.barrel r.cell).waiting.isEmpty then s1 else s1.arbiter r.cell

/-- Whether a killed thread's request is withdrawn (R342): it has not left its core, waits on a full-empty word, or waits for room in a
receive queue. A TQGET some of whose words have performed goes on; a PREL that waits is withdrawn wherever it is (13_proof R398). -/
def Request.withdrawn (r : Request) : Bool :=
  match r.stage with
  | .translating | .ready | .comparing _ | .parked => true
  | .away => (match r.kind with
    | .taskGet .. => r.sp && r.turns == 8
    | .proof 0x79 .. => true
    | _ => r.sp)
  | .served => r.sp

/-- A withdrawn TQGET leaves its packet at the head of the queue. -/
def State.giveBack (s : State) (r : Request) : State :=
  match r.kind with
  | .taskGet _ ctx (w :: ws) => s.updBarrel r.cell fun b => { b with tasks := { ctx, words := w :: ws } :: b.tasks }
  | _ => s

/-- Withdraw what a killed thread has waiting (R342 step 2). -/
def State.withdraw (s0 : State) (uid : Nat) : State :=
  let mine (r : Release) : Bool := (r.request.bind s0.requests.get?).any fun q => q.uid == uid
  let s : State := if s0.releases.any mine then
      let cs := (s0.releases.filter mine).map (·.ctx)
      cs.foldl (fun s c => s.after 0 phNet 0 (.op (.sealPages c))) { s0 with releases := s0.releases.filter fun r => !mine r }
    else s0
  ((s.outstanding uid).filter fun r => r.2.withdrawn).foldl (fun s r =>
    let s1 := (s.dropRequest r.1).giveBack r.2
    let parked : Table (List Nat) := s1.parked.map fun (q : Nat × List Nat) => (q.1, q.2.erase r.1)
    let unsend (b : BarrelCore) : BarrelCore :=
      { b with threads := b.threads.map fun (t : Nat × Thread) => (t.1, { t.2 with senders := t.2.senders.erase r.1 }) }
    { s1 with parked, barrels := s1.barrels.map fun (b : Nat × BarrelCore) => (b.1, unsend b.2) }) s

/-- The cell and slot that a message about a thread names: the primary of a pair (R348). -/
def Thread.primaryAt (x : Thread) (cell t : Nat) : Nat × Nat :=
  match x.pair with
  | some p => if p.primary then (cell, t) else (p.cell, p.thread)
  | none => (cell, t)

/-- The last steps of a kill, once its special functions have landed (R342 steps 4 to 8). -/
def State.finishKill (s : State) (cell t : Nat) : State :=
  match s.thread? cell t with
  | none => s
  | some x => match x.wait with
    | .dying cause epc val report =>
      if (s.barrel cell).queued x.uid then s
      else
        let s1 := s.childEnded x.parent true
        let p := x.primaryAt cell t
        let s2 := if report then
            s1.postMessage (plateOf cell) { kind := 0x07, cause, cell := p.1, thread := p.2, ctx := x.ctx, pc := epc.setWidth 64, val }
          else s1
        s2.freeThread cell t
    | _ => s

/-- KillThread (R342): the thread never issues again. -/
def State.killThread (s : State) (cell t cause : Nat) (epc : BitVec 48) (val : Word) (report : Bool) : State :=
  match s.thread? cell t with
  | none => s
  | some x => match x.wait with
    | .dying .. => s
    | _ =>
      ((s.withdraw x.uid).updThread cell t fun x => { x with
        state := .parked, wait := .dying cause epc val report, fault := none, inbox := [], wake := false }).finishKill cell t

/-- EXIT goes on once nothing of the thread is outstanding (R340). -/
def State.tryExit (s : State) (cell t : Nat) : State :=
  match s.thread? cell t with
  | none => s
  | some x =>
    if x.wait != .exit || (s.barrel cell).queued x.uid || !(s.outstanding x.uid).isEmpty then s
    else (s.childEnded x.parent false).freeThread cell t

/-- What a FENCE of a kind (1 release, 2 acquire, 3 full) and a scope does for its thread (04_ordering R108): an acquire orders later reads
after earlier ones, but for those whose releases the scopes leave out (R106); a full fence also after its own writes, as agents of its scope
see them; a release gives the thread's later writes its scope. -/
def State.fences (s : State) (cell t kind scope : Nat) : State :=
  match s.thread? cell t with
  | none => s
  | some x =>
    let a := Agent.thread cell t
    let v := x.view
    let met := (v.marks.filter fun m => scopesMeet m.agent m.scope a scope).map (·.upTo)
    let s1 := if kind == 1 then s else s.catchUp (threadAgent x.uid) (met.foldl max v.read)
    let s2 := if kind != 3 then s1 else s1.shut (threadAgent x.uid) fun w => decide (w.id < v.wrote) && inScope scope a w.agent
    if kind == 2 then s2 else s2.updThread cell t fun x => { x with view := { x.view with fenced := some (max scope (x.view.fenced.getD 0)) } }

/-- FENCE goes on once the thread's earlier accesses have performed (R313). -/
def State.tryFence (s : State) (cell t : Nat) : State :=
  match s.thread? cell t with
  | none => s
  | some x => match x.wait with
    | .fence kind scope => if (s.outstanding x.uid).isEmpty then (s.fences cell t kind scope).unblock cell t else s
    | _ => s

/-- What a landed special function or a performed request lets a thread do. -/
def State.recheck (s : State) (cell t : Nat) : State :=
  match s.thread? cell t with
  | none => s
  | some x =>
    let free := !(s.barrel cell).queued x.uid
    let s1 := if x.fault.isSome && free then s.at' s.clk phBarrel (cell * 2) (.op (.barrelTrapEntry cell t)) else s
    match x.wait with
    | .exit => s1.tryExit cell t
    | .fence .. => s1.tryFence cell t
    | .dying .. => s1.finishKill cell t
    | .pass d g =>
      if !(s1.outstanding x.uid).isEmpty then s1
      else
        let s2 := s1.passToken g false
        s2.completes cell t [.reg d (word (s2.group g).cell)]
    | .migrate .. => if free && x.state != .migrating then
        (s1.updThread cell t fun x => { x with state := .migrating }).after 1 phNet (cell * 64 + t) (.op (.migrationReservation cell t))
      else s1
    | _ => s1

/-! ## Killing a context (R344) -/

/-- The plates that hold part of a partition. -/
def State.platesOf (s : State) (ctx : Nat) : List Nat := (List.range 4).filter fun p => (List.range 20).any fun q => (s.ctx ctx).quads.getLsbD (p * 20 + q)

/-- Whether an agent of a context still runs: a thread in a slot. -/
def State.hasThreads (s : State) (ctx : Nat) : Bool := s.barrels.any fun b => b.2.threads.any fun t => t.2.ctx == ctx

/-- KillContext (R344): every thread, task and timed program of the context stops. -/
def State.killContext (s : State) (ctx : Nat) (m : Message) : State :=
  let s0 := if ctx == 0 then s.logEvent evKill m.cause else s
  let s1 := s0.updCtx ctx fun x => { x with killed := true }
  let s2 := s1.barrels.foldl (fun s b =>
    let s := b.2.threads.foldl (fun s t => if t.2.ctx == ctx then s.killThread b.1 t.1 0 0 0 false else s) s
    (s.updBarrel b.1 fun b => { b with tasks := b.tasks.filter fun p => p.ctx != ctx, deque := b.deque.filter fun e => e.ctx != ctx }).dispatchFrom b.1) s1
  let s3 := s2.cores.foldl (fun s c => if c.2.ctx == ctx then s.containCore c.1 else s) s2
  let s4 : State := { s3 with groups := s3.groups.map fun g =>
    if g.ctx == ctx && g.en then { g with en := false, holder := none, waiters := [] } else g }
  let closed (u : SuffixUnit) : SuffixUnit := { u with open' := u.open'.filter fun q => q.2.ctx != ctx }
  { s4 with kills := s4.kills.set ctx m, suffix := s4.suffix.map fun (u : Nat × SuffixUnit) => (u.1, closed u.2) }.after 0 phDispatch 0 (.op (.contextKillComplete ctx))

/-- CONTEXT_KILL_COMPLETE (R344 step 5): one message to each plate of the partition; those of a plate reset all carry its cause
(13_proof R393). -/
def execContextKillComplete (ctx : Nat) (s : State) : Result :=
  match s.kills.get? ctx with
  | none => .next s
  | some m =>
    if s.hasThreads ctx then .next s
    else
      let s1 := { s with kills := s.kills.erase ctx }
      let ps := s.platesOf ctx
      if m.cause == 344 then .next (ps.foldl (fun s p => s.postMessage p m) s1)
      else .next ((if ps.contains (plateOf m.cell) then ps else plateOf m.cell :: ps).foldl (fun s p => s.postMessage p
        (if p == plateOf m.cell then m else { m with cause := 0, cell := 0, thread := 0, pc := 0, val := 0 })) s1)

/-- BARREL_TRAP_ENTRY (R330, R332). -/
def execBarrelTrapEntry (cell thread : Nat) (s : State) : Result :=
  match s.thread? cell thread with
  | none => .next s
  | some x => match x.fault with
    | none => .next s
    | some f =>
      if (s.barrel cell).queued x.uid || decide (s.clk < f.detected) then .next s
      else if x.level == 2 then
        .next (s.killContext x.ctx { kind := 0x08, cause := f.cause, cell, thread, ctx := x.ctx, pc := f.epc.setWidth 64, val := f.val })
      else if x.tvec == 0 then .next (s.killThread cell thread f.cause f.epc f.val true)
      else
        let ready := max (f.issued + 8) (s.clk + 1)
        .next ((s.updThread cell thread fun x =>
          { x.setLev x.level { x.lev x.level with cause := f.cause, epc := f.epc, val := f.val } with
            level := x.level + 1, pc := x.tvec + BitVec.ofNat 48 (0x100 * x.level), fault := none, ready := ready }).issueFrom cell ready)

/-! ## Runs and dispatch (R291, R292, R300 to R302) -/

/-- Runs in use: first entry and entries. -/
def BarrelCore.runs (b : BarrelCore) : List (Nat × Nat) :=
  b.threads.map (fun t => (t.2.base, roundUp t.2.count 8)) ++ b.reserved.map fun r => (r.base, roundUp r.count 8)

/-- The first run of the register file that fits. -/
def BarrelCore.firstFit (b : BarrelCore) (count : Nat) : Option Nat :=
  let n := roundUp count 8
  ((List.range 256).map (· * 8)).find? fun x => decide (x + n ≤ 2048) && !b.runs.any fun r => decide (x < r.1 + r.2) && decide (r.1 < x + n)

/-- The lowest free slot; slot 63 is withheld while sampling is enabled. -/
def BarrelCore.freeSlot (b : BarrelCore) : Option Nat :=
  (List.range 64).find? fun t => (b.threads.get? t).isNone && !(b.reserved.any fun r => r.slot == t) && !(t == 63 && b.smpEn)

/-- Start a thread in a slot with its arguments, those at or above the count dropped. -/
def State.startThread (s : State) (cell t : Nat) (x : Thread) (args : List (Nat × Word)) : State :=
  let s1 := { s with nextId := s.nextId + 1 }.updBarrel cell fun b => { b with threads := b.threads.set t { x with uid := s.nextId } }
  ((args.filter fun a => decide (a.1 < x.count)).foldl (fun s a => s.updBarrel cell fun b => b.write x.base a.1 a.2) s1).issueFrom cell x.ready

/-- A fresh thread with the context's defaults (R294). -/
def State.freshThread (s : State) (ctx count base : Nat) (pc : BitVec 48) (tfmt tscl : BitVec 48) : Thread :=
  Thread.fresh s.nextId ctx count base pc (s.clk + 1) (s.ctx ctx).fsRnd (s.ctx ctx).fsEn tfmt tscl

def TaskPacket.word (p : TaskPacket) (i : Nat) : Word := p.words[i]?.getD 0
def TaskPacket.count (p : TaskPacket) : Nat := fld (p.word 0) 48 8
def TaskPacket.paired (p : TaskPacket) : Bool := fbit (p.word 0) 56
def TaskPacket.args (p : TaskPacket) : List (Nat × Word) := (List.range 5).map fun i => (i + 1, p.word (3 + i))
/-- The thread of a packet. -/
def State.packetThread (s : State) (p : TaskPacket) (base : Nat) : Thread :=
  s.freshThread p.ctx p.count base ((p.word 0).setWidth 48) ((p.word 1).setWidth 48) ((p.word 2).setWidth 48)

/-- The live context whose partition holds a cell, context 0 behind another (01_machine R470). -/
def State.cellContext (s : State) (cell : Nat) : Option Nat :=
  ((s.pkg.ctxs.find? fun c => c.1 != 0 && c.2.live && c.2.quads.getLsbD (quadOf cell)).map (·.1)) <|> (if s.holds 0 cell then some 0 else none)

/-- The sampler takes slot 63 and the first run that fits (12_draft R374), unless its cell is retired (01_machine R12) or lies in no
partition, where it waits (R470). -/
def State.startSampler (s : State) (cell : Nat) : State :=
  let b := s.barrel cell
  if !b.smpStart || (b.threads.get? 63).isSome || (b.reserved.any fun r => r.slot == 63) || s.retired cell then s
  else match s.cellContext cell, b.firstFit b.smpRegs with
    | none, _ | _, none => s
    | some ctx, some base =>
      let s1 := s.updBarrel cell fun b => { b with smpStart := false }
      s1.startThread cell 63 { s1.freshThread ctx b.smpRegs base b.smpEnt 0 0 with sampler := true } []

/-- Dispatch the head packet: alone, or as a pair with the partner of PAIRMAP, whose slot and run are reserved first (11_barrel_traps
R354), after a sampler that waits there; a retired partner takes nothing (01_machine R12). -/
def State.dispatchPacket (s0 : State) (cell : Nat) (p : TaskPacket) : Option State :=
  let s := if p.paired && (s0.barrel cell).pairOn then s0.startSampler (s0.barrel cell).pairCell else s0
  let b := s.barrel cell
  match b.freeSlot, b.firstFit p.count with
  | some t, some base =>
    let taken := s.updBarrel cell fun b => { b with tasks := b.tasks.drop 1 }
    if !p.paired then some (taken.startThread cell t (taken.packetThread p base) p.args)
    else if !b.pairOn || s.retired b.pairCell then none
    else
      let o := b.pairCell
      match (s.barrel o).freeSlot, (s.barrel o).firstFit p.count with
      | some t2, some base2 =>
        let link (c t : Nat) (primary : Bool) : Option Pair := some { cell := c, thread := t, primary, sent := 0 }
        let s1 := taken.startThread o t2 { taken.packetThread p base2 with pair := link cell t false } p.args
        some (s1.startThread cell t { s1.packetThread p base with pair := link o t2 true } p.args)
      | _, _ => none
  | _, _ => none

/-- Start the child of a deque entry (R317). -/
def State.dispatchEntry (s : State) (cell : Nat) (e : DequeEntry) : Option State :=
  let b := s.barrel cell
  match b.freeSlot, b.firstFit e.count with
  | some t, some base => some (s.startThread cell t { s.freshThread e.ctx e.count base e.entry e.tfmt e.tscl with parent := some e.parent }
      [(1, e.args.1), (2, e.args.2), (3, e.thid)])
  | _, _ => none

/-- The oldest entry of a core, if a core of the domain may take it. -/
def State.stealable (s : State) (thief domain cell : Nat) : Option DequeEntry :=
  ((s.barrel cell).deque.getLast?).filter fun e => decide (domain ≤ e.sdom) && s.holds e.ctx thief && s.holds e.ctx cell

/-- The core and entry that a core may steal (R302): the widest look comes last. -/
def State.steal (s : State) (cell : Nat) : Option (Nat × DequeEntry) :=
  let near (d c : Nat) : Bool := c != cell && !s.retired c &&
    (if d == 1 then clusterOf c == clusterOf cell else if d == 2 then plateOf c == plateOf cell else true)
  [1, 2, 3].findSome? fun d =>
    let cs := s.barrels.filterMap fun b => if near d b.1 then (s.stealable cell d b.1).map fun e => (b.1, e, b.2.deque.length) else none
    (cs.foldl (fun m c => match m with
      | some (x : Nat × DequeEntry × Nat) => if x.2.2 < c.2.2 then some c else some x
      | none => some c) none).map fun x => (x.1, x.2.1)

/-- An entry has left a core's deque, or a partition has grown: the core, and every idle core of the partition, may find a task (R300,
R302). -/
def State.afterSteal (s : State) (ctx cell : Nat) : State :=
  let idle (c : Nat) : Bool := c == cell || (s.holds ctx c && (s.barrel c).tasks.isEmpty && (s.barrel c).deque.isEmpty)
  s.offerTasks ((List.range 320).filter idle)

/-- TASK_DISPATCH (R300): at most one task a period, after a sampler that waits (12_draft R374). No cell issues before the plates are
released (16_host R463). -/
def execTaskDispatch (cell : Nat) (s0 : State) : Result :=
  let s := if s0.mgmt.released then s0.startSampler cell else s0
  let b := s.barrel cell
  if s.retired cell || b.freeSlot.isNone || !s.mgmt.released then .next s
  else
    let again (s : State) : State := s.at' (s.clk + 1) phDispatch (cell * 2 + 1) (.op (.taskDispatch cell))
    match (b.tasks.head?.bind fun p => s.dispatchPacket cell p) with
    | some s1 => .next (again s1)
    | none => match b.deque with
      | e :: es => match (s.updBarrel cell fun b => { b with deque := es }).dispatchEntry cell e with
        | some s1 => .next ((again s1).afterSteal e.ctx cell)
        | none => .next s
      | [] =>
        if !b.tasks.isEmpty then .next s
        else match s.steal cell with
          | none => .next s
          | some (c, e) => match (s.updBarrel c fun b => { b with deque := b.deque.dropLast }).dispatchEntry cell e with
            | some s1 => .next ((again s1).afterSteal e.ctx c)
            | none => .next s

/-- SAMPLER_START (12_draft R374), once the plates are released (16_host R463). -/
def execSamplerStart (cell : Nat) (s : State) : Result := .next (if s.mgmt.released then s.startSampler cell else s)

end Sys2Proof.Machine
end

