-- ==== Sys2Proof/Machine/Barrel.lean ====
section
/-! DEFINITION. The issue stage of a barrel core and its instructions that reach no memory (10_barrel R287 to R291, R305 to R308, R315
to R318, R326 to R328; 11_barrel_traps R336 to R340). -/

namespace Sys2Proof.Machine

open Sys2Proof

/-! ## Fetch and decoding (03_encoding R78, R79; 14_fabric R432, R435) -/

/-- The thread's own scratchpad, which it reaches by local addresses alone (01_machine R17). -/
def ownScratch (cell pa : Nat) : Bool := inScratch pa && scratchCell pa == cell

/-- The translation of a thread's next fetch, where it needs no walk: what its walk has given, or the cache (14_fabric R433). -/
def State.fetchAt (s : State) (cell : Nat) (t : Thread) : Option (Except Nat Nat) :=
  match t.fetched with
  | some pa => some (.ok pa)
  | none => s.translateNow (plateOf cell) t.ctx t.pc.toNat false true

/-- A thread waits for the walk of its next fetch. -/
def State.startFetch (s : State) (cell t : Nat) (x : Thread) : State :=
  (s.updThread cell t fun x => { x with state := .blocked, wait := .fetch }).startWalk (plateOf cell) x.ctx x.pc.toNat false true
    (.fetch cell t x.uid)

/-- Whether a line is marked poisoned (14_fabric R428). -/
def State.poisoned (s : State) (pa : Nat) : Bool := s.pkg.poison.contains (lineOf pa)

/-- The word at a thread's program counter, or the cause and TVAL of its fetch fault; cause 0 while its translation takes a walk. -/
def State.fetchWord (s : State) (cell : Nat) (t : Thread) : Except (Nat × Word) (BitVec 64) :=
  match s.fetchAt cell t with
  | none => .error (0, 0)
  | some (.error c) => .error (c, t.pc.setWidth 64)
  | some (.ok pa) =>
    if ownScratch cell pa then .error (49, t.pc.setWidth 64)
    else if s.poisoned pa then .error (380, t.pc.setWidth 64)
    else .ok (word (s.mem.num pa 8))

/-- Whether a thread's next instruction lies in stacks that the reset of their plate holds: it waits (13_proof R393). -/
def State.fetchHeld (s : State) (cell : Nat) (t : Thread) : Bool :=
  match s.fetchAt cell t with
  | some (.ok pa) => s.stackHeld pa
  | _ => false

/-- Runs of registers that an instruction names by their first: the field's bit, its value, the last register (R311, R323, R324, R328,
12_draft R380). -/
def runFields (i : Instr) (w : BarrelWord) : List (Nat × Nat × Nat) :=
  let d := w.d.toNat
  let n := fld w.imm 0 4
  match i with
  | .ldp | .sxqry => [(48, d, d + 1)]
  | .rngpx => [(48, d, d + 1), (40, w.a.toNat, w.a.toNat + 1)]
  | .send | .mcast => [(32, w.b.toNat, w.b.toNat + n - 1)]
  | .recv => [(48, d, d + n - 1)]
  | _ => []

/-- A register field at or above the thread's count (R79): its bit and value. -/
def overCount (count : Nat) (i : Instr) (w : BarrelWord) : Option (Nat × Nat) :=
  match (regFields i w).find? fun r => decide (count ≤ r.2) && decide (r.2 < 128) with
  | some r => some r
  | none => ((runFields i w).find? fun r => decide (count ≤ r.2.2)).map fun r => (r.1, r.2.1)

/-- A thread's next instruction, or the cause and TVAL of its decoding fault (R75). -/
def State.nextInstr (s : State) (cell : Nat) (t : Thread) : Except (Nat × Word) (Instr × BarrelWord) :=
  match s.fetchWord cell t with
  | .error e => .error e
  | .ok x => match decodeBarrel x with
    | .error (.illegalOpcode o) => .error (1, word o)
    | .error (.illegalField b) => .error (2, word b)
    | .error (.illegalRegister b v) => .error (4, word (b + v * 256))
    | .ok (i, w) => match overCount t.count i w with
      | some r => .error (4, word (r.1 + r.2 * 256))
      | none => .ok (i, w)

/-- Whether register d is read. -/
def readsD (i : Instr) : Bool :=
  match i with
  | .st | .ste | .cas | .fma | .fms | .fnma | .barrelLih | .wst | .wpost | .fork | .sxapp => true
  | _ => false

/-- The registers that an instruction names. -/
def namedRegs (i : Instr) (w : BarrelWord) : List Nat :=
  (regFields i w).map (·.2) ++ (runFields i w).flatMap fun r => (List.range (r.2.2 - r.2.1)).map fun k => r.2.1 + 1 + k

/-- Whether the register field at a bit is one that an instruction reads: not its destination, nor RECV's second one. -/
def readsField (i : Instr) (bit : Nat) : Bool := if bit == 48 then readsD i else i != .recv || bit != 40

/-- A poisoned common register that an instruction reads (11_barrel_traps R343). -/
def BarrelCore.poisonRead (b : BarrelCore) (i : Instr) (w : BarrelWord) : Option Nat :=
  ((regFields i w).filter fun r => readsField i r.1 && decide (128 ≤ r.2)).findSome? fun r =>
    if b.poison.getLsbD (r.2 - 128) then some (r.2 - 128) else none

/-! ## Issue (R287, R290, R327) -/

/-- A thread could issue now. -/
def Thread.canIssue (t : Thread) (clk : Nat) : Bool := t.state == .runnable && t.fault.isNone && decide (t.ready ≤ clk)

/-- An instruction that names a pending special-function result, or finds the queue full, does not issue (R326, R327). -/
def State.sfnHolds (s : State) (cell : Nat) (t : Thread) : Bool :=
  let b := s.barrel cell
  match s.nextInstr cell t with
  | .error _ => false
  | .ok (i, w) =>
    let mine := (b.sfn.filter fun q => q.uid == t.uid).map (·.dest)
    (namedRegs i w).any (fun n => mine.contains n) || (match i with
      | .sfn => decide (32 ≤ b.sfn.length)
      | _ => false)

/-- Another thread of the core has issued (R290): a YLD that waited for it alone is over. -/
def Thread.sawIssue (t : Thread) (clk issued : Nat) : Thread :=
  if t.yields.contains issued then
    let rest := t.yields.erase issued
    { t with yields := rest, ready := if rest.isEmpty then max (clk + 1) (t.until' - 56) else t.ready }
  else t

/-- Thread `t` issues. -/
def State.issueThread (s : State) (cell t : Nat) : State :=
  let s1 := s.updBarrel cell fun b =>
    { b with last := t, threads := b.threads.map fun (x : Nat × Thread) =>
      (x.1, if x.1 == t then { x.2 with issued := s.clk, yields := [] } else x.2.sawIssue s.clk t) }
  let s2 := (s1.barrel cell).threads.foldl (fun s x =>
    if x.1 != t && x.2.state == .runnable && x.2.fault.isNone then s.issueFrom cell (max x.2.ready (s.clk + 1)) else s) s1
  s2.at' s.clk phBarrel (cell * 2 + 1) (.thread cell t)

/-- The first of some slots whose thread can issue. One whose fetch needs a walk waits for it (14_fabric R433). -/
def State.issueScan (s : State) (cell : Nat) : List Nat → State
  | [] => s
  | t :: ts => match s.thread? cell t with
    | none => s.issueScan cell ts
    | some x =>
      if !x.canIssue s.clk then s.issueScan cell ts
      else if (s.fetchAt cell x).isNone then (s.startFetch cell t x).issueScan cell ts
      else if s.fetchHeld cell x then s.issueScan cell ts
      else if s.sfnHolds cell x then (s.updThread cell t fun x => { x with state := .blocked, wait := .sfn }).issueScan cell ts
      else s.issueThread cell t

/-- BARREL_ISSUE (R287). A retired cell issues nothing (01_machine R12), nor any before the plates are released (16_host R463). -/
def execBarrelIssue (cell : Nat) (s : State) : Result :=
  if s.retired cell || !s.mgmt.released then .next s
  else .next (s.issueScan cell ((List.range 64).map fun k => ((s.barrel cell).last + 1 + k) % 64))

/-- What an issuing thread runs: its instruction's fields latched, its fault taken, or its end by a machine check (R343). -/
def State.issueWord (s : State) (cell t : Nat) : Except State (Instr × State) :=
  match s.thread? cell t with
  | none => .error s
  | some x =>
    let here (w : BarrelWord) : State :=
      { s.updThread cell t (fun x => { x with fetched := none }) with curB := { cell, thread := t, word := w } }
    match s.nextInstr cell x with
    | .error (0, _) => .error (s.startFetch cell t x)
    | .error (380, v) => .error (s.killThread cell t 380 x.pc v true)
    | .error (c, v) => .error (s.trapThread cell t c v x.pc s.clk (s.clk + 1))
    | .ok (i, w) => match (s.barrel cell).poisonRead i w with
      | some n => .error (s.killThread cell t 380 x.pc (word (0x8000 + n)) true)
      | none => .ok (i, here w)

/-! ## Integer instructions (R305, R306) -/

/-- func[0], the `.w` form. -/
def State.narrow (s : State) : Bool := fbit s.curB.word.imm 0

/-- An operation at both widths. -/
abbrev IntOp := (n : Nat) → BitVec n → BitVec n → BitVec n

/-- The result of a form with `.w`: a 32-bit result is sign-extended, or zero-extended. -/
def intResult (w zext : Bool) (op : IntOp) (a b : Word) : Word :=
  if w then
    let r := op 32 (a.setWidth 32) (b.setWidth 32)
    if zext then r.setWidth 64 else r.signExtend 64
  else op 64 a b

def State.intW (s : State) (zext : Bool) (op : IntOp) : Result :=
  .next (s.simple (s.dst (intResult s.narrow zext op s.xa s.xb)))
def State.int2 (s : State) (op : Word → Word → Word) : Result := .next (s.simple (s.dst (op s.xa s.xb)))
def State.intI (s : State) (op : Word → Word → Word) : Result := .next (s.simple (s.dst (op s.xa s.imm)))

def execBarrelAdd (s : State) : Result := s.intW false fun _ a b => a + b
def execBarrelAddi (s : State) : Result := s.intI (· + ·)
def execBarrelSub (s : State) : Result := s.intW false fun _ a b => a - b
def execBarrelMul (s : State) : Result := s.intW false fun _ a b => a * b
def execBarrelMulh (s : State) : Result := s.intW false fun n a b => BitVec.ofInt n (a.toInt * b.toInt / 2 ^ n)
def execBarrelMulhn (s : State) : Result := s.intW true fun n a b => BitVec.ofNat n (a.toNat * b.toNat / 2 ^ n)

/-- A division: a zero divisor traps with TVAL x[a] (R306). -/
def State.barrelDivide (s : State) (zext : Bool) (op : IntOp) : Result :=
  let zero := if s.narrow then s.xb.setWidth 32 == (0 : BitVec 32) else s.xb == 0
  if zero then s.bTrap 20 s.xa
  else .next (s.finishAt (if s.narrow then 15 else 23) (s.dst (intResult s.narrow zext op s.xa s.xb)))

def execBarrelDiv (s : State) : Result := s.barrelDivide false fun _ a b => a.sdiv b
def execBarrelDivn (s : State) : Result := s.barrelDivide true fun _ a b => a / b
def execBarrelRem (s : State) : Result := s.barrelDivide false fun _ a b => a.srem b
def execBarrelRemn (s : State) : Result := s.barrelDivide true fun _ a b => a % b

def execBarrelAnd (s : State) : Result := s.int2 (· &&& ·)
def execAndi (s : State) : Result := s.intI (· &&& ·)
def execBarrelOr (s : State) : Result := s.int2 (· ||| ·)
def execOri (s : State) : Result := s.intI (· ||| ·)
def execBarrelXor (s : State) : Result := s.int2 (· ^^^ ·)
def execXori (s : State) : Result := s.intI (· ^^^ ·)
def execBarrelShl (s : State) : Result := s.intW false fun n a b => a <<< (b.toNat % n)
def execShli (s : State) : Result := s.intI fun a b => a <<< (b.toNat % 64)
def execBarrelShr (s : State) : Result := s.intW true fun n a b => a >>> (b.toNat % n)
def execShri (s : State) : Result := s.intI fun a b => a >>> (b.toNat % 64)
def execBarrelSar (s : State) : Result := s.intW false fun n a b => a.sshiftRight (b.toNat % n)
def execSari (s : State) : Result := s.intI fun a b => a.sshiftRight (b.toNat % 64)
def execSlt (s : State) : Result := s.int2 fun a b => wordBool (a.slt b)
def execSltn (s : State) : Result := s.int2 fun a b => wordBool (a.ult b)
def execSlti (s : State) : Result := s.intI fun a b => wordBool (a.slt b)
def execBarrelLih (s : State) : Result := .next (s.simple (s.dst (s.curB.word.imm ++ s.xd.setWidth 32)))
def execBarrelClz (s : State) : Result := s.intW false fun n a _ => BitVec.ofNat n (if a == 0 then n else n - 1 - Nat.log2 a.toNat)
def execBarrelPopc (s : State) : Result := s.intW false fun n a _ => BitVec.ofNat n (onesIn n a.toNat)

/-- The width of SEXT and ZEXT: func[1:0]. -/
def State.extWidth (s : State) : Nat := 8 * 2 ^ fld s.curB.word.imm 0 2
def execSext (s : State) : Result := .next (s.simple (s.dst (sextNat s.extWidth s.xa.toNat)))
def execZext (s : State) : Result := .next (s.simple (s.dst (word (s.xa.toNat % 2 ^ s.extWidth))))

/-! ## Floating-point instructions (R303, R307, R308) -/

/-- The type that fmt names: f64 or f32. -/
def State.fType (s : State) : Nat := if fld s.curB.word.imm 4 2 == 0 then 11 else 10
/-- The rounding mode; dyn reads FSTAT.rnd. -/
def State.fRnd (s : State) : Nat := if fld s.curB.word.imm 0 3 == 6 then s.th.rnd else fld s.curB.word.imm 0 3
def State.fSat (s : State) : Bool := fbit s.curB.word.imm 3
def State.fOpt (s : State) : Bool := fbit s.curB.word.imm 6
/-- The low bits of a register at the type's width. -/
def State.fBits (s : State) (w : Word) : Nat := w.toNat % 2 ^ typeBits s.fType
def State.fa (s : State) : Val := fpToVal s.fType (s.fBits s.xa)
def State.fb (s : State) : Val := fpToVal s.fType (s.fBits s.xb)
def State.fd (s : State) : Val := fpToVal s.fType (s.fBits s.xd)

/-- A floating-point result: its flags are raised in the write tick; an enabled one traps and d is not written (R307). -/
def State.fput (s : State) (offset opcode bits : Nat) (flags : Flags) : Result :=
  if s.th.en &&& flags != 0 then
    .next ((s.landAt s.curB.cell s.curB.thread (s.clk + offset) s.clk [.flags flags]).bTrapAt offset 21 (word (flags.toNat + opcode * 256)))
  else .next (s.finishAt offset (s.dst (word bits) ++ if flags == 0 then [] else [.flags flags]))

/-- A rounded result (02_numbers R42). -/
def State.frounded (s : State) (offset opcode : Nat) (v : Val × Flags) : Result :=
  let r := roundToFp v.1 s.fType s.fRnd s.fSat 0
  s.fput offset opcode r.1 (r.2 ||| v.2)

/-- Write offset of the divide class (R287). -/
def State.fDivOffset (s : State) : Nat := if s.fType == 10 then 15 else 27

def execFadd (s : State) : Result := s.frounded 7 0x20 (addVal s.fa s.fb s.fRnd, 0)
def execFsub (s : State) : Result := s.frounded 7 0x21 (subVal s.fa s.fb s.fRnd, 0)
def execFmul (s : State) : Result := s.frounded 7 0x22 (mulVal s.fa s.fb, 0)
def execFdiv (s : State) : Result := s.frounded s.fDivOffset 0x23 (divVal s.fa s.fb)
def execFsqrt (s : State) : Result := s.frounded s.fDivOffset 0x24 (sqrtVal s.fa, 0)
def execFma (s : State) : Result := s.frounded 7 0x25 (fmaVal s.fa s.fb s.fd s.fRnd, 0)
def execFms (s : State) : Result := s.frounded 7 0x26 (fmaVal s.fa s.fb s.fd.negate s.fRnd, 0)
def execFnma (s : State) : Result := s.frounded 7 0x27 (fmaVal s.fa.negate s.fb s.fd s.fRnd, 0)

/-- A result given as a pattern with its flags. -/
def State.fbits2 (s : State) (opcode : Nat) (r : Nat × Flags) : Result := s.fput 7 opcode r.1 r.2

def execFmin (s : State) : Result := s.fbits2 0x28 (minMaxBits s.fType false s.fOpt (s.fBits s.xa) (s.fBits s.xb))
def execFmax (s : State) : Result := s.fbits2 0x29 (minMaxBits s.fType true s.fOpt (s.fBits s.xa) (s.fBits s.xb))
def execFcmp (s : State) : Result :=
  let r := fpCompare (fld s.curB.word.imm 8 3) s.fType (s.fBits s.xa) (s.fBits s.xb)
  s.fbits2 0x2A (r.1.toNat, r.2)
def execFcls (s : State) : Result := s.fbits2 0x2B (classMask s.fType (s.fBits s.xa), 0)

/-- FCVT (R308): rsr draws one Philox block at issue, whose word 0 it uses. -/
def execFcvt (s : State) : Result :=
  let ts := fld s.curB.word.imm 8 5
  let tt := fld s.curB.word.imm 16 5
  let draw := s.fRnd == 5
  let w := if draw then (philox s.th.src.toNat s.th.srk.toNat).headD 0 else 0
  let r := convert ts tt (s.xa.toNat % 2 ^ typeBits ts) s.fRnd s.fSat w
  let v := if tt < 4 then (sextNat (typeBits tt) r.1).toNat else r.1
  (if draw then s.updTh fun t => { t with src := t.src + 1 } else s).fput 7 0x2C v r.2

/-- FSGN: magnitude of a with the sign of b, its inverse, or the exclusive or of both signs. -/
def signOp (k t a b : Nat) : Nat :=
  let m := 2 ^ (typeBits t - 1)
  let sa := a / m % 2
  let sb := b / m % 2
  a % m + m * (match k with
    | 0 => sb
    | 1 => 1 - sb
    | _ => (sa + sb) % 2)

def execFsgn (s : State) : Result := s.fbits2 0x2D (signOp (fld s.curB.word.imm 8 2) s.fType (s.fBits s.xa) (s.fBits s.xb), 0)

/-- Rounding to an integral value in its own format: nx only in the exact form; zeros and infinities are unchanged (R307). -/
def integral (t bits rnd : Nat) (exact : Bool) : Nat × Flags :=
  match fpToVal t bits with
  | .nan sig => (canonNan t, if sig then fNv else 0)
  | .fin q =>
    let n := roundInt q rnd 0
    let nx : Flags := if exact && !(q.eq (Q.ofInt n)) then fNx else 0
    if n == 0 then (signBit t (decide (q.num < 0)), nx) else ((roundToFp (.fin (Q.ofInt n)) t 0 false 0).1, nx)
  | _ => (bits, 0)

def execFrnd (s : State) : Result := s.fbits2 0x2E (integral s.fType (s.fBits s.xa) s.fRnd s.fOpt)

/-- FGETF: with clr the flags are cleared in the tick in which they are read. -/
def execFgetf (s : State) : Result :=
  .next ((if s.fOpt then s.updTh fun t => { t with flags := 0 } else s).simple (s.dst s.th.fstat))
def execFsetf (s : State) : Result := .next (s.simple [.fstat s.xa])

/-! ## Control instructions (R315, R316) -/

def State.branch (s : State) (c : Word → Word → Bool) : Result := .next (s.jumpTo (if c s.xa s.xb then s.target else s.pcNext))

def execBeq (s : State) : Result := s.branch (· == ·)
def execBne (s : State) : Result := s.branch (· != ·)
def execBlt (s : State) : Result := s.branch BitVec.slt
def execBge (s : State) : Result := s.branch fun a b => !a.slt b
def execBltn (s : State) : Result := s.branch BitVec.ult
def execBgen (s : State) : Result := s.branch fun a b => !a.ult b
def execJmp (s : State) : Result := .next (s.jumpTo s.target)

/-- A register target is misaligned (R315). -/
def State.badTarget (s : State) : Option (Nat × Word) := if fld s.xa 0 3 != 0 then some (50, s.xa) else none

def execJmpr (s : State) : Result :=
  s.bGuard s.badTarget fun s =>
    (s.landAt s.curB.cell s.curB.thread (s.clk + 7) s.clk (s.dst (s.pcNext.setWidth 64))).jumpTo (s.xa.setWidth 48)

/-! ## Thread instructions without a memory access -/

/-- The scratchpad as local addresses see it (R295). -/
def localSize : Nat := 0x80000

/-- A trap whose TVAL the spec does not state: a free value (log entry 9). -/
def State.bTrapOpen (s : State) (cause : Nat) : Result :=
  let d := s.drawValue
  d.2.bTrap cause (word d.1)

/-- THID of a slot (R294). -/
def thid (cell t : Nat) : Word := word (t * 2 ^ 16 + cell)

/-- FORK (R317). -/
def execFork (s : State) : Result :=
  let t := s.th
  let cell := s.curB.cell
  if t.pair.isSome then s.bTrapOpen 14
  else if 256 ≤ (s.barrel cell).deque.length || t.live == 65535 then s.bTrap 13 (word t.live)
  else
    let e : DequeEntry := { ctx := t.ctx, entry := s.target, count := t.count, args := (s.xd, s.xa), parent := (cell, s.curB.thread, t.uid),
                            thid := thid cell s.curB.thread, tfmt := t.tfmt, tscl := t.tscl, sdom := t.sdom }
    let s1 := (s.updBarrel cell fun b => { b with deque := e :: b.deque }).updTh fun t => { t with live := t.live + 1 }
    let near (c : Nat) : Bool := c == cell || (s.holds t.ctx c && (match t.sdom with
      | 0 => false
      | 1 => clusterOf c == clusterOf cell
      | 2 => plateOf c == plateOf cell
      | _ => true))
    .next ((s1.simple []).offerTasks ((List.range 320).filter near))

/-- JOIN (R318). -/
def execJoin (s : State) : Result :=
  let t := s.th
  if t.pair.isSome then s.bTrapOpen 14
  else if t.live == 0 then .next ((s.updTh fun t => { t with killed := 0 }).simple (s.dst (word t.killed)))
  else .next (s.await .blocked (.join s.curB.word.d.toNat))

/-- YLD (R290). -/
def execYld (s : State) : Result :=
  let others := ((s.barrel s.curB.cell).threads.filter fun x =>
    x.1 != s.curB.thread && x.2.canIssue s.clk && !s.sfnHolds s.curB.cell x.2).map (·.1)
  if others.isEmpty then .next (s.simple [])
  else .next ((s.updTh fun t => { t with yields := others, until' := s.clk + 64 }).goOn s.pcNext 64)

/-- PARK (R319); a thread that has been woken acquires (04_ordering R113). -/
def execPark (s : State) : Result :=
  if s.th.wake then .next (((s.catchUp (threadAgent s.th.uid) s.nextId).updTh fun t => { t with wake := false }).simple [])
  else .next (s.await .parked .park)

/-- EMIGR (R321, R335, R352): a level above 0 or a live child keeps the thread where it is. -/
def execEmigr (s : State) : Result :=
  let t := s.th
  let cell := s.curB.cell
  let v := s.xa
  let c := fld v 0 9
  let all := v == BitVec.allOnes 64
  if t.pair.isSome then s.bTrap 14 v
  else if !all && (fld v 9 55 != 0 || clusterOf c != clusterOf cell || 320 ≤ c || !s.holds t.ctx c || s.retired c) then s.bTrap 14 v
  else if t.level != 0 || t.live != 0 then .next (s.simple (s.dst 0))
  else .next ((s.await .blocked (.migrate s.curB.word.d.toNat (if all then 8 else posOf c))).recheck cell s.curB.thread)

/-- RNGPX (R328). -/
def execRngpx (s : State) : Result :=
  let a := s.curB.word.a.toNat
  let d := s.curB.word.d.toNat
  let ws := philox ((s.rd (a + 1)).toNat * 2 ^ 64 + s.xa.toNat) s.xb.toNat
  let w (i : Nat) : Nat := ws[i]?.getD 0
  .next (s.finishAt 11 [.reg d (word (w 1 * 2 ^ 32 + w 0)), .reg (d + 1) (word (w 3 * 2 ^ 32 + w 2))])

/-! ## The special-function unit (R326, R327) -/

/-- SFN (R326): the request enters at offset 1. -/
def execSfn (s : State) : Result :=
  let cell := s.curB.cell
  let r := special (fld s.curB.word.imm 8 4) s.fType (s.fBits s.xa) s.fRnd s.fSat
  let q : SfnRequest := { thread := s.curB.thread, uid := s.th.uid, dest := s.curB.word.d.toNat, value := word r.1, flags := r.2,
                          single := s.fType == 10, entered := s.clk + 1, lands := none }
  let b := s.barrel cell
  .next (((s.updBarrel cell fun b => { b with sfn := b.sfn ++ [q] }).at' (max (s.clk + 1) (b.sfnStart.elim 0 (· + 4))) phNet (cell * 64)
    (.op (.sfnStart cell))).simple [])

/-- Start the first request that has not been started. -/
def startFirst (lands : Nat) : List SfnRequest → List SfnRequest
  | [] => []
  | q :: qs => if q.lands.isNone then { q with lands := some lands } :: qs else q :: startFirst lands qs

/-- SFN_START (R327). -/
def execSfnStart (cell : Nat) (s : State) : Result :=
  let b := s.barrel cell
  match b.sfn.find? fun q => q.lands.isNone with
  | none => .next s
  | some q =>
    if s.clk < q.entered then .next s
    else if b.sfnStart.any fun x => decide (s.clk < x + 4) then .next s
    else
      let l := max (s.clk + if q.single then 16 else 32) (b.sfnLand + 1)
      let s1 := s.updBarrel cell fun b => { b with sfn := startFirst l b.sfn, sfnStart := some s.clk, sfnLand := l }
      let s2 := s1.at' l phBarrelLand (cell * 2) (.op (.sfnResultLanding cell))
      .next (if (s2.barrel cell).sfn.any fun q => q.lands.isNone then s2.at' (s.clk + 4) phNet (cell * 64) (.op (.sfnStart cell)) else s2)

/-- Whether a thread is to take a result: it has not retired, and no kill discards what it asked for (11_barrel_traps R342). -/
def State.takesResult (s : State) (cell t uid : Nat) : Bool :=
  match s.named cell t uid with
  | some x => (match x.wait with
    | .dying .. => false
    | _ => true)
  | none => false

/-- Threads that waited for a special-function result, or for a free entry, and wait no longer. -/
def State.sfnGoOn (s : State) (cell : Nat) : State :=
  ((s.barrel cell).threads.filter fun x => x.2.wait == .sfn && !s.sfnHolds cell x.2).foldl (fun s x => s.unblock cell x.1) s

/-- SFN_RESULT_LANDING (R327): the result lands whatever its thread is doing, its flags after an FSETF of the same tick. -/
def execSfnResultLanding (cell : Nat) (s : State) : Result :=
  match (s.barrel cell).sfn with
  | [] => .next s
  | q :: qs => match q.lands with
    | none => .next s
    | some l =>
      if s.clk < l then .next s
      else
        let f : BarrelFlight := { due := s.clk, seq := q.entered - 1, thread := q.thread, uid := q.uid,
                                  writes := .reg q.dest q.value :: if q.flags == 0 then [] else [.flags q.flags] }
        let s1 := s.updBarrel cell fun b => { b with sfn := qs }
        let s2 := if !s.takesResult cell q.thread q.uid then s1
          else (s1.updBarrel cell fun b => { b with flights := b.flights ++ [f] }).at' s.clk phBarrelLand (cell * 2 + 1) (.barrelLand cell)
        let s3 := s2.sfnGoOn cell
        .next (if (s3.named cell q.thread q.uid).isSome then s3.recheck cell q.thread else s3)

/-! ## Control registers (11_barrel_traps R336, R339; 12_draft R387; 13_proof R410) -/

/-- MIGCFG and PAIRMAP of a core (11_barrel_traps R350, R354), SMPCFG (12_draft R374). -/
def BarrelCore.migcfg (b : BarrelCore) : Word := word (b.migDiff * 2 ^ 16 + b.migHi * 2 ^ 8 + b.migEn.toNat)
def BarrelCore.pairmap (b : BarrelCore) : Word := word (b.pairOn.toNat * 2 ^ 15 + b.pairCell)
def BarrelCore.smpcfg (b : BarrelCore) : Word :=
  word (b.smpRegs * 2 ^ 16 + b.smpWv.toNat * 2 ^ 14 + b.smpTag * 2 ^ 8 + b.smpEn.toNat)
/-- SUPV of a plate (R346). -/
def Plate.supv (p : Plate) : Word := word (p.supEn.toNat * 2 ^ 52 + p.supBox * 2 ^ 32 + p.supThread * 2 ^ 16 + p.supCell)

/-- TOKST: of the groups whose token stands at the cell, the first whose token a thread there holds, else the first (log entry 49). -/
def State.tokst (s : State) (cell : Nat) : Word :=
  let here := (List.range 16).filter fun g => (s.group g).en && (s.group g).cell == cell
  match (here.find? fun g => (s.group g).holder.isSome) <|> here.head? with
  | none => 0
  | some g => match (s.group g).holder with
    | some h => word (h.2.1 * 2 ^ 16 + 0x30 + g)
    | none => word (0x10 + g)

/-! The suffix index region in granules of 32 KiB (12_draft R361). -/

def State.unit (s : State) (cluster : Nat) : SuffixUnit := s.suffix.getD cluster SuffixUnit.reset
def State.regionMiB (s : State) (cluster : Nat) : Nat := s.pkg.sxreg[cluster]?.getD 0
/-- Granules of a run of a sequence with budget b. -/
def runLength (b : Nat) : Nat := 2 ^ (b - 10)
/-- A granule lies in the vault of a retired cell. -/
def State.granuleRetired (s : State) (cluster g : Nat) : Bool := s.retired (cluster * 8 + (s.suffixBase cluster + g * 2 ^ 15) / 2 ^ 23)
def State.granuleFree (s : State) (cluster g : Nat) : Bool :=
  !s.granuleRetired cluster g && !(s.unit cluster).open'.any fun q => decide (q.2.run ≤ g) && decide (g < q.2.run + runLength q.2.b)

/-- SXUNIT. -/
def State.sxunit (s : State) (cluster : Nat) : Word :=
  let n := s.regionMiB cluster
  word (((List.range (32 * n)).filter fun g => s.granuleFree cluster g).length * 2 ^ 32 + n * 2 ^ 16 + (s.unit cluster).open'.length)

/-- The value of a control register (R336). -/
def State.readBarrelCreg (s : State) (cell slot : Nat) (t : Thread) (n : Nat) : Word :=
  let b := s.barrel cell
  match n with
  | 0x000 => thid cell slot
  | 0x001 => word (t.count * 2 ^ 16 + t.base)
  | 0x002 => t.fstat
  | 0x003 => word (t.felim * 2 ^ 8 + t.sdom)
  | 0x004 => word (t.killed * 2 ^ 16 + t.live)
  | 0x005 => word t.tspb
  | 0x006 => word t.tspl
  | 0x007 => word t.spcnt
  | 0x008 => t.srk
  | 0x009 => t.src.setWidth 64
  | 0x00A => t.src.extractLsb' 64 64
  | 0x00B => t.tfmt.setWidth 64
  | 0x00C => t.tscl.setWidth 64
  | 0x00D => wordBool t.auto
  | 0x010 => word t.level
  | 0x011 => t.tvec.setWidth 64
  | 0x012 => t.tsave.setWidth 64
  | 0x013 => word (t.lev 0).cause
  | 0x014 => (t.lev 0).epc.setWidth 64
  | 0x015 => (t.lev 0).val
  | 0x016 => (t.lev 0).scr
  | 0x017 => word (t.lev 1).cause
  | 0x018 => (t.lev 1).epc.setWidth 64
  | 0x019 => (t.lev 1).val
  | 0x01A => (t.lev 1).scr
  | 0x040 => cellId s.pkg.domPos cell
  | 0x041 => s.tick
  | 0x042 => word t.ctx
  | 0x043 => s.cload.getD (clusterOf cell) 0
  | 0x044 => b.migcfg
  | 0x045 => b.pairmap
  | 0x046 => (s.plate (plateOf cell)).supv
  | 0x080 => b.smpcfg
  | 0x081 => b.smpEnt.setWidth 64
  | 0x082 => s.tokst cell
  | 0x083 => s.sxunit (clusterOf cell)
  | 0x0C0 => word (s.ctx t.ctx).prpi
  | 0x0C1 => word (s.ctx t.ctx).prpa
  | 0x0C2 => (s.ctx t.ctx).prps
  | 0x0C3 => t.prIssued ++ t.prDone
  | _ => 0

/-- GETC (R339): the register is read at offset 1. -/
def execGetc (s : State) : Result :=
  .next ((s.simple []).after 1 phLand (2048 + s.curB.cell)
    (.getc s.curB.cell s.curB.thread s.th.uid s.curB.word.d.toNat (fld s.curB.word.imm 0 10)))

/-- The read of a GETC that issued in the period before; its result is written at offset 7. -/
def State.getcReads (s : State) (cell t uid d n : Nat) : State :=
  match s.named cell t uid with
  | some x => s.landAt cell t (s.clk + 6) (s.clk - 1) [.reg d (s.readBarrelCreg cell t x n)]
  | none => s

def execSetc (s : State) : Result := .next (s.simple [.creg (fld s.curB.word.imm 0 10) s.xa])

/-! ## System instructions (R337 to R340) -/

/-- TRAP: its epc is the next instruction. -/
def execBarrelTrap (s : State) : Result :=
  .next (s.trapThread s.curB.cell s.curB.thread 9 (s.curB.word.imm.setWidth 64) s.pcNext s.clk (s.clk + 1))

def execRte (s : State) : Result :=
  let t := s.th
  if t.level == 0 then s.bTrap 10 0
  else .next ((s.updTh fun t => { t with level := t.level - 1 }).jumpTo (t.lev (t.level - 1)).epc)

/-- EXIT (R340). -/
def execExit (s : State) : Result :=
  .next (((s.await .blocked .exit).updTh fun t => { t with wake := false, inbox := [] }).tryExit s.curB.cell s.curB.thread)

end Sys2Proof.Machine
end

