-- ==== Sys2Proof/Machine/Requests.lean ====
section
/-! DEFINITION. The memory, window, message and task instructions of a barrel thread: the requests they make, how these leave the core,
and what they do at their points (04_ordering R105 to R111; 10_barrel R295 to R299, R309 to R314, R316, R319 to R325;
11_barrel_traps R355). -/

namespace Sys2Proof.Machine

open Sys2Proof

/-! ## Making a request -/

/-- A request of the current instruction. -/
def State.request (s : State) (kind : RequestKind) (va len : Nat) : Request :=
  { cell := s.curB.cell, thread := s.curB.thread, uid := s.th.uid, ctx := s.th.ctx, kind, va, pa := 0, len, sp := false, posted := false,
    release := false, ord := 0, scope := 0, issued := s.clk, promoted := false, pc := s.th.pc, stage := .ready, slot := false, turns := 1,
    felim := s.th.felim, index := 0, answer := [], fault := none, before := (s.ctx s.th.ctx).prpState }

/-- Whether a request is older than another of its core: by issue, then by number. -/
def State.older (s : State) (id : Nat) (r : Request) (q : Nat) : Bool :=
  match s.requests.get? q with
  | some x => decide (x.issued < r.issued) || (x.issued == r.issued && decide (q < id))
  | none => true

/-- A request waits for a slot and the port, behind the older ones of its core. -/
def State.enqueue (s : State) (id : Nat) : State :=
  match s.requests.get? id with
  | none => s
  | some r =>
    let s1 := (s.updReq id fun r => { r with stage := .ready }).updBarrel r.cell fun b =>
      { b with waiting := b.waiting.filter (s.older id r) ++ id :: b.waiting.filter fun q => !s.older id r q }
    (s1.at' (max s.clk (r.issued + 257)) phNet r.cell (.op (.requestPromotion r.cell))).arbiter r.cell

/-- Enter a request; the current thread waits for it. -/
def State.enter (s : State) (r : Request) : State :=
  let id := s.nextId
  { s with requests := s.requests.set id r, nextId := id + 1 }.await .blocked (.request id)

/-- The faults of a physical address (R309, R311, 01_machine R17). -/
def Request.physFault (r : Request) (pa : Nat) : Option (Nat × Word) :=
  let fe := match r.kind with
    | .lde .. | .ste .. | .ldp .. => true
    | _ => false
  if ownScratch r.cell pa || (fe && !inScratch pa) then some (49, word r.va) else none

/-- A device request of the current instruction: translated, then entered (R309, R333). -/
def State.device (s : State) (r : Request) : Result :=
  let id := s.nextId
  match s.translateNow (plateOf r.cell) r.ctx r.va r.kind.writes false with
  | some (.error c) => s.bTrap c (word r.va)
  | some (.ok pa) => s.bGuard (r.physFault pa) fun s => (s.enter { r with pa }).enqueue id
  | none => .next ((s.enter { r with stage := .translating }).startWalk (plateOf r.cell) r.ctx r.va r.kind.writes false (.request id))

/-- A request trapped or killed its thread. -/
def State.requestFaults (s : State) (id : Nat) (cause : Nat) (val : Word) : State :=
  match s.requests.get? id with
  | none => s
  | some r =>
    let s1 := s.dropRequest id
    match s1.named r.cell r.thread r.uid with
    | none => s1
    | some _ =>
      if cause == 380 then s1.killThread r.cell r.thread 380 r.pc val true
      else s1.trapThread r.cell r.thread cause val r.pc r.issued (s.clk + 1)

/-- Its translation has ended (14_fabric R432). -/
def State.requestTranslated (s : State) (id pa : Nat) : State :=
  match s.requests.get? id with
  | none => s
  | some r => match r.physFault pa with
    | some f => s.requestFaults id f.1 f.2
    | none => (s.updReq id fun r => { r with pa }).enqueue id

/-- Put a local access into its banks at offset 3 (R295, R296). -/
def State.toBanks (s : State) (id due : Nat) : State :=
  match s.requests.get? id with
  | none => s
  | some r => (s.updReq id fun r => { r with stage := .away }).at' due phNet (r.cell * 64 + r.thread) (.deliver id)

/-- A local access of the current instruction. A release waits for the thread's posted stores first. -/
def State.localAccess (s : State) (r : Request) : Result :=
  let id := s.nextId
  if localSize < r.va + r.len then s.bTrap 48 (word r.va)
  else
    let s1 := s.enter { r with sp := true, pa := scratchBase r.cell + r.va }
    .next (if r.release && !(s.outstanding r.uid).isEmpty then s1.enqueue id else s1.toBanks id (s.clk + 3))

/-- An access: misaligned, then by its space (R309, R333). -/
def State.memAccess (s : State) (sp : Bool) (align : Nat) (r : Request) : Result :=
  if r.va % align != 0 then s.bTrap 50 (word r.va) else if sp then s.localAccess r else s.device r

/-! ## Instructions (R310 to R312) -/

/-- The address of the mem form. -/
def State.memAddress (s : State) : Nat := (s.xa + s.imm).toNat
/-- The option byte. -/
def State.opt (s : State) (lo len : Nat) : Nat := fld s.curB.word.b lo len
def State.d (s : State) : Nat := s.curB.word.d.toNat

def execLd (s : State) : Result :=
  let n := 2 ^ s.opt 0 2
  s.memAccess (s.opt 3 1 == 1) n { s.request (.load s.d n (s.opt 2 1 == 1)) s.memAddress n with ord := s.opt 4 1, scope := s.opt 5 3 }

/-- ST: without ord it is posted, unless it is local. -/
def execSt (s : State) : Result :=
  let n := 2 ^ s.opt 0 2
  let ord := s.opt 4 1
  s.memAccess (s.opt 3 1 == 1) n { s.request (.store n s.xd) s.memAddress n with
    posted := ord == 0 && s.opt 3 1 == 0, release := ord == 1, ord, scope := s.opt 5 3 }

/-- Ordering and scope of LDE and STE (R311): at cluster scope, relaxed when forced. -/
def State.clusterOrd (s : State) : Nat × Nat := if s.opt 0 1 == 0 then (1, 3) else (0, 0)
def execLde (s : State) : Result :=
  let o := s.clusterOrd
  s.memAccess (s.opt 3 1 == 1) 8 { s.request (.lde s.d (s.opt 0 1 == 1)) s.memAddress 8 with ord := o.1, scope := o.2 }
/-- STE: unforced it is a release at cluster scope. -/
def execSte (s : State) : Result :=
  let o := s.clusterOrd
  s.memAccess (s.opt 3 1 == 1) 8 { s.request (.ste s.xd (s.opt 0 1 == 1)) s.memAddress 8 with
    release := s.opt 0 1 == 0, ord := o.1, scope := o.2 }
def execLdp (s : State) : Result := s.memAccess (s.opt 3 1 == 1) 8 (s.request (.ldp s.d) s.memAddress 8)

/-- func of AMO and CAS. -/
def State.atomic (s : State) (kind : Nat → Bool → RequestKind) : Result :=
  let w := s.curB.word.imm
  let n := if fld w 4 2 == 2 then 4 else 8
  s.memAccess (fbit w 6) n { s.request (kind n (fbit w 12)) s.xa.toNat n with
    release := fbit w 8, ord := fld w 7 2, scope := fld w 9 3 }

def execAmo (s : State) : Result := s.atomic fun n sx => .amo s.d (fld s.curB.word.imm 0 4) n sx s.xb
def execCas (s : State) : Result := s.atomic fun n sx => .cas s.d n sx s.xd s.xb

/-- FENCE (R313): the thread is ready only when the fence's ordering condition holds. An acquire fence waits for nothing: the thread's
earlier reads are past. -/
def execBarrelFence (s : State) : Result :=
  let kind := fld s.curB.word.imm 0 2
  let scope := fld s.curB.word.imm 2 3
  if kind == 2 || (s.outstanding s.th.uid).isEmpty then .next ((s.fences s.curB.cell s.curB.thread kind scope).simple [])
  else .next (s.await .blocked (.fence kind scope))

/-! ## Window accesses (R314) -/

def execWld (s : State) : Result := s.memAccess false 8 (s.request (.wld s.d (s.opt 0 4)) s.memAddress 8)
def execWst (s : State) : Result :=
  s.memAccess false 8 { s.request (.wst (s.opt 0 4) s.xd) s.memAddress 8 with release := true, scope := 5 }
def execWpost (s : State) : Result :=
  s.memAccess false 1 { s.request (.wpost (s.opt 0 4) (s.opt 4 2) s.xd) s.memAddress 1 with release := true, scope := 5 }

/-! ## The return-address store (R316) -/

/-- Address of an entry of the spill area. -/
def Thread.spillAt (t : Thread) (n : Nat) : Nat := t.tspb + 8 * n

/-- CALL and CALLR to an address: the oldest entry of a full store spills. -/
def State.callTo (s : State) (target : BitVec 48) : Result :=
  let t := s.th
  let ret := s.pcNext
  if t.returns.length < 16 then .next ((s.updTh fun t => { t with returns := ret :: t.returns }).jumpTo target)
  else if t.spcnt == t.tspl then s.bTrap 5 (word t.tspl)
  else if localSize < t.spillAt t.spcnt + 8 then s.bTrap 48 (word (t.spillAt t.spcnt))
  else
    let r := { s.request (.spill (t.returns.getLastD 0)) (t.spillAt t.spcnt) 8 with sp := true, pa := scratchBase s.curB.cell + t.spillAt t.spcnt }
    let s1 := (s.enter r).toBanks s.nextId (s.clk + 3)
    .next (s1.updTh fun t => { t with pc := target, returns := ret :: t.returns.dropLast, spcnt := t.spcnt + 1 })

def execBarrelCall (s : State) : Result := s.callTo s.target
def execCallr (s : State) : Result :=
  match s.badTarget with
  | some f => s.bTrap f.1 f.2
  | none => s.callTo (s.xa.setWidth 48)

def execBarrelRet (s : State) : Result :=
  let t := s.th
  match t.returns with
  | a :: rest => .next ((s.updTh fun t => { t with returns := rest }).jumpTo a)
  | [] =>
    if t.spcnt == 0 then s.bTrap 6 0
    else s.localAccess (s.request .refill (t.spillAt (t.spcnt - 1)) 8)

/-! ## Wakes, tasks and messages (R319 to R325) -/

/-- A thread id with no bit but cell and thread (R319). -/
def plainId (w : Word) : Bool := fld w 9 7 == 0 && fld w 22 42 == 0

/-- A message request of the current instruction: a release, sent when every earlier access has performed. -/
def State.message (s : State) (kind : RequestKind) (va scope : Nat) : State :=
  (s.enter { s.request kind va 8 with release := true, scope }).enqueue s.nextId

def execWake (s : State) : Result :=
  let w := s.xa
  if !plainId w || !s.mayName s.th.ctx (fld w 0 9) then s.bTrap 49 w
  else .next (s.message (.wake s.d (fld w 0 9) (fld w 16 6)) w.toNat 5)

/-- The target of TQPUT: its cell, and all ones for the thread's own. -/
def State.queueTarget (s : State) : Nat := if s.xb == BitVec.allOnes 64 then s.curB.cell else fld s.xb 0 9

/-- The context that a packet runs in (01_machine R470). -/
def State.taskContext (s : State) (ctx cell : Nat) : Option Nat :=
  if ctx != 0 || s.holds 0 cell then some ctx
  else (s.pkg.ctxs.find? fun c => c.2.live && c.2.quads.getLsbD (quadOf cell)).map (·.1)

def execTqput (s : State) : Result :=
  let sp := fbit s.curB.word.imm 3
  let a := s.xa.toNat
  if a % 64 != 0 then s.bTrap 50 s.xa
  else if sp && localSize < a + 64 then s.bTrap 48 s.xa
  else if !s.mayName s.th.ctx s.queueTarget then s.bTrap 49 s.xb
  else
    let r := { s.request (.packet s.d s.queueTarget s.xb) a 64 with scope := 5, turns := 8, answer := List.replicate 8 0 }
    if sp then s.localAccess r else s.device r

/-- TQGET: an empty queue writes nothing (R320). -/
def execTqget (s : State) : Result :=
  let sp := fbit s.curB.word.imm 3
  if s.xa.toNat % 64 != 0 then s.bTrap 50 s.xa
  else if sp && localSize < s.xa.toNat + 64 then s.bTrap 48 s.xa
  else match (s.barrel s.curB.cell).tasks with
    | [] => .next (s.simple (s.dst 0))
    | p :: ps =>
      if sp then
        let r := { s.request (.taskGet s.d p.ctx p.words) s.xa.toNat 64 with turns := 8 }
        ((s.updBarrel s.curB.cell fun b => { b with tasks := ps }).dispatchFrom s.curB.cell).localAccess r
      else s.device { s.request (.taskGet s.d 0 []) s.xa.toNat 64 with turns := 8 }

/-- Number of words of a message: func[3:0]. -/
def State.words (s : State) : Nat := fld s.curB.word.imm 0 4

def execSend (s : State) : Result :=
  let w := s.xa
  let ws := s.rdRun s.curB.word.b.toNat s.words
  let scope := fld s.curB.word.imm 4 3
  if fld w 9 7 != 0 || fld w 22 10 != 0 || fld w 39 25 != 0 || (!fbit w 38 && fld w 32 6 != 0) then s.bTrap 49 w
  else if fbit w 38 then .next (s.message (.remoteSend s.d (fld w 32 6) w ws) w.toNat scope)
  else if !s.mayName s.th.ctx (fld w 0 9) then s.bTrap 49 w
  else .next (s.message (.send s.d (fld w 0 9) (fld w 16 6) ws [] 0 false) w.toNat scope)

/-- A message of a thread: a release at its scope (R323). -/
def Request.message (r : Request) (ws : List Word) : BarrelMessage :=
  { sender := thid r.cell r.thread, words := ws, release := some (.thread r.cell r.thread, r.scope) }

/-- RECV takes a message: an acquire at its scope, unless the scopes of the two leave each other out (04_ordering R106). -/
def State.acquireMessage (s : State) (cell t : Nat) (m : BarrelMessage) (scope : Nat) : State :=
  match s.thread? cell t, m.release with
  | some x, some a => if scopesMeet a.1 a.2 (.thread cell t) scope then s.catchUp (threadAgent x.uid) s.nextId else s
  | _, _ => s

/-- What RECV writes for a message (R324). -/
def BarrelMessage.received (m : BarrelMessage) (d a n : Nat) : List BarrelWrite :=
  let lost : Nat := if n < m.words.length then 1 else 0
  (List.range n).map (fun i => .reg (d + i) (m.words[i]?.getD 0)) ++
    [.reg a (m.sender ||| word (m.words.length * 2 ^ 40 + lost * 2 ^ 44))]

/-- A place in a receive queue is free: the oldest SEND that waits takes it (R323). -/
def State.admitSender (s : State) (cell t : Nat) : State :=
  match s.thread? cell t with
  | none => s
  | some x => match x.senders with
    | [] => s
    | id :: rest =>
      let s1 := s.updThread cell t fun x => { x with senders := rest }
      match s.requests.get? id with
      | some r => match r.kind with
        | .send _ _ _ ws .. =>
          (s1.updThread cell t fun x => { x with inbox := x.inbox ++ [r.message ws] }).reply id (routerOf cell) [1] none
        | _ => s1
      | none => s1

def execRecv (s : State) : Result :=
  let d := s.d
  let a := s.curB.word.a.toNat
  let scope := fld s.curB.word.imm 4 3
  match s.th.inbox with
  | [] => .next (s.await .blocked (.recv d a s.words scope))
  | m :: rest => .next ((((s.updTh fun t => { t with inbox := rest }).acquireMessage s.curB.cell s.curB.thread m scope).admitSender
      s.curB.cell s.curB.thread).simple (m.received d a s.words))

/-- MCAST (R325): the record's six words are read first. -/
def execMcast (s : State) : Result :=
  let ws := s.rdRun s.curB.word.b.toNat s.words
  s.memAccess true 8 { s.request (.record s.d 0 ws) s.xa.toNat 48 with
    scope := fld s.curB.word.imm 4 3, turns := 6, answer := List.replicate 8 0 }

/-! ## Leaving the core (R297, 04_ordering R105, R106) -/

/-- Earlier requests of the thread that have not performed. -/
def State.before (s : State) (id : Nat) (r : Request) : List (Nat × Request) := (s.outstanding r.uid).filter fun q => decide (q.1 < id)

/-- Whether a request may leave now: behind its thread's accesses to its bytes, or, as a release, behind all of them (R106). -/
def State.canLeave (s : State) (id : Nat) (r : Request) : Bool :=
  let es := s.before id r
  (if r.release then es.isEmpty else !es.any fun q => meets q.2.pa q.2.len r.pa r.len) &&
    (r.sp || r.slot || decide ((s.barrel r.cell).slots < 64))

/-- The first request that can leave, unless a promoted one stands before it. -/
def State.nextLeaver (s : State) : List Nat → Option (Nat × Request)
  | [] => none
  | id :: ids => match s.requests.get? id with
    | none => s.nextLeaver ids
    | some r => if s.canLeave id r then some (id, r) else if r.promoted then none else s.nextLeaver ids

/-- The router of a request's target (14_fabric R420, R471). -/
def Request.router (r : Request) : Nat :=
  match r.kind with
  | .wake _ c _ | .send _ c .. | .taskPut _ c _ => routerOf c
  | .suffix .. => routerOf (r.pa * 8)
  | .proof .. | .remoteSend .. => portDie
  | _ => pointRouter r.pa

/-- Packet class (R421). -/
def RequestKind.cls (k : RequestKind) : Nat :=
  match k with
  | .store .. | .wst .. | .wpost .. | .wake .. => 2
  | .send .. | .remoteSend .. | .taskPut .. => 3
  | _ => 0

/-- Send a request to its target. -/
def State.launch (s : State) (id : Nat) (r : Request) (from' : Nat) : State :=
  (s.updReq id fun r => { r with stage := .away }).send from' r.router r.kind.cls phNet (r.cell * 64 + r.thread) (.deliver id)

/-- The head of the own task queue goes with TQGET; none when it has become empty. -/
def State.takeHead (s : State) (id : Nat) (r : Request) : Option State :=
  match r.kind with
  | .taskGet d _ [] => match (s.barrel r.cell).tasks with
    | [] => none
    | p :: ps => some (((s.updBarrel r.cell fun b => { b with tasks := ps }).updReq id fun r =>
        { r with kind := .taskGet d p.ctx p.words }).dispatchFrom r.cell)
  | _ => some s

/-- A request leaves: for its banks, its comparison (11_barrel_traps R355), or its target. A posted store lets its thread go on. -/
def State.leave (s : State) (id : Nat) (r : Request) : State :=
  let s1 := s.updBarrel r.cell fun b => { b with waiting := b.waiting.erase id }
  if r.sp then s1.toBanks id (s.clk + 1)
  else
    let s2 := (s1.updBarrel r.cell fun b => { b with portAt := s.clk, slots := if r.slot then b.slots else b.slots + 1 }).updReq id fun r =>
      { r with slot := true }
    let s3 := if r.posted then s2.unblock r.cell r.thread else s2
    match (s.named r.cell r.thread r.uid).bind (·.pair) with
    | none => s3.launch id r (routerOf r.cell)
    | some p =>
      let s4 := (s3.updThread r.cell r.thread fun t => { t with pair := some { p with sent := p.sent + 1 } }).updReq id fun r =>
        { r with stage := .comparing none, index := 2 * p.sent + (if p.primary then 2 else 3) }
      s4.send (routerOf r.cell) (routerOf (if p.primary then r.cell else p.cell)) r.kind.cls phNet (r.cell * 64 + r.thread) (.deliver id)

/-- One grant of the arbiter. -/
def State.grant (s : State) (cell : Nat) : State :=
  match s.nextLeaver (s.barrel cell).waiting with
  | none => s
  | some (id, r) =>
    let s1 := match s.takeHead id r with
      | some s1 => s1.leave id ((s1.requests.get? id).getD r)
      | none => (s.dropRequest id).completes r.cell r.thread (match r.kind with
          | .taskGet d .. => [.reg d 0]
          | _ => [])
    if (s1.barrel cell).waiting.isEmpty then s1 else s1.at' (s.clk + 1) phNet (cell * 64) (.grant cell)

/-- REQUEST_PROMOTION (R297). -/
def execRequestPromotion (cell : Nat) (s : State) : Result :=
  .next (((s.barrel cell).waiting.foldl (fun s id => s.updReq id fun r =>
    { r with promoted := r.promoted || decide (r.issued + 256 < s.clk) }) s).arbiter cell)

/-! ## At the point (04_ordering R94, R109) -/

/-- A value extended from its size. -/
def extendTo (size : Nat) (sx : Bool) (v : Nat) : Word := if sx then sextNat (8 * size) v else word v

/-- AMO's new value (R312). -/
def amoValue (op size old x : Nat) : Nat :=
  let t := if size == 4 then 2 else 3
  let lt : Bool := decide (intOf t old < intOf t x)
  match op with
  | 0 => x
  | 1 => (old + x) % 2 ^ (8 * size)
  | 2 => old &&& x
  | 3 => old ||| x
  | 4 => old ^^^ x
  | 5 => if lt then old else x
  | 6 => if lt then x else old
  | 7 => min old x
  | _ => max old x

/-- The agent that a request belongs to (R93), and its number. -/
def Request.agent (r : Request) : Agent := .thread r.cell r.thread
def Request.who (r : Request) : Nat := threadAgent r.uid

/-- The scope at which a request is an acquire. -/
def Request.acquires (r : Request) : Option Nat :=
  match r.kind with
  | .load .. | .lde .. => if r.ord == 1 then some r.scope else none
  | .amo .. | .cas .. => if r.ord % 2 == 1 then some r.scope else none
  | _ => none

/-- Change what a request's thread keeps for its fences. -/
def State.updView (s : State) (r : Request) (f : OrderView → OrderView) : State :=
  if (s.named r.cell r.thread r.uid).isSome then s.updThread r.cell r.thread fun x => { x with view := f x.view } else s

/-- A request has read what held all writes below a number, from some releases (R106, R108): as an acquire, later reads perform after it,
unless the scopes of each release and its own leave each other out, when it is as a relaxed read; a fence may order it still. -/
def State.hasRead (s : State) (r : Request) (upTo : Nat) (ms : List ReleaseMark) : State :=
  let met (k : Nat) : Bool := ms.isEmpty || ms.any fun m => scopesMeet m.agent m.scope r.agent k
  let s1 := if r.acquires.any met then s.catchUp r.who upTo else s
  s1.updView r fun v => if ms.isEmpty then { v with read := max v.read upTo }
    else { v with marks := v.marks ++ ms.map fun m => { agent := m.agent, scope := m.scope, upTo } }

/-- A request has read the latest bytes of a range. -/
def State.readLatest (s : State) (r : Request) (pa len : Nat) : State := (s.sees r.who pa len).hasRead r s.nextId (s.marksAt pa len)

/-- A plain read of a request: an older value is a free value (log entry 48). Its own core's scratchpad it reads as its bank holds it. -/
def State.plainRead (s : State) (r : Request) (v : Nat) : Nat × State :=
  if r.sp then (v, s.readLatest r r.pa r.len)
  else
    let x := s.takes r.who r.pa r.len v
    (x.value, x.state.hasRead r x.upTo (if x.latest then s.marksAt r.pa r.len else []))

/-- The scope at which a request's write is a release: its own, or that of an earlier release fence (R108). -/
def State.releaseScope (s : State) (r : Request) : Option Nat :=
  let fenced := (s.named r.cell r.thread r.uid).bind fun x => x.view.fenced
  if r.release then some (max r.scope (fenced.getD 0)) else fenced

/-- A request writes at its point. -/
def State.requestWrites (s : State) (id : Nat) (r : Request) (x : Nat) (atomic : Bool) : State :=
  ((s.writePhys r.pa r.len x r.who id false).logged s.mem r.agent r.who r.pa r.len atomic (s.releaseScope r)).updView r fun v =>
    { v with wrote := s.nextId + 1 }

/-- A plain, atomic or window access at its point, where its bytes hold `v`: the state and what it returns. A store to a retired cell's
scratchpad is discarded (R310). -/
def State.atPointWith (s : State) (id : Nat) (r : Request) (v : Nat) : State × List Word :=
  let put (x : Nat) : State := (s.writePhys r.pa r.len x r.who id false).sees r.who r.pa r.len
  let swap (s : State) (x : Nat) : State := s.requestWrites id r x true
  match r.kind with
  | .load _ n sx =>
    let x := s.plainRead r v
    (x.2, [extendTo n sx x.1])
  | .store _ x =>
    (if inScratch r.pa && s.retired (scratchCell r.pa) then s else s.requestWrites id r (x.toNat % 2 ^ (8 * r.len)) false, [])
  | .ldp _ =>
    let x := s.plainRead r v
    (x.2, [word x.1, wordBool (s.full.contains r.pa)])
  | .amo _ op n sx x => (swap (s.readLatest r r.pa r.len) (amoValue op n v (x.toNat % 2 ^ (8 * n))), [extendTo n sx v])
  | .cas _ n sx e x =>
    (if v == e.toNat % 2 ^ (8 * n) then swap (s.readLatest r r.pa r.len) (x.toNat % 2 ^ (8 * n)) else s.readLatest r r.pa r.len, [extendTo n sx v])
  | .wld .. => (s, [word v])
  | .wst _ x => (put x.toNat, [])
  | .packet .. => (s.readLatest r r.pa r.len, (List.range 8).map fun i => word (s.mem.num (r.pa + 8 * i) 8))
  | .taskGet _ _ ws => (put (ofWords ws), [1])
  | .spill x => (put x.toNat, [])
  | .refill => (s, [word v])
  | .unit u none => s.unitReads u r.pa r.len
  | .unit u (some (x, agent, order)) => (s.unitPerform u r.pa r.len x agent order, [])
  | _ => (s, [])

/-- An access at its point. -/
def State.atPoint (s : State) (id : Nat) (r : Request) : State × List Word := s.atPointWith id r (s.mem.num r.pa r.len)

/-- The atomic step of LDE or STE (R311); none when it must wait. -/
def State.fullEmpty (s : State) (id : Nat) (r : Request) : Option (State × List Word) :=
  let isFull := s.full.contains r.pa
  match r.kind with
  | .lde _ force => if force || isFull then some ({ s.readLatest r r.pa 8 with full := s.full.erase r.pa }, [word (s.mem.num r.pa 8)]) else none
  | .ste x force => if force || !isFull then some ({ s.requestWrites id r x.toNat false with full := insertNat r.pa s.full }, []) else none
  | _ => some (s.atPoint id r)

/-- Poison of the memory that a request reads (11_barrel_traps R343): lines of the slices, words of the scratchpads. -/
def State.poisonAt (s : State) (r : Request) : Bool :=
  (match r.kind with
    | .store .. | .wst .. | .taskGet .. | .spill .. | .ste .. | .unit _ (some _) => false
    | _ => true) && s.pkg.poison.contains (if inScratch r.pa then r.pa / 8 * 8 else lineOf r.pa)

/-- The registers that a request's answer writes. -/
def Request.results (r : Request) (ans : List Word) : List BarrelWrite :=
  let a (i : Nat) : Word := ans[i]?.getD 0
  match r.kind with
  | .load d .. | .lde d _ | .amo d .. | .cas d .. | .wld d _ | .wake d .. | .send d .. | .remoteSend d .. | .taskPut d .. | .taskGet d ..
  | .proof _ d .. | .sample d .. => [.reg d (a 0)]
  | .ldp d => [.reg d (a 0), .reg (d + 1) (a 1)]
  | .suffix op d .. => if op == 0x72 then [.reg d (a 0), .reg (d + 1) (a 1)] else [.reg d (a 0)]
  | _ => []

/-! ## After an answer -/

/-- A packet breaks R301. -/
def badPacket (ws : List Word) : Bool :=
  let w := ws[0]?.getD 0
  fld w 57 7 != 0 || fld w 48 8 < 8 || 128 < fld w 48 8 || fld w 0 3 != 0

/-- The record of MCAST breaks R325. -/
def badGroupRecord (ws : List Word) : Bool := fld (ws[5]?.getD 0) 8 56 != 0 || 63 < fld (ws[5]?.getD 0) 0 8
def recordCells (ws : List Word) : List Nat := (List.range 320).filter fun n => (ws[n / 64]?.getD 0).getLsbD (n % 64)

/-- A request goes on as another, a release: it has given its slot back and waits to leave again. -/
def State.again (s : State) (id : Nat) (r : Request) (k : RequestKind) : State :=
  let s1 := s.updBarrel r.cell fun b => { b with slots := if r.slot then b.slots - 1 else b.slots }
  (s1.updReq id fun _ => { r with kind := k, release := true, sp := false, slot := false, len := 8, answer := [] }).enqueue id

/-- What follows the reading of a packet or a record, or one copy of an MCAST; none when the request is complete. A packet whose target
core has no context (01_machine R470) traps before its words are judged: R333 does not order these two faults of one cause. -/
def State.goesOn (s : State) (id : Nat) (r : Request) (ans : List Word) : Option State :=
  match r.kind with
  | .packet d cell target =>
    let unpaired := fbit (ans[0]?.getD 0) 56 && !(s.barrel cell).pairOn
    some (if (s.taskContext r.ctx cell).isNone then s.requestFaults id 14 target
      else if badPacket ans || unpaired then s.requestFaults id 14 (word r.va) else s.again id r (.taskPut d cell ans))
  | .record d _ ws =>
    let cells := recordCells ans
    let t := fld (ans[5]?.getD 0) 0 8
    match cells.find? fun c => !s.mayName r.ctx c with
    | some c => some (s.requestFaults id 49 (word (t * 2 ^ 16 + c)))
    | none =>
      if badGroupRecord ans then some (s.requestFaults id 14 (word r.va))
      else match cells with
        | [] => some ((s.dropRequest id).completes r.cell r.thread [.reg d 0])
        | c :: cs => some (s.again id r (.send d c t ws cs 0 true))
  | .send d _ t ws (c :: cs) lost true => some (s.again id r (.send d c t ws cs (lost + if ans == [0] then 1 else 0) true))
  | _ => none

/-- The final answer of a request; the last copy of an MCAST leaves the count of copies discarded. -/
def Request.final (r : Request) (ans : List Word) : List Word :=
  match r.kind with
  | .send _ _ _ _ [] lost true => [word (lost + if ans == [0] then 1 else 0)]
  | _ => ans

/-- A local access has performed: its results are written 4 periods later (R287, R299). -/
def State.localDone (s : State) (id : Nat) (ans : List Word) : State :=
  match s.requests.get? id with
  | none => s
  | some r => match s.goesOn id r ans with
    | some s1 => s1
    | none =>
      let s1 := s.dropRequest id
      match s1.named r.cell r.thread r.uid with
      | none => s1
      | some x =>
        let ready := max x.ready (s.clk + 5)
        let on (s : State) : State :=
          ((s.landAt r.cell r.thread (s.clk + 4) r.issued (r.results ans)).updThread r.cell r.thread fun x =>
            { x with state := .runnable, wait := .none, ready }).issueFrom r.cell ready
        match r.kind with
        | .refill =>
          let a := ans.headD 0
          if fld a 0 3 != 0 then s1.trapThread r.cell r.thread 50 a r.pc r.issued (s.clk + 1)
          else on (s1.updThread r.cell r.thread fun x => { x with pc := a.setWidth 48, spcnt := x.spcnt - 1 })
        | _ => on s1

/-- A request has its answer at its point: a local one goes on at once, another's answer returns. -/
def State.answered (s : State) (id : Nat) (ans : List Word) (fault : Option (Nat × Word)) : State :=
  match s.requests.get? id with
  | none => s
  | some r =>
    if !r.sp then s.reply id r.router ans fault
    else match fault with
      | some f => s.requestFaults id f.1 f.2
      | none => s.localDone id ans

/-- MEMORY_REQUEST_COMPLETION (R287, R297, R343): the answer that a thread waits for has returned. -/
def execMemoryRequestCompletion (cell thread : Nat) (s : State) : Result :=
  match s.thread? cell thread with
  | none => .next s
  | some x => match x.wait with
    | .request id => match s.requests.get? id with
      | none => .next s
      | some r =>
        if r.stage != .served then .next s
        else match r.fault with
          | some f => .next (s.requestFaults id f.1 f.2)
          | none => match s.goesOn id r r.answer with
            | some s1 => .next s1
            | none => .next ((s.dropRequest id).completes cell thread (r.results (r.final r.answer)))
    | _ => .next s

end Sys2Proof.Machine
end

