-- ==== Sys2Proof/Machine/Draft.lean ====
section
/-! DEFINITION. The draft engine: sequences and their suffix index units, the sampler and the generation token's instructions
(12_draft R359 to R388). -/

namespace Sys2Proof.Machine

open Sys2Proof

/-! ## Memory as a unit reaches it -/

/-- Physical address of a piece inside one line: local, or translated for the request's context. A write that a seal holds (13_proof R402),
and an access to stacks that are being reset (R393), wait at their slice. -/
def State.reach (s : State) (r : Request) (plate : Nat) (sp : Bool) (va n : Nat) (write : Bool) (tval : Word) : Except UnitStop Nat :=
  if sp then (if localSize < va + n then .error (.fault 48 tval) else .ok (scratchBase r.cell + va))
  else do
    match ← s.unitPhys plate r.ctx va write with
    | .error c => throw (.fault c tval)
    | .ok pa => if ownScratch r.cell pa then throw (.fault 49 tval) else return pa

/-- Read a piece of `n` bytes. -/
def State.unitRead (s : State) (r : Request) (plate : Nat) (sp : Bool) (va n : Nat) (tval : Word) : Except UnitStop Nat := do
  let pa ← s.reach r plate sp va n false tval
  let x ← s.unitLoad pa n
  if x.2 then throw (.fault 380 (word va)) else return x.1

/-- Write a piece of `n` bytes. -/
def State.unitWrite (s : State) (r : Request) (plate : Nat) (sp : Bool) (va n x : Nat) (tval : Word) : Except UnitStop State := do
  let pa ← s.reach r plate sp va n true tval
  return s.unitStore pa n x

/-- Read `k` pieces of `n` bytes from an address on. -/
def State.unitReadList (s : State) (r : Request) (plate : Nat) (sp : Bool) (va n : Nat) : Nat → Except UnitStop (List Nat)
  | 0 => .ok []
  | k + 1 => do
    let xs ← s.unitReadList r plate sp va n k
    let x ← s.unitRead r plate sp (va + n * k) n (word va)
    return xs ++ [x]

/-- Write pieces of `n` bytes from an address on. -/
def State.unitWriteList (s : State) (r : Request) (plate : Nat) (sp : Bool) (base va n : Nat) : List Nat → Except UnitStop State
  | [] => .ok s
  | x :: xs => do
    let s1 ← s.unitWrite r plate sp va n x (word base)
    s1.unitWriteList r plate sp base (va + n) n xs

/-! ## Sequences (R359 to R363) -/

/-- The unit serving a request: its cluster, the request's number and the request. -/
structure SxAt where
  cluster : Nat
  id      : Nat
  r       : Request

def SxAt.plate (u : SxAt) : Nat := u.cluster / 10

def Sequence.cap (q : Sequence) : Nat := 2 ^ q.logC
def Sequence.lo (q : Sequence) : Nat := q.n - q.cap
def Sequence.ringAt (q : Sequence) (p : Nat) : Nat := q.ring + 4 * (p % q.cap)

/-- Ring(s, p) as memory holds it. -/
def State.ringRead (s : State) (u : SxAt) (q : Sequence) (p : Nat) : Except UnitStop Nat :=
  s.unitRead u.r u.plate false (q.ringAt p) 4 (word (q.ringAt p))

def ladder (kidx : Nat) : Nat := [2, 3, 4, 6, 8, 12, 16, 24, 32][kidx]?.getD 0

/-- Hash (R362): bucket and tag of the gram that ends at `p`. -/
def State.sxHash (s : State) (u : SxAt) (q : Sequence) (kidx p : Nat) : Except UnitStop (Nat × BitVec 32) := do
  let k := ladder kidx
  let h : Word ← (List.range k).foldlM (fun (h : Word) i => do
    let t ← s.ringRead u q (p + 1 + i - k)
    return (h ^^^ word t) * (0x9FB21C651E98DF25 : Word)) (word (kidx + 1))
  let g := h ^^^ (h >>> 32)
  return (g.toNat / 2 ^ (64 - q.b), g.extractLsb' 4 28 ++ BitVec.ofNat 4 kidx)

def Way.start (w : Way) : Int := (w.pos : Int) - ladder (w.tag.extractLsb' 0 4).toNat + 1

def Sequence.bucket (q : Sequence) (k : Nat) : List (Option Way) := q.table.getD k [none, none, none, none]

/-- Where a bucket lies (R361, 01_machine R14). -/
def State.bucketAt (s : State) (u : SxAt) (q : Sequence) (k : Nat) : Nat :=
  vaultBase u.cluster + s.suffixBase u.cluster + q.run * 2 ^ 15 + 32 * k

/-- Whether a way is free (R362). -/
def freeWay (lo : Nat) (w : Option Way) : Bool :=
  match w with
  | none => true
  | some e => decide (e.start < (lo : Int))

/-- Index of the way of least Start, and of least position among equals. -/
def oldestWay (ws : List (Option Way)) : Nat :=
  let ks := (List.range ws.length).filterMap fun i => match ws[i]? with
    | some (some e) => some (i, e)
    | _ => none
  match ks with
  | [] => 0
  | k :: ks => (ks.foldl (fun (m : Nat × Way) x =>
      if x.2.start < m.2.start || (x.2.start == m.2.start && x.2.pos < m.2.pos) then x else m) k).1

/-- Insert into a bucket (R363). -/
def insertWay (lo : Nat) (e : Way) (ws : List (Option Way)) : List (Option Way) :=
  match ws.findIdx? (fun w => match w with
    | some x => x.tag == e.tag
    | none => false) with
  | some i => ws.set i (some e)
  | none => match ws.findIdx? (freeWay lo) with
    | some i => ws.set i (some e)
    | none => ws.set (oldestWay ws) (some e)

/-- The unit reads a bucket at its vault bank (14_fabric R419), unless the table is being built anew; what the ways hold is the unit's own. One
that cannot be read fails the sequence (R373, cause 381 here). -/
def State.sxTouch (s : State) (u : SxAt) (q : Sequence) (k : Nat) (anew : Bool) : Except UnitStop Unit := do
  if anew then return
  let x ← s.unitLoad (s.bucketAt u q k) 32
  if x.2 then throw (.fault 381 (word (s.bucketAt u q k)))

/-- Insert the gram that ends at `p`: its bucket is read and written. -/
def State.sxInsert (s : State) (u : SxAt) (lo p : Nat) (anew : Bool) (q : Sequence) (kidx : Nat) : Except UnitStop (State × Sequence) :=
  if p + 1 < lo + ladder kidx then .ok (s, q)
  else do
    let h ← s.sxHash u q kidx p
    s.sxTouch u q h.1 anew
    return (s.unitStore (s.bucketAt u q h.1) 0 0, { q with table := q.table.set h.1 (insertWay lo { pos := p, tag := h.2 } (q.bucket h.1)) })

/-- The insertions that follow position `p`, kidx rising. -/
def State.sxInserts (s : State) (u : SxAt) (lo p : Nat) (anew : Bool) (q : Sequence) : Except UnitStop (State × Sequence) :=
  (List.range 9).foldlM (fun (x : State × Sequence) k => x.1.sxInsert u lo p anew x.2 k) (s, q)

/-! ## Appending (R363, R364, R369) -/

/-- Whether Ring(i) = Ring(i − L) at every position of a list. -/
def State.ringRepeats (s : State) (u : SxAt) (q : Sequence) (l : Nat) : List Nat → Except UnitStop Bool
  | [] => .ok true
  | i :: is => do
    let a ← s.ringRead u q i
    let b ← s.ringRead u q (i - l)
    if a == b then s.ringRepeats u q l is else return false

/-- RepCheck's first period, if any. -/
def State.repPeriod (s : State) (u : SxAt) (q : Sequence) : List Nat → Except UnitStop (Option Nat)
  | [] => .ok none
  | l :: ls => do
    let m := l * q.repn
    let yes ← (if m ≤ q.n - q.lo then s.ringRepeats u q l ((List.range (m - l)).map fun i => q.n - m + l + i) else .ok false)
    if yes then return some l else s.repPeriod u q ls

/-- An append in progress: the first period found in trap mode. -/
structure SxAppend where
  s    : State
  q    : Sequence
  trap : Option Nat

/-- Bits of SXST replaced. -/
def setBits (w : Word) (lo len v : Nat) : Word :=
  let m : Word := word ((2 ^ len - 1) * 2 ^ lo)
  (w &&& ~~~m) ||| (word (v * 2 ^ lo) &&& m)

/-- AppendOne. -/
def SxAppend.one (u : SxAt) (x : SxAppend) (tok : Nat) : Except UnitStop SxAppend := do
  let q := x.q
  let s ← x.s.unitWrite u.r u.plate false (q.ringAt q.n) 4 tok (word (q.ringAt q.n))
  let q1 := { q with n := q.n + 1 }
  let (s, q2) ← (if q1.n < 2 then .ok (s, q1) else s.sxInserts u q1.lo (q1.n - 2) false q1)
  if q2.repn == 0 then return { x with s, q := q2 }
  else
    let l ← s.repPeriod u q2 ((List.range 64).map (· + 1))
    match l with
    | none => return { x with s, q := q2 }
    | some l =>
      if q2.mode == 0 then
        return { x with s, q := { q2 with sxst := setBits (setBits q2.sxst 32 7 l) 27 1 1 } }
      else return { x with s, q := q2, trap := some (x.trap.getD l) }

/-- SXAPP at its unit (R364, R382): the ring lines are translated before anything changes. -/
def State.sxAppend (s : State) (u : SxAt) (q : Sequence) (n buf : Nat) (sp : Bool) : Except UnitStop (State × Sequence) := do
  if n < 1 || 16 < n then throw (.fault 305 (word n))
  if 2 ^ 32 - 1 < q.n + n then throw (.fault 306 (word q.n))
  let toks ← s.unitReadList u.r u.plate sp buf 4 n
  let _ ← (List.range n).mapM fun i => s.reach u.r u.plate false (q.ringAt (q.n + i)) 4 true (word (q.ringAt (q.n + i)))
  let x ← toks.foldlM (SxAppend.one u) { s, q, trap := none }
  match x.trap with
  | some l => throw (.fault 307 (word l))
  | none => return (x.s, x.q)

/-! ## Querying (R365 to R367) -/

/-- Length of the common run that ends at `p` and `last`, from `l` up. -/
def State.extend (s : State) (u : SxAt) (q : Sequence) (p : Nat) : Nat → Nat → Except UnitStop Nat
  | 0, l => .ok l
  | f + 1, l =>
    if l < 1023 && decide (q.lo + l ≤ p) then do
      let a ← s.ringRead u q (p - l)
      let b ← s.ringRead u q (q.n - 1 - l)
      if a == b then s.extend u q p f (l + 1) else return l
    else .ok l

/-- The vocabulary filter (R367): why a token ends a draft, or 0. -/
def Sequence.cuts (q : Sequence) (t : Nat) : Nat :=
  if q.vocab ≤ t then 1 else if q.padlo ≤ t && t ≤ q.padhi then 2 else 0

/-- The draft of the tokens at a list of positions, which are read up to the first that is cut, and why it ends early (R365, R367). -/
def State.cutDraft (s : State) (u : SxAt) (q : Sequence) : List Nat → Except UnitStop (List Nat × Nat)
  | [] => .ok ([], 0)
  | p :: ps => do
    let t ← s.ringRead u q p
    if q.cuts t != 0 then return ([], q.cuts t)
    else
      let r ← s.cutDraft u q ps
      return (t :: r.1, r.2)

/-- A verified candidate: its ladder index, position and match length. -/
def State.sxCandidate (s : State) (u : SxAt) (q : Sequence) (kidx : Nat) : Except UnitStop (Option (Nat × Nat × Nat)) :=
  let k := ladder kidx
  if q.n < k + 1 || q.n - k < q.lo then .ok none
  else do
    let h ← s.sxHash u q kidx (q.n - 1)
    s.sxTouch u q h.1 false
    match (q.bucket h.1).findSome? fun w => w.filter fun e => e.tag == h.2 && decide ((q.lo : Int) ≤ e.start) with
    | none => return none
    | some e =>
      let same ← (List.range k).foldlM (fun (ok : Bool) i => do
        if ok then
          let a ← s.ringRead u q (e.pos + 1 + i - k)
          let b ← s.ringRead u q (q.n - k + i)
          return a == b
        else return false) true
      if !same then return none
      else
        let l ← s.extend u q e.pos 1024 k
        return some (kidx, e.pos, l)

/-- The first verified candidate, kidx falling. -/
def State.sxSearch (s : State) (u : SxAt) (q : Sequence) : Nat → Except UnitStop (Option (Nat × Nat × Nat))
  | 0 => .ok none
  | k + 1 => do
    match ← s.sxCandidate u q k with
    | some c => return some c
    | none => s.sxSearch u q k

/-- The five fields that a query writes. -/
def queryStatus (w : Word) (mlen dlen hit cut kidx : Nat) : Word :=
  setBits (setBits (setBits (setBits (setBits w 0 10 mlen) 16 5 dlen) 24 1 hit) 25 2 cut) 28 4 kidx

/-- SXQRY at its unit. -/
def State.sxQuery (s : State) (u : SxAt) (q : Sequence) (dmax buf : Nat) (sp : Bool) : Except UnitStop (State × Sequence) := do
  match ← s.sxSearch u q 9 with
  | none => return (s, { q with sxst := queryStatus q.sxst 0 0 0 0 0, spos := word q.n })
  | some (kidx, p, l) =>
    let d ← s.cutDraft u q ((List.range (min dmax (q.n - 1 - p))).map fun i => p + 1 + i)
    let draft := if q.sxst.getLsbD 27 then [] else d.1
    let s1 ← s.unitWriteList u.r u.plate sp buf buf 4 draft
    return (s1, { q with sxst := queryStatus q.sxst l draft.length 1 d.2 kidx, spos := word (p + 1) })

/-! ## Opening, images, closing (R361, R371, R372, R381 to R384) -/

/-- A free slot and the lowest free run aligned to its size. -/
def State.sxPlace (s : State) (cluster b : Nat) : Option (Nat × Nat) :=
  let n := runLength b
  let fits (g : Nat) : Bool := (s.suffixBase cluster + g * 2 ^ 15) % (n * 2 ^ 15) == 0 && decide (g + n ≤ 32 * s.regionMiB cluster) &&
    (List.range n).all fun i => s.granuleFree cluster (g + i)
  match (List.range 256).find? (fun i => ((s.unit cluster).open'.get? i).isNone), (List.range 1024).find? fits with
  | some i, some g => some (i, g)
  | _, _ => none

/-- A run is written anew when a sequence opens in it: no line of it stays poisoned (14_fabric R428). -/
def State.cleanRun (s : State) (cluster run b : Nat) : State :=
  let at' := vaultBase cluster + s.suffixBase cluster + run * 2 ^ 15
  s.updPkg fun p => { p with poison := p.poison.filter fun w => !(decide (at' ≤ w) && decide (w < at' + runLength b * 2 ^ 15)) }

def State.updUnit (s : State) (cluster : Nat) (f : SuffixUnit → SuffixUnit) : State :=
  { s with suffix := s.suffix.set cluster (f (s.unit cluster)) }

/-- Open a sequence in a place: its handle (R359). -/
def State.sxInstall (s : State) (cluster slot : Nat) (q : Sequence) : State × Word :=
  let gen := (s.unit cluster).gens.getD slot 0 % 65535 + 1
  (s.updUnit cluster fun x => { x with gens := x.gens.set slot gen, open' := x.open'.set slot q },
   word (gen * 2 ^ 16 + cluster * 2 ^ 8 + slot))

/-- A descriptor breaks R381. -/
def badSequence (w : List Nat) : Bool :=
  let x (i : Nat) : Word := word (w[i]?.getD 0)
  let b := fld (x 0) 56 5
  let logc := fld (x 0) 48 5
  fld (x 0) 61 3 != 0 || fld (x 0) 53 3 != 0 || b < 10 || 16 < b || logc < 6 || 20 < logc || fld (x 0) 0 6 != 0 ||
  fld (x 1) 32 32 != 0 || fld (x 1) 0 32 == 0 || fld (x 3) 10 54 != 0 || 1 < fld (x 3) 8 2 || fld (x 3) 0 8 == 1 ||
  (w.drop 4).any fun v => v != 0

/-- A unit that a context may name: a quad of its cluster lies in the partition (R381). -/
def State.sxMayUse (s : State) (ctx cluster : Nat) : Bool :=
  decide (cluster < 40) && ((s.ctx ctx).quads.getLsbD (2 * cluster) || (s.ctx ctx).quads.getLsbD (2 * cluster + 1))

/-- SXOPEN at its unit. -/
def State.sxOpen (s : State) (u : SxAt) (addr : Nat) (sp : Bool) : Except UnitStop (State × Word) := do
  let w ← s.unitReadList u.r u.plate sp addr 8 8
  if badSequence w then throw (.fault 305 (word addr))
  let x (i : Nat) : Word := word (w[i]?.getD 0)
  match s.sxPlace u.cluster (fld (x 0) 56 5) with
  | none => return (s, 0)
  | some (slot, run) =>
    let q : Sequence := { ctx := u.r.ctx, failed := false, n := 0, logC := fld (x 0) 48 5, ring := fld (x 0) 0 48, b := fld (x 0) 56 5,
                          table := [], vocab := fld (x 1) 0 32, padlo := fld (x 2) 0 32, padhi := fld (x 2) 32 32, repn := fld (x 3) 0 8,
                          mode := fld (x 3) 8 2, sxst := 0, spos := 0, run }
    return (s.cleanRun u.cluster run q.b).sxInstall u.cluster slot q

/-- Bytes of an image of `h` tokens. -/
def imageBytes (h : Nat) : Nat := roundUp (0x80 + 4 * h) 64

/-- The image's words before its tokens, its check as given. -/
def Sequence.header (q : Sequence) (check : Word) : List Nat :=
  [1 + q.logC * 2 ^ 16 + q.b * 2 ^ 24, q.ring, q.n, q.vocab, q.padlo + q.padhi * 2 ^ 32, q.repn + q.mode * 2 ^ 8, q.sxst.toNat,
   q.spos.toNat, q.n - q.lo, check.toNat, 0, 0, 0, 0, 0, 0]

/-- Pairs of 32-bit tokens as words. -/
def pairTokens : List Nat → List Nat
  | [] => []
  | [a] => [a]
  | a :: b :: t => (a + b * 2 ^ 32) :: pairTokens t

/-- Pad to the image's length. -/
def padWords (n : Nat) (ws : List Nat) : List Nat := ws ++ List.replicate (n - ws.length) 0

/-- Check of an image's words, ring base and check words taken as zero (R371). -/
def imageCheck (ws : List Nat) : Word := crc64 (((ws.set 1 0).set 9 0).flatMap fun w => leBytes w 8)

/-- SXSAVE at its unit. -/
def State.sxSave (s : State) (u : SxAt) (q : Sequence) (addr : Nat) (sp : Bool) : Except UnitStop State := do
  let h := q.n - q.lo
  let toks ← (List.range h).mapM fun i => s.ringRead u q (q.lo + i)
  let body := padWords (imageBytes h / 8) (q.header 0 ++ pairTokens toks)
  s.unitWriteList u.r u.plate sp addr addr 8 (body.set 9 (imageCheck body).toNat)

/-- The header of an image is out of range (R372). -/
def badImage (w : List Nat) : Bool :=
  let x (i : Nat) : Word := word (w[i]?.getD 0)
  let b := fld (x 0) 24 5
  let logc := fld (x 0) 16 5
  let n := (x 2).toNat
  fld (x 0) 0 16 != 1 || fld (x 0) 21 3 != 0 || fld (x 0) 29 35 != 0 || b < 10 || 16 < b || logc < 6 || 20 < logc ||
  fld (x 1) 0 6 != 0 || fld (x 1) 48 16 != 0 || 2 ^ 32 ≤ n || fld (x 3) 32 32 != 0 || fld (x 5) 10 54 != 0 || 1 < fld (x 5) 8 2 ||
  fld (x 5) 0 8 == 1 || (x 8).toNat != n - (n - 2 ^ logc) || (w.drop 10).any fun v => v != 0

/-- The 32-bit halves of words. -/
def halves (ws : List Nat) : List Nat := ws.flatMap fun w => [w % 2 ^ 32, w / 2 ^ 32]

/-- SXLOAD at its unit (R372): the table is rebuilt from the tokens. -/
def State.sxLoad (s : State) (u : SxAt) (addr : Nat) (sp : Bool) : Except UnitStop (State × Word) := do
  let hd ← s.unitReadList u.r u.plate sp addr 8 16
  if badImage hd then throw (.fault 305 (word addr))
  let x (i : Nat) : Word := word (hd[i]?.getD 0)
  let h := (x 8).toNat
  let rest ← s.unitReadList u.r u.plate sp (addr + 0x80) 8 (imageBytes h / 8 - 16)
  let toks := halves rest
  if imageCheck (hd ++ rest) != x 9 || (toks.drop h).any (· != 0) then throw (.fault 305 (word addr))
  match s.sxPlace u.cluster (fld (x 0) 24 5) with
  | none => return (s, 0)
  | some (slot, run) =>
    let q : Sequence := { ctx := u.r.ctx, failed := false, n := (x 2).toNat, logC := fld (x 0) 16 5, ring := (x 1).toNat, b := fld (x 0) 24 5,
                          table := [], vocab := fld (x 3) 0 32, padlo := fld (x 4) 0 32, padhi := fld (x 4) 32 32, repn := fld (x 5) 0 8,
                          mode := fld (x 5) 8 2, sxst := x 6, spos := x 7, run }
    let s1 ← ((List.range h).zip toks).foldlM (fun (s : State) (p : Nat × Nat) =>
      s.unitWrite u.r u.plate false (q.ringAt (q.lo + p.1)) 4 p.2 (word (q.ringAt (q.lo + p.1)))) (s.cleanRun u.cluster run q.b)
    let x ← (List.range (h - 1)).foldlM (fun (x : State × Sequence) i => x.1.sxInserts u x.2.lo (x.2.lo + i) true x.2) (s1, q)
    return x.1.sxInstall u.cluster slot x.2

/-- SXREP's settings before a change (R383). -/
def Sequence.settings (q : Sequence) : Word :=
  word (q.repn + q.mode * 2 ^ 8 + (q.sxst.getLsbD 27).toNat * 2 ^ 16 + fld q.sxst 32 7 * 2 ^ 24)

def badSettings (w : Word) : Bool := fld w 17 47 != 0 || fld w 10 6 != 0 || fld w 0 8 == 1 || 1 < fld w 8 2

def Sequence.withSettings (q : Sequence) (w : Word) : Sequence :=
  { q with repn := fld w 0 8, mode := fld w 8 2, sxst := if fbit w 16 then setBits q.sxst 27 1 0 else q.sxst }

/-- What a request does at its unit: the state and the words returned. -/
def State.sxServe (s : State) (u : SxAt) (op : Nat) (x y z : Word) (func : Nat) : Except UnitStop (State × List Word) := do
  let sp := func % 2 == 1
  if op == 0x70 then
    let r ← s.sxOpen u x.toNat sp
    return (r.1, [r.2])
  else if op == 0x75 then
    let r ← s.sxLoad u x.toNat sp
    return (r.1, [r.2])
  else
    let slot := fld x 0 8
    match (s.unit u.cluster).open'.get? slot with
    | none => throw (.fault 304 x)
    | some q =>
      if q.ctx != u.r.ctx || (s.unit u.cluster).gens.getD slot 0 != fld x 16 16 then throw (.fault 304 x)
      let put (s : State) (q : Sequence) : State := s.updUnit u.cluster fun k => { k with open' := k.open'.set slot q }
      if op == 0x76 then
        return (s.updUnit u.cluster fun k => { k with open' := k.open'.erase slot }, [word q.n])
      else if op == 0x74 then
        let s1 ← s.sxSave u q y.toNat sp
        return (s1, [word (imageBytes (q.n - q.lo))])
      else if q.failed then throw (.fault 312 x)
      else if op == 0x71 then
        let r ← s.sxAppend u q z.toNat y.toNat sp
        return (put r.1 r.2, [word r.2.n])
      else if op == 0x72 then
        let r ← s.sxQuery u q (func % 32) y.toNat (func / 32 % 2 == 1)
        return (put r.1 r.2, [r.2.sxst, r.2.spos])
      else if func % 2 == 0 then return (s, [q.settings])
      else if badSettings y then throw (.fault 305 y)
      else return (put s (q.withSettings y), [q.settings])

/-- Let a unit serve its next request after an open time. -/
def State.sxNext (s : State) (cluster : Nat) : State :=
  if (s.unit cluster).queue.isEmpty then s
  else
    let d := s.drawDelay
    d.2.after d.1 phNet cluster (.op (.suffixIndexRequestService cluster))

/-- A request arrives at its unit. -/
def State.sxArrive (s : State) (cluster id : Nat) : State :=
  let idle := (s.unit cluster).queue.isEmpty
  let s1 := s.updUnit cluster fun u => { u with queue := u.queue ++ [id] }
  if idle then s1.sxNext cluster else s1

/-- Mark a sequence failed (R373). -/
def State.sxFail (s : State) (cluster slot : Nat) : State :=
  s.updUnit cluster fun k => match k.open'.get? slot with
    | some q => { k with open' := k.open'.set slot { q with failed := true } }
    | none => k

/-- A request has been served: its answer, or its fault, returns, and the unit serves the next. -/
def State.sxDone (s : State) (cluster id : Nat) (answer : List Word) (fault : Option (Nat × Word)) : State :=
  let s1 := (s.dropUnit (.suffix cluster)).updUnit cluster fun u => { u with queue := u.queue.drop 1, after := none }
  (s1.sxNext cluster).reply id (routerOf (cluster * 8)) answer fault

/-- The writes of a request that has taken effect perform, then it is answered (R368). -/
def State.sxWrites (s : State) (cluster id : Nat) (answer : List Word) : State :=
  let agent := (s.requests.get? id).elim keeperAgent fun r => threadAgent r.uid
  let w := s.unitWritesOut (.suffix cluster) agent id
  if w.1 then w.2.sxDone cluster id answer none else w.2

/-- SUFFIX_INDEX_REQUEST_SERVICE (R368): the oldest request takes effect whole, and reads what its thread may read no older (04_ordering
R94). The unit begins again with it whenever a translation or a piece of memory has come that it lacked. -/
def execSuffixIndexRequestService (cluster : Nat) (s : State) : Result :=
  let x := s.unit cluster
  let u := MemUnit.suffix cluster
  match x.queue, x.after with
  | [], _ => .next s
  | id :: _, some answer => .next (s.sxWrites cluster id answer)
  | id :: _, none =>
    match s.requests.get? id with
    | none => .next (s.sxDone cluster id [] none)
    | some r => match r.kind with
      | .suffix op _ x y z func =>
        if (s.unitJob u).waits.isSome then .next s
        else if (s.ctx r.ctx).killed then .next (s.sxDone cluster id [0] none)
        else
          let s := s.catchUp r.who s.nextId
          match (s.asUnit u false).sxServe { cluster, id, r } op x y z func with
          | .ok (s1, ans) =>
            let s2 := s1.updUnit cluster fun u => { u with after := some ans }
            .next ((s2.setUnit { s2.unitJob u with left := some s2.curU.writes }).sxWrites cluster id ans)
          | .error (.fault 381 v) =>
            let s1 := if op == 0x70 || op == 0x75 then s else s.sxFail cluster (fld x 0 8)
            .next (s1.sxDone cluster id [] (some (380, v)))
          | .error (.fault c v) => .next (s.sxDone cluster id [] (some (c, v)))
          | .error stop => .next (s.unitNeeds u stop)
      | _ => .next (s.sxDone cluster id [] none)

/-! ## The instructions -/

/-- Send the current instruction's request to a unit, after every earlier access of the thread (R368). -/
def State.sxSend (s : State) (op cluster func : Nat) : State :=
  let r := s.request (.suffix op s.d s.xa s.xb s.xd func) s.xa.toNat 0
  (s.enter { r with pa := cluster, release := true }).enqueue s.nextId

/-- The alignment of a buffer of the current instruction (R309); its range is checked at the unit. -/
def bufferFault (align : Nat) (addr : Word) : Option (Nat × Word) := if addr.toNat % align != 0 then some (50, addr) else none

/-- A handle's own faults (R359). -/
def handleFault (h : Word) : Option (Nat × Word) :=
  if fld h 32 32 != 0 || fld h 14 2 != 0 || 39 < fld h 8 6 then some (304, h) else none

/-- A request on a handle. -/
def State.sxHandle (s : State) (op : Nat) (buffer : Option (Nat × Word)) : Result :=
  s.bGuard (buffer <|> handleFault s.xa) fun s => s.sxSend op (fld s.xa 8 6) s.curB.word.imm.toNat

/-- A request that opens a sequence: its unit (R381). -/
def State.sxOpening (s : State) (op align : Nat) : Result :=
  let cluster := if s.xb == BitVec.allOnes 64 then clusterOf s.curB.cell else s.xb.toNat
  let f := bufferFault align s.xa <|>
    (if s.sxMayUse s.th.ctx cluster then none else some (49, s.xb))
  s.bGuard f fun s => s.sxSend op cluster s.curB.word.imm.toNat

/-- SXOPEN (R381). -/
def execSxopen (s : State) : Result := s.sxOpening 0x70 8
/-- SXLOAD (R384). -/
def execSxload (s : State) : Result := s.sxOpening 0x75 64
/-- SXAPP (R382). -/
def execSxapp (s : State) : Result := s.sxHandle 0x71 (bufferFault 4 s.xb)
/-- SXQRY (R382). -/
def execSxqry (s : State) : Result := s.sxHandle 0x72 (bufferFault 4 s.xb)
/-- SXREP (R383). -/
def execSxrep (s : State) : Result := s.sxHandle 0x73 none
/-- SXSAVE (R384). -/
def execSxsave (s : State) : Result := s.sxHandle 0x74 (bufferFault 64 s.xb)
/-- SXCLOSE (R382). -/
def execSxclose (s : State) : Result := s.sxHandle 0x76 none

/-! ## The sampler (R375, R376, R385) -/

/-- A sampling record. -/
structure SampleRecord where
  v       : Nat
  lbase   : Nat
  tau     : Nat
  lstride : Nat
  mbase   : Nat
  ready   : Nat

/-- The record at a local address. -/
def State.sampleRecord (s : State) (cell addr : Nat) : List Word := (List.range 4).map fun i => word (s.mem.num (scratchBase cell + addr + 8 * i) 8)

def SampleRecord.of (ws : List Word) : SampleRecord :=
  let w (i : Nat) : Word := ws[i]?.getD 0
  { v := fld (w 0) 32 32, lbase := fld (w 0) 0 19, tau := fld (w 1) 32 32, lstride := fld (w 1) 0 19, mbase := fld (w 2) 0 19,
    ready := fld (w 3) 0 19 }

/-- Bytes of a mask row. -/
def SampleRecord.rowBytes (x : SampleRecord) : Nat := 8 * ((x.v + 63) / 64)

/-- A record breaks R385 for position j. -/
def SampleRecord.bad (x : SampleRecord) (ws : List Word) (j : Nat) : Bool :=
  let w (i : Nat) : Word := ws[i]?.getD 0
  fld (w 0) 19 13 != 0 || fld (w 1) 19 13 != 0 || fld (w 2) 19 45 != 0 || fld (w 3) 19 45 != 0 || x.v == 0 || 131072 < x.v ||
  2 ^ 31 ≤ x.tau || x.tau / 2 ^ 23 == 255 || x.lbase % 4 != 0 || x.lstride % 4 != 0 || x.mbase % 8 != 0 || x.ready % 8 != 0 ||
  decide (localSize < x.lbase + j * x.lstride + 4 * x.v) || decide (localSize < x.mbase + (j + 1) * x.rowBytes)

/-- Round to f64. -/
def toF64 (v : Val) (rnd : Nat) : Nat := (roundToFp v 11 rnd false 0).1
def f64Q (bits : Nat) : Q := (fpToVal 11 bits).num

/-- Weight of a logit: f64 pattern. -/
def sampleWeight (lmax tau l : Val) : Nat :=
  match l, lmax with
  | .inf true, _ => 0
  | .inf false, .inf false => toF64 (.fin (Q.ofInt 1)) 0
  | _, .inf false => 0
  | l, m => (special 0 11 (toF64 (Val.ofQ ((l.num.sub m.num).mul tau.num) false) 0) 0 false).1

/-- The draw: the first index at which the running sum passes the target, else the last of positive weight. -/
def sampleWalk (target : Q) : List (Nat × Nat) → Nat → Nat → Nat
  | [], _, last => last
  | (i, w) :: t, c, last =>
    let c1 := toF64 (Val.ofQ ((f64Q c).add (f64Q w)) false) 0
    if (Q.ofInt 0).lt (f64Q w) then (if target.lt (f64Q c1) then i else sampleWalk target t c1 i) else sampleWalk target t c1 last

def noToken : Word := 0x1FFFFFFFF

/-- The highest-ranked logit (06_vector R166). -/
def topLogit (ls : List (Nat × Nat)) : Option (Nat × Nat) :=
  ls.foldl (fun m x => match m with
    | none => some x
    | some y => if pairAbove false 10 y.2 y.1 x.2 x.1 then some y else some x) none

/-- Smpd after its wait: the token, and whether the stream advances. `ls` lists index and pattern of the included logits. -/
def sampleDraw (tau : Nat) (ls : List (Nat × Nat)) (u : Nat) : Word × Bool :=
  let t := fpToVal 10 tau
  match topLogit ls with
  | none => (noToken, tau != 0)
  | some top =>
    if tau == 0 then (word top.1, false)
    else
      let m := fpToVal 10 top.2
      if m == .inf true then (noToken, true)
      else
        let ws := ls.map fun x => (x.1, sampleWeight m t (fpToVal 10 x.2))
        let sum := ws.foldl (fun c x => toF64 (Val.ofQ ((f64Q c).add (f64Q x.2)) false) 0) 0
        let target := f64Q (toF64 (Val.ofQ ((f64Q sum).mul ⟨(u : Int), 2 ^ 32⟩) false) 1)
        (word (sampleWalk target ws 0 0), true)

/-- A poisoned word of a local range. -/
def State.poisonIn (s : State) (cell addr n : Nat) : Option Nat :=
  (s.pkg.poison.filter fun p => decide (scratchBase cell + addr / 8 * 8 ≤ p) && decide (p < scratchBase cell + addr + n)).head?

/-- The read of the ready word, an acquire at cluster scope (R376). -/
def State.acquireMask (s : State) (r : Request) (x : SampleRecord) : State :=
  s.readLatest { r with kind := .lde 0 false, ord := 1, scope := 3 } (scratchBase r.cell + x.ready) 8

/-- SMPD draws (R376): its answer comes after an open time. -/
def State.sampleNow (s0 : State) (id : Nat) (r : Request) (x : SampleRecord) (j : Nat) (req : Bool) : State :=
  let s := if req then s0.acquireMask r x else s0
  let base := x.lbase + j * x.lstride
  let row := x.mbase + j * x.rowBytes
  match s.poisonIn r.cell base (4 * x.v) <|> (if req then s.poisonIn r.cell row x.rowBytes else none) with
  | some p => s.answered id [] (some (380, word (p - scratchBase r.cell)))
  | none => match s.named r.cell r.thread r.uid with
    | none => s.dropRequest id
    | some t =>
      let mask := s.mem.num (scratchBase r.cell + row) x.rowBytes
      let ls := ((List.range x.v).map fun i => (i, s.mem.num (scratchBase r.cell + base + 4 * i) 4)).filter fun y =>
        !(fpToVal 10 y.2).isNan && (!req || mask / 2 ^ y.1 % 2 == 1)
      let d := sampleDraw x.tau ls ((philox t.src.toNat t.srk.toNat).headD 0)
      let s1 := s.updThread r.cell r.thread fun t => { t with
        state := .blocked, wait := .request id, src := if d.2 then t.src + 1 else t.src }
      if !r.sp then s1.reply id r.router [d.1, wordBool d.2] none
      else
        let w := (s1.updReq id fun r => { r with stage := .served, answer := [d.1] }).drawDelay
        w.2.after w.1 phNet (r.cell * 64 + r.thread) (.op (.memoryRequestCompletion r.cell r.thread))

/-- Whether row j has been posted: the ready word is full and above j. -/
def State.maskReady (s : State) (cell ready j : Nat) : Bool :=
  s.full.contains (scratchBase cell + ready) && decide (j < s.mem.num (scratchBase cell + ready) 8)

/-- SMPD reaches its scratchpad at offset 3. -/
def State.sampleArrives (s : State) (id : Nat) (r : Request) (d : Nat) (j : Word) (req : Bool) : State :=
  let ws := s.sampleRecord r.cell r.va
  let x := SampleRecord.of ws
  match s.poisonIn r.cell r.va 32 with
  | some p => s.answered id [] (some (380, word (p - scratchBase r.cell)))
  | none =>
    if x.bad ws j.toNat then s.answered id [] (some (308, word r.va))
    else if !req || s.maskReady r.cell x.ready j.toNat then s.sampleNow id r x j.toNat req
    else (((s.updReq id fun r => { r with stage := .parked, kind := .sample d j req, answer := ws }).updThread r.cell r.thread fun t => { t with
      state := .parked, wait := .mask x.ready j.toNat id }).after (2 ^ r.felim) phNet (r.cell * 64 + r.thread)
      (.op (.samplerMaskTimeout r.cell r.thread))).after 1 phNet (r.cell * 64 + r.thread) (.deliver id)

/-- A draw that waits for its mask row looks again in each period; it keeps the record that it read. -/
def State.samplePolls (s : State) (id : Nat) (r : Request) : State :=
  match (s.named r.cell r.thread r.uid).map Thread.wait with
  | some (.mask ready j _) =>
    if s.maskReady r.cell ready j then s.sampleNow id r (SampleRecord.of r.answer) j true
    else s.after 1 phNet (r.cell * 64 + r.thread) (.deliver id)
  | _ => s

/-- SAMPLER_MASK_TIMEOUT (R376). -/
def execSamplerMaskTimeout (cell thread : Nat) (s : State) : Result :=
  match s.thread? cell thread with
  | none => .next s
  | some x => match x.wait with
    | .mask _ j id => match s.requests.get? id with
      | some r => if r.issued + 3 + 2 ^ r.felim ≤ s.clk then .next (s.answered id [] (some (309, word j))) else .next s
      | none => .next s
    | _ => .next s

/-- SMPD (R385); a paired thread's is compared (11_barrel_traps R355). -/
def execSmpd (s : State) : Result :=
  let r := s.request (.sample s.d s.xb (fbit s.curB.word.imm 0)) s.xa.toNat 32
  if s.th.pair.isSome && r.va % 8 == 0 && decide (r.va + 32 ≤ localSize) then
    .next ((s.enter { r with pa := scratchBase r.cell + r.va }).enqueue s.nextId)
  else s.memAccess true 8 r

/-! ## The generation token (R378, R386) -/

/-- The faults that TOKWAIT and TOKPASS share. -/
def State.groupFault (s : State) (g : Word) : Option (Nat × Word) :=
  let x := s.group g.toNat
  if 16 ≤ g.toNat || !x.en || x.ctx != s.th.ctx then some (311, g) else none

/-- TOKWAIT. -/
def execTokwait (s : State) : Result :=
  let g := s.xa
  let outside := if (s.group g.toNat).mask.getLsbD s.curB.cell then none else some (311, g)
  s.bGuard (s.groupFault g <|> outside) fun s =>
    ((s.await .parked (.token s.d g.toNat)).updGroup g.toNat fun x =>
      { x with waiters := x.waiters ++ [(s.curB.cell, s.curB.thread)] }).offerToken g.toNat

/-- TOKPASS: a release of the thread's accesses. -/
def execTokpass (s : State) : Result :=
  let g := s.xa
  let other := if (s.group g.toNat).holder == some (s.curB.cell, s.curB.thread, s.th.uid) then none else some (310, g)
  s.bGuard (s.groupFault g <|> other) fun s =>
    (s.await .blocked (.pass s.d g.toNat)).recheck s.curB.cell s.curB.thread

end Sys2Proof.Machine
end

