-- ==== Sys2Proof/Machine/Proof.lean ====
section
/-! DEFINITION. The proof engine: written-through lines and their mirror, recovery releases, impressions, seals, checks and replay
(13_proof R389 to R416), and SIGNAL (09_windows R284). -/

namespace Sys2Proof.Machine

open Sys2Proof

/-! ## What HBM holds (R391) -/

/-- A line as its HBM stack holds it. -/
def State.hbmLine (s : State) (line : Nat) : Nat :=
  match s.hbmOld.get? line with
  | some d => d.toNat
  | none => s.mem.num line 64

/-- The 64-byte lines of a 4 KiB page. -/
def pageLines (pa : Nat) : List Nat := (List.range 64).map fun l => pa + 64 * l
def State.hbmPage (s : State) (pa : Nat) : List Byte := (pageLines pa).flatMap fun l => leBytes (s.hbmLine l) 64
def State.hbmPages (s : State) (pas : List Nat) : List Byte := pas.flatMap s.hbmPage

/-- Little-endian number of some bytes of a list. -/
def bytesNum (bs : List Byte) (at' n : Nat) : Nat := ((bs.drop at').take n).foldr (fun b x => x * 256 + b.toNat) 0
def bytesWord (bs : List Byte) (at' : Nat) : Word := word (bytesNum bs at' 8)

/-! ## Recovery releases (R395 to R398) -/

/-- Whether a global address translates to a proof page now. -/
def State.toProof (s : State) (plate ctx va : Nat) : Bool :=
  match s.cachedLeaf plate ctx va with
  | some l => l.proof
  | none => match s.walkNow plate ctx va true with
    | .ok l => l.proof
    | .error _ => false

/-- Whether a line of a tagged copy is to write a proof page: by its destination's address, or by its translation to come. -/
def State.proofPending (s : State) (cell : Nat) (l : CopyLine) : Bool :=
  l.dsts.any fun d => match d with
    | .global va =>
      if l.read && (l.stage == 1 || l.stage == 4) then (s.proofOwner (lineOf l.physical)).isSome
      else s.toProof (plateOf cell) (s.core cell).ctx va
    | _ => false

/-- A tagged copy that a timed release covers has not performed in every line of a proof page. -/
def State.copiesPending (s : State) (r : Release) : Bool :=
  r.agent % 128 == 0 && decide (r.agent < 320 * 128) && (s.core (r.agent / 128)).cpy.tagged.any fun t =>
    t.proof && decide (t.id < r.bound) && (t.list.isSome || t.lines.any (s.proofPending (r.agent / 128)))

/-- Whether a release can complete: none while it waits, else whether it succeeds. -/
def State.releaseReady (s : State) (r : Release) : Option Bool :=
  let mine := s.mirrors.filter fun m => m.2.agent == r.agent && decide (m.2.order < r.bound)
  if !r.reached || s.copiesPending r || (s.throughs.any fun w => w.2.agent == r.agent && decide (w.2.order < r.bound)) then none
  else if !r.mirrored then some true
  else if mine.any fun m => m.2.lost then some false
  else if mine.isEmpty then some true
  else none

/-- A seal of a context may go on. -/
def State.sealLater (s : State) (ctx : Nat) : State :=
  match s.impressions.get? ctx with
  | some i => if i.stage == .open || i.stage == .called then s else s.after 0 phNet 0 (.op (.sealPages ctx))
  | none => s

/-- A release completes, or fails as R398 gives. -/
def State.finishRelease (s : State) (r : Release) (ok : Bool) : State :=
  let s1 := { s with releases := s.releases.filter fun x => x.id != r.id }
  let s2 := match r.request with
    | some id => match s1.requests.get? id with
      | some q =>
        if ok then (s1.updThread q.cell q.thread fun t => if t.uid == q.uid then { t with prDone := r.number } else t).reply id portDie
          [r.number.setWidth 64] none
        else s1.reply id portDie [] (some (342, r.number.setWidth 64))
      | none => s1
    | none =>
      let cell := r.agent % 65536 / 128
      let s2 := if r.live then s1.updClock cell fun k =>
          let k1 := { k with prDone := r.number }
          if ok then k1 else { k1 with prMlost := true, prErr := if k.prMlost then k.prErr else r.number }
        else s1
      if ok then s2 else s2.postCore cell 0x30 342 0 (r.number.setWidth 64)
  s2.sealLater r.ctx

/-- Complete every release that can, in the order of its agent (R396). -/
def State.checkReleases (s : State) : State :=
  (s.releases.foldl (fun (x : State × List Nat) r =>
    if x.2.contains r.agent then x
    else match x.1.releaseReady r with
      | some ok => (x.1.finishRelease r ok, x.2)
      | none => (x.1, r.agent :: x.2)) (s, [])).1

/-! ## The mirror (R391, R392) -/

/-- Send a line to the partner's keeper. -/
def State.sendMirror (s : State) (id : Nat) (m : MirrorLine) : State :=
  s.sendBeat clsMirror (s.ctx m.ctx).partner (.mirrorLine s.pkg.domPos id m.line m.data)

/-- A line has become durable in a mirrored domain: it goes to the partner, or counts as never mirrored. It is looked at again after
half of 2^mto ticks. -/
def State.mirrorLine (s : State) (w : WriteThrough) : State :=
  let x := s.ctx w.ctx
  if !x.mirror then s
  else
    let m : MirrorLine := { ctx := w.ctx, line := w.line, data := w.data, agent := w.agent, order := w.order, since := s.clk, lost := x.mlost }
    let id := s.nextId
    let s1 := { s with mirrors := s.mirrors.set id m, nextId := id + 1 }
    if x.mlost then s1 else (s1.sendMirror id m).after (2 ^ x.mto / 2) phNet 0 (.op (.mirrorTimeout id))

/-- Releases and seals look again. -/
def State.keeperLooks (s : State) : State :=
  s.impressions.foldl (fun s i => s.sealLater i.1) s.checkReleases

/-- WRITE_THROUGH_ACK (R391): the line is durable. -/
def execWriteThroughAck (line : Nat) (s : State) : Result :=
  match s.throughs.get? line with
  | none => .next s
  | some w =>
    let s1 : State := { s with throughs := s.throughs.erase line }
    let s2 : State := if s1.throughs.any fun x => x.2.line == w.line then { s1 with hbmOld := s1.hbmOld.set w.line w.data } else s1.settled w.line
    .next (s2.mirrorLine w).keeperLooks

/-- The lines of a context from one on that the partner has not acknowledged, in the order in which they became durable. -/
def State.unmirrored (s : State) (ctx id : Nat) : List (Nat × MirrorLine) :=
  s.mirrors.filter fun m => m.2.ctx == ctx && decide (id ≤ m.1) && !m.2.lost

/-- MIRROR_TIMEOUT (R392, 14_fabric R438): a line unacknowledged for half of 2^mto ticks is sent again, with those after it (log entry 31);
after 2^mto ticks PRCFG.mlost is set, and it and every later line of the context are never mirrored. -/
def execMirrorTimeout (line : Nat) (s : State) : Result :=
  match s.mirrors.get? line with
  | none => .next s
  | some m =>
    let ls := s.unmirrored m.ctx line
    let due := m.since + 2 ^ (s.ctx m.ctx).mto
    if m.lost then .next s
    else if s.clk < due then .next ((ls.foldl (fun s x => s.sendMirror x.1 x.2) s).at' due phNet 0 (.op (.mirrorTimeout line)))
    else
      let s1 : State := { s with mirrors := ls.foldl (fun (t : Table MirrorLine) x => t.set x.1 { x.2 with lost := true }) s.mirrors }
      .next ((s1.updCtx m.ctx fun x => { x with mlost := true }).keeperLooks)

/-- The partner has acknowledged a line of a number: it is mirrored, unless an earlier line to its address is still to come, which will
be sent again with it. -/
def State.mirrorAcked (s : State) (number : Nat) : State :=
  match s.mirrors.get? number with
  | none => s
  | some m =>
    if m.lost || s.mirrors.any fun x => decide (x.1 < number) && !x.2.lost && x.2.ctx == m.ctx && x.2.line == m.line then s
    else { s with mirrors := s.mirrors.erase number }.keeperLooks

/-- A partner's line arrives (R392): it is written at its address in HBM and acknowledged. -/
def State.mirrorWrite (s : State) (sender number address : Nat) (data : BitVec 512) : State :=
  (({ s with mem := s.mem.putNum (lineOf address) 64 data.toNat }.settled (lineOf address)).cleansed (lineOf address)).sendBeat clsMirror sender (.mirrorAck number)

/-! ## Proof pages of a context (R399, R405) -/

/-- Physical 4 KiB page of a virtual one that translates to a proof page. -/
def State.proofPage (s : State) (plate ctx va : Nat) : Except UnitStop (Option Nat) := do
  match ← s.unitLeaf plate ctx va false with
  | .ok l => return if l.proof then some (l.phys va / 4096 * 4096) else none
  | .error _ => return none

/-- The pages of a virtual range, or its first address that is no proof page. -/
def State.proofRange (s : State) (plate ctx va : Nat) : Nat → Except UnitStop (Except Nat (List Nat))
  | 0 => .ok (.ok [])
  | n + 1 => do
    match ← s.proofRange plate ctx va n with
    | .error a => return .error a
    | .ok xs => match ← s.proofPage plate ctx (va + 4096 * n) with
      | some pa => return .ok (xs ++ [pa])
      | none => return .error (va + 4096 * n)

/-- Pages of extents in order: check pages of 2^g bytes. -/
def State.extentPages (s : State) (plate ctx g : Nat) (es : List (Nat × Nat)) : Except UnitStop (Except Nat (List Nat)) :=
  es.foldlM (fun (acc : Except Nat (List Nat)) e => match acc with
    | .error a => return .error a
    | .ok ps => do
      match ← s.proofRange plate ctx e.1 (e.2 * 2 ^ (g - 12)) with
      | .error a => return .error a
      | .ok xs => return .ok (ps ++ xs)) (.ok [])

/-! ## Opening (R399) and participants (R400) -/

/-- Check pages of some extents. -/
def checkPages (es : List (Nat × Nat)) : Nat := es.foldl (fun n e => n + e.2) 0

/-- Length of a record. -/
def recordLength (es : List (Nat × Nat)) (parts : Nat) : Nat := 0x40 + 16 * es.length + 8 * checkPages es + 128 * parts

/-- Extents overlap each other or a slot. -/
def overlapping (g slotSz : Nat) (slots : List Nat) (es : List (Nat × Nat)) : Bool :=
  let rs := es.map fun e => (e.1, e.2 * 2 ^ g)
  (List.range rs.length).any fun i => match rs[i]? with
    | none => false
    | some r => (rs.drop (i + 1)).any (fun q => meets r.1 r.2 q.1 q.2) || slots.any fun a => meets r.1 r.2 a slotSz

/-- PROPEN at the keeper: a fault, or the state and its status. -/
def State.propen (s : State) (r : Request) (n desc : Word) (sp : Bool) : Except UnitStop (State × Word) := do
  let x := s.ctx r.ctx
  let plate := plateOf r.cell
  if !x.pen then throw (.fault 336 0)
  let hd ← s.unitReadList r plate sp desc.toNat 8 8
  let count := hd.headD 0
  if count < 1 || 64 < count || (hd.drop 1).any (· != 0) then throw (.fault 337 desc)
  let ws ← s.unitReadList r plate sp (desc.toNat + 64) 8 (2 * count)
  let es := (List.range count).map fun e => (ws[2 * e]?.getD 0, ws[2 * e + 1]?.getD 0)
  if es.any fun e => e.1 % 2 ^ x.g != 0 || e.2 < 1 || 2 ^ 24 < e.2 then throw (.fault 337 desc)
  if n == 0 || n.toNat ≤ x.prpi || 2 ^ 32 ≤ n.toNat then throw (.fault 338 n)
  let all (ps : Except Nat (List Nat)) : Except UnitStop (List Nat) := match ps with
    | .ok ps => .ok ps
    | .error a => .error (.fault 339 (word a))
  let pages ← all (← s.extentPages plate r.ctx x.g es)
  let a ← all (← s.proofRange plate r.ctx x.slotA (x.slotSz / 4096))
  let b ← all (← s.proofRange plate r.ctx x.slotB (x.slotSz / 4096))
  if overlapping x.g x.slotSz [x.slotA, x.slotB] es then throw (.fault 337 desc)
  if x.slotSz < recordLength es 0 then throw (.fault 340 (word (recordLength es 0)))
  if x.prpState == 1 || x.prpState == 4 then return (s, 2)
  else if x.prpOpen then return (s, 1)
  else
    let i : Impression := { n := n.toNat, extents := es, pages, slotA := a, slotB := b, parts := [], stage := .open, asker := .core 0, before := 0,
                            waits := [], t0 := 0, start := 0 }
    return ({ s with impressions := s.impressions.set r.ctx i }.updCtx r.ctx fun x => { x with prpOpen := true, prpImp := n.toNat }, 0)

/-- PRPT at the keeper. -/
def State.prpt (s : State) (r : Request) (addr cellOp : Word) (timed : Bool) : Except UnitStop (State × Word) := do
  let cell := if cellOp == BitVec.allOnes 64 then r.cell else cellOp.toNat
  if !(s.ctx r.ctx).pen then throw (.fault 336 0)
  if timed && cellOp != 0 then throw (.fault 337 cellOp)
  if !timed && !(decide (cell < 320) && s.holds r.ctx cell) then throw (.fault 49 cellOp)
  let ws ← s.unitReadList r (plateOf r.cell) false addr.toNat 8 8
  let payload := ws.map word
  match s.impressions.get? r.ctx with
  | none => return (s, BitVec.allOnes 64)
  | some i =>
    if i.stage != .open || 1024 ≤ i.parts.length || (s.ctx r.ctx).slotSz < recordLength i.extents (i.parts.length + 1) then
      return (s, BitVec.allOnes 64)
    else if !timed && badPacket payload then throw (.fault 337 addr)
    else
      let p : ImpressionPart := { kind := timed.toNat, cell := if timed then 0 else cell, tick := s.tick, payload }
      return ({ s with impressions := s.impressions.set r.ctx { i with parts := i.parts ++ [p] } }, word i.parts.length)

/-! ## Seals (R401 to R404) -/

/-- Ranges that a seal holds from t0 on: its set and both slots. -/
def Impression.holding (i : Impression) : List (Nat × Nat) :=
  if i.stage == .draining || i.stage == .writing || i.stage == .undoing then (i.pages ++ i.slotA ++ i.slotB).map fun p => (p, 4096) else []

/-- Recompute what seals hold; requests that a hold kept waiting try again. -/
def State.heldAgain (s : State) : State :=
  let s1 : State := { s with held := s.impressions.flatMap fun (i : Nat × Impression) => i.2.holding }
  s1.pkg.slices.foldl (fun s x => s.sliceAgain x.1) s1

def State.setImpression (s : State) (ctx : Nat) (i : Impression) : State := { s with impressions := s.impressions.set ctx i }

/-- The slot that an impression seals into. -/
def Impression.slot (i : Impression) : Nat := if i.n % 2 == 1 then 0 else 1
def Impression.slotList (i : Impression) : List Nat := if i.slot == 0 then i.slotA else i.slotB
def Context.slotAt (x : Context) (slot : Nat) : Nat := if slot == 0 then x.slotA else x.slotB

/-- The checks of pages, `n` 4 KiB pages each. -/
def State.pageChecks (s : State) (n : Nat) : Nat → List Nat → List Word
  | 0, _ => []
  | k + 1, ps => crc64 (s.hbmPages (ps.take n)) :: s.pageChecks n k (ps.drop n)

/-- A seal record (R403), its own check taken as given. -/
def Impression.record (i : Impression) (ctx g : Nat) (checks : List Word) (check : Word) : List Byte :=
  let ws : List Nat := [1 + ctx * 2 ^ 16 + i.n * 2 ^ 32, i.t0.toNat, checks.length, i.parts.length, g + i.extents.length * 2 ^ 8,
      recordLength i.extents i.parts.length, 0, check.toNat] ++ i.extents.flatMap (fun e => [e.1, e.2]) ++ checks.map BitVec.toNat ++
    i.parts.flatMap fun p => [p.kind + p.cell * 2 ^ 16, p.tick.toNat, 0, 0, 0, 0, 0, 0] ++ p.payload.map BitVec.toNat
  ws.flatMap fun w => leBytes w 8

/-- Write bytes to pages line by line, as the keeper. -/
def State.keeperWrites (s : State) : List Nat → List Byte → State
  | [], _ => s
  | l :: ls, bs =>
    if bs.isEmpty then s
    else
      let b := bs.take 64
      (s.writePhys l b.length (bytesNum b 0 64) keeperAgent s.nextId false).keeperWrites ls (bs.drop 64)

/-- A seal ends: status 0 sealed, 3 failed with a cause; PRPS returns to what it was when it fails. -/
def State.endSeal (s : State) (ctx : Nat) (i : Impression) (ok : Bool) (cause : Nat) : State :=
  let s1 := { s with impressions := s.impressions.erase ctx }.heldAgain
  let s2 := s1.updCtx ctx fun x =>
    if ok then { x with prpi := i.n, prpa := x.slotAt i.slot, prpState := 2, prpOpen := false, prpImp := 0 }
    else { x with prpState := i.before, prpOpen := false, prpImp := 0 }
  match i.asker with
  | .request id => s2.reply id portDie [if ok then 0 else 3] none
  | .core cell =>
    if ok then s2
    else (s2.updClock cell fun k => { k with prSfail := true }).postMessage (plateOf cell)
      { kind := 0x30, cause, cell, thread := 0, ctx, pc := 0, val := 0 }

/-- The record is being written: wait until it is durable, and mirrored. -/
def State.sealWriting (s : State) (ctx : Nat) (i : Impression) : State :=
  let mine := s.mirrors.filter fun m => m.2.ctx == ctx && m.2.agent == keeperAgent && decide (i.start ≤ m.2.order)
  if s.throughs.any fun w => w.2.ctx == ctx && w.2.agent == keeperAgent then s
  else if mine.isEmpty then s.endSeal ctx i true 0
  else if mine.any fun m => m.2.lost then
    let at' := i.slotList.headD 0 + 0x38
    ((s.setImpression ctx { i with stage := .undoing }).writePhys at' 8 (BitVec.not (word (s.mem.num at' 8))).toNat keeperAgent s.nextId false).sealLater ctx
  else s

/-- The page set has reached HBM: check it and write the record. -/
def State.sealDraining (s : State) (ctx : Nat) (i : Impression) : State :=
  let set := i.pages.map fun p => (p, 4096)
  if s.throughs.any fun w => set.any fun r => meets w.2.line 64 r.1 r.2 then s
  else if (i.pages ++ i.slotA ++ i.slotB).any fun p => (pageLines p).any s.poisoned then s.endSeal ctx i false 380
  else
    let g := (s.ctx ctx).g
    let checks := s.pageChecks (2 ^ (g - 12)) (checkPages i.extents) i.pages
    let rec' := i.record ctx g checks (crc64 (i.record ctx g checks 0))
    let i1 := { i with stage := .writing, start := s.nextId }
    let s1 := (s.setImpression ctx i1).keeperWrites (i.slotList.flatMap pageLines) rec'
    { s1 with slotPages := s1.slotPages.set (2 * ctx + i.slot) { slot := i.slotList, pages := i.pages } }.sealWriting ctx i1

/-- The releases that a seal waits for have completed: t0 (R402). -/
def State.sealWaiting (s : State) (ctx : Nat) (i : Impression) : State :=
  if i.waits.any fun w => s.releases.any fun r => r.id == w then s
  else
    let i1 := { i with stage := .draining, t0 := s.tick }
    ((s.setImpression ctx i1).heldAgain).sealDraining ctx i1

/-- Whether an impression's page set or a slot lies in a plate's stacks. -/
def Impression.liesOn (i : Impression) (plate : Nat) : Bool := (i.pages ++ i.slotA ++ i.slotB).any fun p => inHbm p && stackPlate p == plate

/-- SEAL (R401): the seal of a context goes on as far as it can; not while stacks of its pages are being reset (R393). -/
def execSeal (ctx : Nat) (s : State) : Result :=
  match s.impressions.get? ctx with
  | none => .next s
  | some i => .next (if (List.range 4).any fun p => s.resetting p && i.liesOn p then s else match i.stage with
    | .open => s
    | .called =>
      let i1 := { i with stage := .waiting, waits := (s.releases.filter fun r => r.ctx == ctx).map (·.id) }
      (s.setImpression ctx i1).sealWaiting ctx i1
    | .waiting => s.sealWaiting ctx i
    | .draining => s.sealDraining ctx i
    | .writing => s.sealWriting ctx i
    | .undoing =>
      if s.throughs.any fun w => w.2.ctx == ctx && w.2.agent == keeperAgent then s else s.endSeal ctx i false 342)

/-- The status of a PSEAL (R401, R411, R415). -/
def State.sealStatus (s : State) (ctx : Nat) (n : Nat) : Nat :=
  let x := s.ctx ctx
  if x.prpState == 1 || x.prpState == 4 then 2
  else match s.impressions.get? ctx with
    | some i => if i.n == n then 0 else 1
    | none => 1

/-- Begin a seal; `before` is PRPS.state at the issue of its PSEAL (R404). -/
def State.callSeal (s : State) (ctx : Nat) (asker : SealAsker) (before : Nat) : State :=
  match s.impressions.get? ctx with
  | none => s
  | some i => (s.setImpression ctx { i with stage := .called, asker, before }).updCtx ctx fun x =>
      { x with prpState := 1 }

/-! ## Checking (R405, R413) -/

/-- What a slot holds: its number, its status, its pages that do not match or translate, and the participants of its record. -/
structure SealView where
  n      : Nat
  status : Nat
  pages  : Nat
  parts  : List (List Word)

def SealView.none' (status : Nat) : SealView := { n := 0, status, pages := 0, parts := [] }

/-- Replace eight bytes by zeros. -/
def zeroWord (bs : List Byte) (at' : Nat) : List Byte := bs.take at' ++ List.replicate 8 0 ++ bs.drop (at' + 8)

/-- The pages of the check pages of a record: of each, its 4 KiB pages, or none. -/
def State.checkedPages (s : State) (plate ctx g : Nat) (bs : List Byte) (e : Nat) : Except UnitStop (List (Option (List Nat))) :=
  ((List.range e).flatMap fun i => (List.range (bytesNum bs (0x48 + 16 * i) 8)).map fun k => bytesNum bs (0x40 + 16 * i) 8 + k * 2 ^ g).mapM
    fun va => return (← s.proofRange plate ctx va (2 ^ (g - 12))).toOption

/-- Cut held pages into check pages. -/
def cutPages (n : Nat) : Nat → List Nat → List (Option (List Nat))
  | 0, _ => []
  | k + 1, ps => some (ps.take n) :: cutPages n k (ps.drop n)

/-- What HBM holds in pages; while a plate of theirs is being reset the keeper waits (R393). -/
def State.hbmRead (s : State) (ps : List Nat) : Except UnitStop (List Byte) :=
  if ps.any s.stackHeld then .error .later else .ok (s.hbmPages ps)

/-- The check pages of a record against their checks, and its participants. -/
def State.examineRecord (s : State) (bs : List Byte) (cps : List (Option (List Nat))) : Except UnitStop SealView := do
  let count := bytesNum bs 0x10 8
  let q := bytesNum bs 0x18 8
  let e := fld (bytesWord bs 0x20) 8 8
  let parts := (List.range q).map fun j => (List.range 16).map fun i => bytesWord bs (0x40 + 16 * e + 8 * count + 128 * j + 8 * i)
  let gone := (cps.filter (·.isNone)).length
  let view (status pages : Nat) : SealView := { n := fld (bytesWord bs 0) 32 32, status, pages := min pages (2 ^ 24 - 1), parts }
  if gone != 0 then return view 5 gone
  let contents ← cps.mapM fun c => s.hbmRead (c.getD [])
  if cps.any (fun c => (c.getD []).any fun p => (pageLines p).any s.poisoned) then return view 3 0
  let bad := ((List.range contents.length).zip contents).filter fun c => crc64 c.2 != bytesWord bs (0x40 + 16 * e + 8 * c.1)
  return view (if bad.isEmpty then 0 else 2) bad.length

/-- Examine a slot of a context. -/
def State.examine (s : State) (plate ctx slot : Nat) : Except UnitStop SealView := do
  let x := s.ctx ctx
  let kept := s.slotPages.get? (2 * ctx + slot)
  let pagesFor (n : Nat) : Except UnitStop (Option (List Nat)) := match kept with
    | some k => .ok (some (k.slot.take n))
    | none => return (← s.proofRange plate ctx (x.slotAt slot) n).toOption
  if x.prpState == 1 || x.prpState == 4 then return SealView.none' 4
  let some first ← pagesFor 1 | return SealView.none' 1
  let head ← s.hbmRead first
  if s.poisoned (first.headD 0) then return SealView.none' 3
  let len := bytesNum head 0x28 8
  if len < 0x40 || x.slotSz < len then return SealView.none' 1
  let some ps ← pagesFor ((len + 4095) / 4096) | return SealView.none' 1
  let all ← s.hbmRead ps
  if ((ps.flatMap pageLines).take ((len + 63) / 64)).any s.poisoned then return SealView.none' 3
  let bs := all.take len
  let w0 := bytesWord bs 0
  let count := bytesNum bs 0x10 8
  let g := fld (bytesWord bs 0x20) 0 6
  let e := fld (bytesWord bs 0x20) 8 8
  if crc64 (zeroWord bs 0x38) != bytesWord bs 0x38 || fld w0 0 16 != 1 || fld w0 16 16 != ctx ||
      len < 0x40 + 16 * e + 8 * count + 128 * bytesNum bs 0x18 8 then return SealView.none' 1
  let cps ← (match kept with
    | some k => .ok (cutPages (2 ^ (g - 12)) count k.pages)
    | none => s.checkedPages plate ctx g bs e)
  s.examineRecord bs cps

/-- PCHECK at the keeper. -/
def State.pcheck (s : State) (plate ctx slot : Nat) : Except UnitStop (State × Word) := do
  let v ← s.examine plate ctx slot
  let a := (s.ctx ctx).slotAt slot
  let s1 := s.updCtx ctx fun x =>
    if v.status == 0 && decide (x.prpi < v.n) then { x with prpi := v.n, prpa := a, prpState := 2 }
    else if v.status == 2 && x.prpa == a then { x with prpState := 3 }
    else x
  return (s1, word (v.n + v.status * 2 ^ 32 + v.pages * 2 ^ 40))

/-! ## Replay (R406, R414) -/

/-- Cells of the partition from a cell up, wrapping. -/
def State.cellsFrom (s : State) (ctx cell : Nat) : List Nat :=
  ((List.range 320).map fun i => (cell + i) % 320).filter fun c => s.holds ctx c

/-- Post a replayed task packet; none when no cell takes it. -/
def State.replayTask (s : State) (ctx cell : Nat) (ws : List Word) : Option State :=
  ((s.cellsFrom ctx cell).find? fun c => !s.retired c && decide ((s.barrel c).tasks.length < 64)).map fun c =>
    (s.updBarrel c fun b => { b with tasks := b.tasks ++ [{ ctx, words := ws }] }).dispatchFrom c

/-- Write a resume entry for a timed participant; none without a free entry. -/
def State.replayTimed (s : State) (ctx tick : Nat) (ws : List Word) : Option State :=
  let w (i : Nat) : Word := ws[i]?.getD 0
  let cells : Nat := (List.range 5).foldl (fun n i => n + (w (2 + i)).toNat * 2 ^ (64 * i)) 0
  let plate := plateOf (((List.range 320).find? fun c => (word (cells / 2 ^ c)).getLsbD 0).getD 0)
  let at' := max tick (s.tick.toNat + 131072)
  let e : BitVec 512 := BitVec.ofNat 512 (at' + cells * 2 ^ 64 + fld (w 0) 0 48 * 2 ^ 384 + fld (w 1) 0 7 * 2 ^ 435 + 2 ^ 445 + 2 ^ 446 + ctx * 2 ^ 496)
  match (List.range 256).find? fun i => !seArmed (s.entry plate i) with
  | none => none
  | some i => match execScheduleEntryWrite plate i e s with
    | .next s1 => some s1
    | _ => none

/-- PREST at the keeper. -/
def State.prest (s : State) (plate ctx slot tick : Nat) : Except UnitStop (State × Word) := do
  let busy := s.hasThreads ctx || s.cores.any fun c => c.2.ctx == ctx && c.2.run.occupied
  let v ← s.examine plate ctx slot
  if busy || v.status == 4 then return (s, 4)
  else if v.status != 0 then return (s, word v.status)
  else
    let a := (s.ctx ctx).slotAt slot
    let s1 := { s with impressions := s.impressions.erase ctx }.updCtx ctx fun x => { x with killed := false }
    let r := v.parts.foldl (fun (x : State × Nat × Nat × Nat) p =>
      let w0 := p.headD 0
      if fld w0 0 1 == 0 then match x.1.replayTask ctx (fld w0 16 9) (p.drop 8) with
        | some s => (s, x.2.1, x.2.2.1 + 1, x.2.2.2)
        | none => (x.1, x.2.1, x.2.2.1, x.2.2.2 + 1)
      else match x.1.replayTimed ctx tick (p.drop 8) with
        | some s => (s, x.2.1 + 1, x.2.2.1, x.2.2.2)
        | none => (x.1, x.2.1, x.2.2.1, x.2.2.2 + 1)) (s1, 0, 0, 0)
    let s2 := r.1.updCtx ctx fun x => { x with prpi := v.n, prpa := a, prpState := 2, prpOpen := false, prpImp := 0 }
    let s3 := if r.2.2.2 == 0 then s2
      else (s2.platesOf ctx).foldl (fun s p => s.postMessage p
        { kind := 0x32, cause := 0, cell := 0, thread := 0, ctx, pc := 0, val := word r.2.2.2 }) s2
    return (s3, word (r.2.1 * 2 ^ 8 + r.2.2.1 * 2 ^ 24 + r.2.2.2 * 2 ^ 40))

/-! ## The keeper's service -/

/-- The context that a selector names. -/
def selected (own : Nat) (sel : Word) : Nat := if fld sel 0 16 == 0xFFFF then own else fld sel 0 16

/-- Releases that have reached the keeper. -/
def State.markReached (s : State) (p : Release → Bool) : State :=
  { s with releases := s.releases.map fun (q : Release) => if p q then { q with reached := true } else q }

/-- Something arrives at the keeper, which serves it one period later. -/
def State.keeperArrive (s : State) (u : KeeperUser) : State :=
  { s with keeper := s.keeper ++ [(s.clk, u)] }.after 1 phNet 0 (.op .proofKeeperRequestService)

/-- One request at the keeper. What it reads for one it asks for, and serves others meanwhile (log entry 31). -/
def State.proofServe (s0 : State) (id : Nat) (r : Request) (op : Nat) (x y : Word) (func : Nat) : State :=
  let u := MemUnit.keeper id
  let s := s0.asUnit u false
  let answer (a : Except UnitStop (State × Word)) : State := match a with
    | .ok (s1, v) => (s1.dropUnit u).reply id portDie [v] none
    | .error (.fault c v) => (s.dropUnit u).reply id portDie [] (some (c, v))
    | .error stop => s.unitNeeds u stop
  let plate := plateOf r.cell
  if op == 0x78 then answer (s.propen r x y (func % 2 == 1))
  else if op == 0x79 then
    (s.markReached fun q => q.request == some id).checkReleases
  else if op == 0x7A then
    let st := s.sealStatus r.ctx x.toNat
    if st != 0 then s.reply id portDie [word st] none else (s.callSeal r.ctx (.request id) r.before).after 0 phNet 0 (.op (.sealPages r.ctx))
  else if op == 0x7B then answer (s.pcheck plate (selected r.ctx x) (fld x 16 1))
  else if op == 0x7C then answer (s.prest plate (selected r.ctx x) (fld x 16 1) y.toNat)
  else answer (s.prpt r x y (func % 2 == 1))

/-- PROOF_KEEPER_REQUEST_SERVICE (R395, R400): what arrived in an earlier period, in order. -/
def execProofKeeperRequestService (s : State) : Result :=
  let due := s.keeper.filter fun k => decide (k.1 < s.clk)
  let s1 : State := { s with keeper := s.keeper.filter fun (k : Nat × KeeperUser) => !decide (k.1 < s.clk) }
  .next (due.foldl (fun (s : State) (k : Nat × KeeperUser) => match k.2 with
    | .release id => s.markReached fun q => q.id == id
    | .request id => match s.requests.get? id with
      | none => s.dropUnit (.keeper id)
      | some r => match r.kind with
        | .proof op _ x y func => s.proofServe id r op x y func
        | _ => s) s1).checkReleases

/-! ## The barrel instructions (R411) -/

/-- Send the current instruction's request to the keeper, after every earlier access of the thread. -/
def State.proofSend (s : State) (op func : Nat) : State :=
  let r := s.request (.proof op s.d s.xa s.xb func) s.xa.toNat 0
  (s.enter { r with release := true }).enqueue s.nextId

/-- The proof domain of the thread's context is not enabled. -/
def State.proofOff (s : State) : Option (Nat × Word) := if (s.ctx s.th.ctx).pen then none else some (336, 0)

/-- PROPEN. -/
def execPropen (s : State) : Result :=
  s.bGuard (bufferFault 8 s.xb <|> s.proofOff) fun s => s.proofSend 0x78 s.curB.word.imm.toNat

/-- PREL (R396, R398): its number is taken at issue. -/
def execBarrelPrel (s : State) : Result :=
  let m := fbit s.curB.word.imm 0
  let none' := if m && !(s.ctx s.th.ctx).mirror then some (341, 0) else none
  s.bGuard (s.proofOff <|> none') fun s =>
    let t := s.th
    let r : Release := { id := s.nextId, agent := threadAgent t.uid, number := t.prIssued + 1, ctx := t.ctx, bound := s.nextId, mirrored := m,
                         request := some s.nextId, reached := false, live := true }
    (({ s with releases := s.releases ++ [r] }.updTh fun t => { t with prIssued := t.prIssued + 1 }).proofSend 0x79 s.curB.word.imm.toNat)

/-- PSEAL. -/
def execBarrelPseal (s : State) : Result := s.bGuard s.proofOff fun s => s.proofSend 0x7A 0

/-- A selector's faults. -/
def State.selectorFault (s : State) (only0 : Bool) : Option (Nat × Word) :=
  let sel := s.xa
  if fld sel 17 47 != 0 then some (337, sel)
  else if s.th.ctx != 0 && (only0 || selected s.th.ctx sel != s.th.ctx) then some (49, sel)
  else none

/-- PCHECK. -/
def execPcheck (s : State) : Result := s.bGuard (s.selectorFault false) fun s => s.proofSend 0x7B 0
/-- PREST. -/
def execPrest (s : State) : Result := s.bGuard (s.selectorFault true) fun s => s.proofSend 0x7C 0
/-- PRPT. -/
def execPrpt (s : State) : Result :=
  s.bGuard (bufferFault 64 s.xa <|> s.proofOff) fun s => s.proofSend 0x7D s.curB.word.imm.toNat

/-! ## The timed instructions (R415), SIGNAL -/

/-- PREL: its number lands at offset 1; copies issued in the same tick are covered. -/
def execPrel (g : Gate) (f : FormE) (s : State) : Result :=
  s.guarded g (s.syncFault (.prel g f)) fun s =>
    let cell := s.curT.cell
    let n := s.cur.clock.prIssued + 1
    let r : Release := { id := s.nextId, agent := timedAgent cell, number := n, ctx := s.cur.ctx, bound := 0, mirrored := fbit f.func 0,
                         request := none, reached := false, live := true }
    (({ s with releases := s.releases ++ [r], nextId := s.nextId + 1 }.updClock cell fun k => { k with prIssued := n }).fly 1
      [.s f.f1.toNat (n.setWidth 64)]).after 0 phNet cell (.release cell s.nextId)

/-- A timed release leaves its core at the end of its tick, and later arrives. -/
def State.releaseMoves (s : State) (cell id : Nat) : State :=
  match s.releases.find? fun r => r.id == id with
  | none => s
  | some r =>
    if r.bound != 0 then s.keeperArrive (.release id)
    else
      let bind' (x : Release) : Release := if x.id == id then { x with bound := s.nextId } else x
      { s with releases := s.releases.map bind' }.send (routerOf cell) portDie 0 phNet cell (.release cell id)

/-- PSEAL: its status lands at offset 1. -/
def execPseal (g : Gate) (f : FormE) (s : State) : Result :=
  s.guarded g (s.syncFault (.pseal g f)) fun s =>
    let cell := s.curT.cell
    let ctx := s.cur.ctx
    let st := s.sealStatus ctx (s.cur.s' f.f2.toNat).toNat
    let s1 := s.fly 1 [.s f.f1.toNat (word st)]
    if st != 0 then s1 else (s1.callSeal ctx (.core cell) (s.ctx ctx).prpState).send (routerOf cell) portDie 0 phNet cell (.op (.sealPages ctx))

/-- SIGNAL (09_windows R284): the wake arrives after the issue tick. -/
def execSignal (g : Gate) (f : FormE) (s : State) : Result :=
  s.guarded g (s.syncFault (.signal g f)) fun s =>
    let w := s.cur.s' f.f2.toNat
    let cell := fld w 0 9
    let t := fld w 16 6
    s.send (routerOf s.curT.cell) (routerOf cell) 2 phNet (cell * 64 + t)
      (.wake cell t (if s.cur.ctx == 0 then none else some s.cur.ctx) (some s.curT.cell))

/-- A wake arrives. -/
def State.wakeArrives (s : State) (cell t : Nat) (ctx signal : Option Nat) : State :=
  let r := s.wakeThread cell t ctx
  match signal with
  | some c => if r.1 == 0 then r.2.updClock c fun k => { k with siglost := k.siglost + 1 } else r.2
  | none => r.2

end Sys2Proof.Machine
end

