-- ==== Sys2Proof/Machine/Slices.lean ====
section
/-! DEFINITION. What serves global memory: cache slices, translation walks, the network ports of the vaults (14_fabric R419 to R434);
and what comes from other packages: link beats and messages (R436 to R441). -/

namespace Sys2Proof.Machine

open Sys2Proof

/-! ## Performing a request at its point (04_ordering R94) -/

/-- A request whose answer comes from memory performs: a poisoned read kills its thread (11_barrel_traps R343), else it is answered. -/
def State.performs (s : State) (id : Nat) (r : Request) : State :=
  if s.poisonAt r then s.answered id [] (some (380, word r.va))
  else
    let x := s.atPoint id r
    x.1.answered id x.2 none

/-! ## Slices (R424, R425) -/

/-- A write of a whole line needs nothing of what its line holds. -/
def Request.wholeLine (r : Request) : Bool := r.kind.writes && r.len == 64

/-- SLICE_REQUEST (R424, R425): requests to one line in arrival order; an absent line is fetched; a full miss table and a held line
(13_proof R402) make the request wait. -/
def execSliceRequest (request : Nat) (s : State) : Result :=
  match s.requests.get? request with
  | none => .next s
  | some r =>
    let line := lineOf r.pa
    let k := sliceOf r.pa
    let x := s.slice k
    let u := SliceUser.request request
    if r.stage != .away then .next s
    else if s.sliceHolds k u line r.kind.writes r.kind.writes then .next (s.sliceWaits k u)
    else if !s.lineReady k line && !r.wholeLine then
      .next (if x.misses.contains line || 256 ≤ x.misses.length then s.sliceWaits k u else (s.sliceWaits k u).fetchLine k line)
    else .next ((s.performs request r).sliceServed k u)

/-- SLICE_FILL (R425, R426): the line takes a way, and the accesses that wait look again; it waits itself while its set can give no way. -/
def execSliceFill (slice line : Nat) (s : State) : Result :=
  if !(s.slice slice).canTake line then .next (s.after 64 phNet slice (.op (.sliceFill slice line)))
  else .next (((s.updSlice slice fun x => { x with misses := x.misses.erase line }).takeWay slice line).sliceAgain slice)

/-! ## Walks (R432 to R434) -/

/-- Whom a walk's result goes to. -/
def State.walkDone (s : State) (id : Nat) (w : Walk) (r : Walked) : State :=
  match w.user, r with
  | .unit u, r => s.unitTranslated u id w r
  | .line cell line, .ok l => s.lineTranslated cell line (l.phys w.va)
  | .line cell line, .error c => s.lineRefused cell line c w.va
  | .prefetch cell, .ok l => s.prefetchAt cell (l.phys w.va)
  | .prefetch cell, .error _ => s.dropPrefetch cell
  | .request id, .ok l => s.requestTranslated id (l.phys w.va)
  | .request id, .error c => s.requestFaults id c (word w.va)
  | .fetch cell t uid, r => match (s.named cell t uid).filter fun x => x.wait == .fetch with
    | none => s
    | some x => match r with
      | .ok l => (s.updThread cell t fun x => { x with fetched := some (l.phys w.va) }).unblock cell t
      | .error 380 => s.killThread cell t 380 x.pc (word w.va) true
      | .error c => s.trapThread cell t c (word w.va) x.pc s.clk (s.clk + 1)

/-- TABLE_WALK (R432, R433): the walk goes on with the entries that its requests have brought, or asks for the next. -/
def execTableWalk (walk : Nat) (s : State) : Result :=
  let u := MemUnit.walk walk
  match s.walks.get? walk with
  | none => .next (s.dropUnit u)
  | some w => match (s.asUnit u false).walk w.plate w.ctx w.va w.write w.fetch with
    | .error stop => .next (s.unitNeeds u stop)
    | .ok r => .next (((s.dropUnit u).endWalk walk w r).walkDone walk w r)

/-- XINVC_INVALIDATE (R434): the leaves of the range leave every plate's cache, and no walk in flight caches its result. -/
def execXinvcInvalidate (s : State) : Result :=
  let k := s.pkg
  let gone (l : CachedLeaf) : Bool := l.ctx == k.xinvCtx && (k.xinvCount == 0 || meets l.base l.size k.xinva (k.xinvCount * 4096))
  let keep (w : Walk) : Walk := if w.ctx == k.xinvCtx then { w with caches := false } else w
  let s1 : State := { s with walks := s.walks.map fun (w : Nat × Walk) => (w.1, keep w.2) }
  .next (s1.updPkg fun k => { k with cached := k.cached.filter (fun l => !gone l), xinvBusy := false })

/-! ## Network ports of the vaults (R419) -/

/-- A request has its turn at a network port: it reads the memory of the period before (04_ordering R96), and what it writes follows the
timed ports of its period. -/
def State.vaultTurn (s : State) (id : Nat) (r : Request) : State :=
  if r.stage != .away then s
  else if !r.kind.writes then s.performs id r
  else if s.poisonAt r then s.answered id [] (some (380, word r.va))
  else s.after 0 phNet (r.cell * 64 + r.thread) (.vaultPerform id (s.mem.num r.pa r.len))

/-- A request that writes performs at its network port. -/
def State.vaultWrites (s : State) (id old : Nat) : State :=
  match s.requests.get? id with
  | none => s
  | some r =>
    let x := s.atPointWith id r old
    x.1.answered id x.2 none

/-- A line of a tagged copy has its turn: one that is read performs now, one that is written after the timed ports. -/
def State.vaultLine (s : State) (cell line : Nat) : Result :=
  match s.userLine (.line cell line) with
  | some (_, false) => execTaggedCopyLine cell line s
  | some (_, true) => .next (s.after 0 phNet cell (.op (.taggedCopyLine cell line)))
  | none => .next s

/-- VAULT_NETWORK_PORT_SERVICE: one access per tick, oldest first. -/
def execVaultNetworkPortService (cluster bank : Nat) (s : State) : Result :=
  let v := cluster * 128 + bank
  match s.vaultPorts.getD v [] with
  | [] => .next s
  | u :: us =>
    let s1 : State := { s with vaultPorts := if us.isEmpty then s.vaultPorts.erase v else s.vaultPorts.set v us }
    let s2 := if us.isEmpty then s1 else s1.after 1 phLand (vaultKey v) (.op (.vaultNetworkPortService cluster bank))
    match u with
    | .line cell line => s2.vaultLine cell line
    | .prefetch _ | .fetch .. | .unit _ => .next s2
    | .request id => match s2.requests.get? id with
      | some r => .next (s2.vaultTurn id r)
      | none => .next s2

/-! ## Messages (10_barrel R323, R324; R441) -/

/-- Put a message into a receive queue: a RECV that waits takes it; false when the queue is full. -/
def State.putMessage (s : State) (cell t : Nat) (m : BarrelMessage) : Bool × State :=
  match s.thread? cell t with
  | none => (true, s)
  | some x => match x.wait with
    | .recv d a n scope => (true, (s.acquireMessage cell t m scope).completes cell t (m.received d a n))
    | _ => if 8 ≤ x.inbox.length then (false, s) else (true, s.updThread cell t fun x => { x with inbox := x.inbox ++ [m] })

/-- Job id of the package's own entry of the package map, if it is valid (R440). -/
def State.ownJob (s : State) : Option (BitVec 24) :=
  (s.pkg.map.get? s.pkg.domPos).bind fun e => if e.getLsbD 191 then some (e.extractLsb' 128 24) else none

/-- REMOTE_MESSAGE_ARRIVAL (R441): accepted into the named slot, or discarded; a full queue makes the sender try again. -/
def execRemoteMessageArrival (message : RemoteMessage) (s : State) : Result :=
  match s.thread? message.cell message.thread with
  | none => .next s
  | some x =>
    if x.ctx != message.ctx || s.ownJob != some message.job then .next s
    else
      let id : Word := word (fld message.sender 0 9 + fld message.sender 16 6 * 2 ^ 16 + message.position % 64 * 2 ^ 32 + 2 ^ 38)
      .next (s.putMessage message.cell message.thread { sender := id, words := message.words, release := none }).2

/-- DELIVERY_CONTEXT_FAILURE (R441): the SEND to another package traps. -/
def execDeliveryContextFailure (cell thread : Nat) (s : State) : Result :=
  match s.thread? cell thread with
  | none => .next s
  | some x => match x.wait with
    | .request id => match s.requests.get? id with
      | some r => match r.kind with
        | .remoteSend _ _ target _ => .next (s.requestFaults id 372 target)
        | _ => .next s
      | none => .next s
    | _ => .next s

/-! ## Link beats (R437, R438) -/

/-- The class that carries a beat. -/
def beatClass (b : BeatBody) : Nat :=
  match b with
  | .partialResult .. => clsCollective
  | .mirrorLine .. | .mirrorAck _ => clsMirror
  | .counter _ | .domainArrival .. => clsCounter
  | .abort .. => clsControl

/-- A piece of a partial joins those that have come: a package's partials of one name come one after another. -/
def joinPieces (p : RemotePartial) : List RemotePartial → List RemotePartial
  | [] => [p]
  | q :: t =>
    if q.ctx == p.ctx && q.gang == p.gang && q.id == p.id && q.place == p.place && q.attempt == p.attempt && !q.whole then
      { q with pieces := p.pieces.foldl (fun (t : Table (List Byte)) x => t.set x.1 x.2) q.pieces } :: t
    else q :: joinPieces p t

/-- A partial has come whole for an instance that has ended here (R450). -/
def State.tooLate (s : State) (p : RemotePartial) : Bool :=
  p.whole && decide (p.order < s.pkg.begun.getD (nameKey p.ctx p.gang p.id p.place) 0) && !s.pkg.colls.any fun x => x.meets p

/-- A collective beat comes in (R446, R448). -/
def State.partialArrives (s : State) (p : RemotePartial) : State :=
  if s.stale p.ctx p.id p.attempt then s.updPkg fun k => { k with collDrop := k.collDrop + 1 }
  else
    let s0 := s.advance p.ctx p.id p.attempt
    let key := nameKey p.ctx p.gang p.id p.place
    let n := s0.pkg.came.getD key 0
    let ps := joinPieces { p with order := n } s0.pkg.partials
    let came := if ps.length == s0.pkg.partials.length then s0.pkg.came else s0.pkg.came.set key (n + 1)
    let s1 := s0.updPkg fun k => { k with came, partials := ps.filter fun q => !s0.tooLate q }
    (s1.pkg.colls.filter fun x => x.ctx == p.ctx && x.gang == p.gang && x.id == p.id && x.attempt == p.attempt).foldl (fun s x => s.tryInstance x) s1

/-- A beat for this package is delivered. -/
def State.beatArrives (s : State) (b : BeatBody) : State :=
  match b with
  | .partialResult ctx gang id rank size attempt words total offset bytes flags =>
    s.partialArrives { ctx, gang, id, place := (maskPlaces (wordAt words 2)).getD rank 0, order := 0, size, attempt, words, total,
                       pieces := [(offset, bytes)], flags }
  | .mirrorLine sender number address data => s.mirrorWrite sender number address data
  | .mirrorAck number => s.mirrorAcked number
  | .counter _ => s
  | .domainArrival gang barrier position tick =>
    s.updPkg fun k => { k with domBars := noteArrival gang barrier position tick k.domBars }
  | .abort ctx id attempt => s.advance ctx id attempt

/-- A beat is delivered (R438): one for another package goes on in its class. -/
def State.beatDelivered (s : State) (b : Beat) : State :=
  if b.destination != s.pkg.domPos then s.sendBeat (beatClass b.body) b.destination b.body else s.beatArrives b.body

/-- The beats of a port whose delivery TICK has come, in their order. -/
def State.deliverBeats (s : State) (port : Nat) : State :=
  let l := s.link port
  let due (b : Beat) : Bool := decide (b.sent.toNat + l.lat ≤ s.tick.toNat)
  (l.arriving.filter due).foldl (fun s b => s.beatDelivered b) (s.updLink port fun l => { l with arriving := l.arriving.filter fun b => !due b })

/-- LINK_BEAT_DELIVERY (R438): a beat comes in at a port. A bad or late one is dropped with a message; another is delivered when TICK
reaches its sender's TICK and the declared latency, never earlier. A counter is compared as it comes in, after the measured latency
(09_windows R251, log entry 32). -/
def execLinkBeatDelivery (port : Nat) (good : Bool) (beat : Beat) (s : State) : Result :=
  let l := s.link port
  let due := beat.sent.toNat + l.lat
  if !good || decide (due < s.tick.toNat) then
    .next ((s.updLink port fun l => { l with err := l.err + 1 }).postMessage 0
      { kind := 0x40, cause := 373, cell := 0, thread := 0, ctx := 0, pc := 0, val := word port })
  else match beat.body with
    | .counter t => execCounterExchange (t + word (Config.linkLatency port) - s.tick) s
    | _ => .next (if s.tick.toNat < due then s.updLink port fun l => { l with arriving := l.arriving ++ [beat] } else s.beatDelivered beat)

end Sys2Proof.Machine
end

