-- ==== Sys2Proof/Machine/Arrivals.lean ====
section
/-! DEFINITION. Requests at their cells: scratchpad banks and full-empty words (10_barrel R295 to R299), window accesses (04_ordering
R111, 09_windows R261), and the supervisor mailbox (11_barrel_traps R347). -/

namespace Sys2Proof.Machine

open Sys2Proof

/-! ## Scratchpad banks (R295, R296) -/

def scratchBank (pa : Nat) : Nat := pa / 8 % 16
/-- The number of a bank's queue. -/
def bankKey (cell bank : Nat) : Nat := cell * 16 + bank

/-- Rank of a request at a bank: the period it reached it, local before network, thread, source cell. -/
def State.bankRank (s : State) (r : Request) : Nat := ((s.clk * 2 + (if r.sp then 0 else 1)) * 64 + r.thread) * 512 + r.cell

/-- A bank's queue takes a request by its rank. -/
def State.bankTakes (s : State) (cell bank rank id due : Nat) : State :=
  let k := bankKey cell bank
  { s with scratchPorts := s.scratchPorts.set k (insertRank (rank, id) (s.scratchPorts.getD k [])) }.at' due phDispatch k
    (.op (.scratchpadBankService cell bank))

/-- A request reaches a scratchpad: each of its words waits for its bank. -/
def State.reachesBanks (s : State) (id : Nat) (r : Request) : State :=
  (List.range r.turns).foldl (fun s i => s.bankTakes (scratchCell r.pa) (scratchBank (r.pa + 8 * i)) (s.bankRank r) id s.clk) s

/-- A full-empty request waits at its word (R299). -/
def State.parksAt (s : State) (id : Nat) (r : Request) (front : Bool) : State :=
  let q := s.parked.getD r.pa []
  let s1 : State := { s with parked := s.parked.set r.pa (if front then id :: q else q ++ [id]) }
  let s2 := s1.updReq id fun r => { r with stage := .parked }
  let s3 := if r.sp then s2 else if (s.named r.cell r.thread r.uid).isSome then s2.updThread r.cell r.thread fun t => { t with state := .parked } else s2
  if front then s3 else s3.after (2 ^ r.felim) phNet 0 (.op (.fullEmptyTimeout id))

/-- A word may have changed its full-empty state. -/
def State.fullChanged (old s : State) (pa : Nat) : State :=
  if old.full.contains pa == s.full.contains pa then s
  else s.after 0 phDispatch (bankKey (scratchCell pa) (scratchBank pa)) (.op (.fullEmptyServe (scratchCell pa) pa))

/-- One turn of a request of several words. -/
def State.wordTurn (s : State) (id : Nat) (r : Request) (bank : Nat) : State :=
  let i := (bank + 16 - scratchBank r.pa) % 16
  let pa := r.pa + 8 * i
  let reads : Bool := match r.kind with
    | .taskGet .. => false
    | _ => true
  let s1 := match r.kind with
    | .taskGet _ _ ws => s.writePhys pa 8 (ws[i]?.getD 0).toNat (threadAgent r.uid) id false
    | _ => s
  let bad := if reads && s.pkg.poison.contains pa && r.fault.isNone then some (380, word (r.va + 8 * i)) else r.fault
  let r1 : Request := { r with turns := r.turns - 1, answer := r.answer.set i (word (s.mem.num pa 8)), fault := bad }
  let s2 := (if reads then s1.readLatest r pa 8 else s1.sees r.who pa 8).updReq id fun _ => r1
  if 0 < r1.turns then s2 else s2.answered id (if reads then r1.answer else [1]) r1.fault

/-- A request's turn at a bank. -/
def State.bankTurn (s : State) (id : Nat) (r : Request) (bank rank : Nat) : State :=
  match r.kind with
  | .packet .. | .record .. | .taskGet .. => s.wordTurn id r bank
  | _ => match s.fullEmpty id r with
    | none => s.parksAt id r (rank == 0)
    | some x => if s.poisonAt r then s.answered id [] (some (380, word r.va)) else (s.fullChanged x.1 r.pa).answered id x.2 none

/-- SCRATCHPAD_BANK_SERVICE (R296): one turn of the oldest request. -/
def execScratchpadBankService (cell bank : Nat) (s : State) : Result :=
  let k := bankKey cell bank
  match s.scratchPorts.getD k [] with
  | [] => .next s
  | q :: qs =>
    let s1 : State := { s with scratchPorts := if qs.isEmpty then s.scratchPorts.erase k else s.scratchPorts.set k qs }
    let s2 := if qs.isEmpty then s1 else s1.after 1 phDispatch k (.op (.scratchpadBankService cell bank))
    match s2.requests.get? q.2 with
    | some r => .next (if r.stage == .away then s2.bankTurn q.2 r bank q.1 else s2)
    | none => .next s2

/-- Whether a waiting full-empty request can proceed. -/
def State.canServe (s : State) (id : Nat) : Bool :=
  match s.requests.get? id with
  | some r => (s.fullEmpty id r).isSome
  | none => false

/-- FULL_EMPTY_SERVE (R299): the oldest request that can proceed takes the bank's next turn. -/
def execFullEmptyServe (cell word : Nat) (s : State) : Result :=
  let q := s.parked.getD word []
  match q.find? s.canServe with
  | none => .next s
  | some id =>
    let rest := q.erase id
    let s1 : State := { s with parked := if rest.isEmpty then s.parked.erase word else s.parked.set word rest }
    .next ((s1.updReq id fun r => { r with stage := .away }).bankTakes cell (scratchBank word) 0 id (s.clk + 1))

/-- FULL_EMPTY_TIMEOUT (R299). -/
def execFullEmptyTimeout (request : Nat) (s : State) : Result :=
  match s.requests.get? request with
  | none => .next s
  | some r =>
    let q := s.parked.getD r.pa []
    if r.stage == .parked && q.contains request then
      let rest := q.erase request
      let s1 : State := { s with parked := if rest.isEmpty then s.parked.erase r.pa else s.parked.set r.pa rest }
      .next (s1.answered request [] (some (57, word r.va)))
    else .next s

/-! ## Window accesses (R111, R261) -/

/-- Whether an open window accepts a request. -/
def State.windowAccepts (s : State) (r : Request) (n : Nat) (bytes : Bool) : Bool :=
  let c := storeCell r.pa
  let w := (s.core c).window n
  let run := (s.core c).run
  let off := (r.pa - 0x020000000000) % 2 ^ 22
  inStoreStep r.pa && w.openNow s.tick && !s.turnsAway c && run != .contained && run != .preempted &&
    (!bytes || (decide (w.base.toNat ≤ off) && decide (off + 8 ≤ w.base.toNat + w.size.toNat)))

/-- An accepted post; the last expected one ends a window stall (R265). -/
def State.posts (s : State) (cell n k : Nat) (v : Word) : State :=
  let w := (s.core cell).window n
  let w1 : Window := { w with pst := w.pst.setIfInBounds k v, rcvd := w.rcvd ||| BitVec.twoPow 4 k }
  let s1 := s.setWindow cell n w1
  if w.stalling && w1.hit then s1.after 1 phTick (2048 + cell * 16 + n) (.op (.windowClose cell n)) else s1

/-- WINDOW_ACCESS_ARRIVAL (R111, R261). -/
def execWindowAccessArrival (request : Nat) (s : State) : Result :=
  match s.requests.get? request with
  | none => .next s
  | some r =>
    let refused : State := s.answered request [] (some (177, word r.va))
    match r.kind with
    | .wpost n k x =>
      .next (if s.windowAccepts r n false then (s.posts (storeCell r.pa) n k x).answered request [] none else refused)
    | .wld _ n | .wst n _ => .next (if s.windowAccepts r n true then s.performs request r else refused)
    | _ => .next s

/-! ## The supervisor mailbox (R347) -/

/-- Word 0 of an entry. -/
def Message.word0 (m : Message) (seq : BitVec 16) : Word :=
  word (m.kind * 2 ^ 56 + m.cause * 2 ^ 47 + m.cell * 2 ^ 38 + m.thread % 64 * 2 ^ 32 + m.ctx * 2 ^ 16 + seq.toNat)

/-- Post a message (R347). -/
def State.post (s : State) (plate : Nat) (m : Message) : State :=
  let p := s.plate plate
  let mbox := scratchBase p.supCell + p.supBox
  let e := mbox + 32 * p.mbNext
  let put (s : State) (a : Nat) (w : Word) : State := s.writePhys a 8 w.toNat mailboxAgent s.nextId false
  if !p.supEn then s.updPlate plate fun p => { p with mbOff := p.mbOff + 1 }
  else if s.full.contains e then put s (mbox + 0x800) (word (s.mem.num (mbox + 0x800) 8) + 1)
  else
    let s1 := put (put (put (put s (e + 8) m.pc) (e + 16) m.val) (e + 24) s.tick) e (m.word0 p.mbSeq)
    let s2 : State := { s1 with full := insertNat e s1.full }
    ((s.fullChanged s2 e).updPlate plate fun p => { p with mbNext := (p.mbNext + 1) % 64, mbSeq := p.mbSeq + 1 }).wakeThread
      p.supCell p.supThread none |>.2

/-- MAILBOX_POST (R347): the poster's oldest message. -/
def execMailboxPost (plate : Nat) (s : State) : Result :=
  match (s.plate plate).queue with
  | [] => .next s
  | m :: ms =>
    let s1 := (s.updPlate plate fun p => { p with queue := ms }).post plate m
    .next (if ms.isEmpty then s1 else s1.after 1 phNet plate (.op (.mailboxPost plate)))

end Sys2Proof.Machine
end

