-- ==== Sys2Proof/Machine/Sha.lean ====
section
/-! DEFINITION. SHA-512 of a byte string, which the measurement registers use (16_host R467). -/

namespace Sys2Proof.Machine

open Sys2Proof

/-- The largest number of at most 67 bits whose power of `e` does not exceed `n`. -/
def intRoot (e n : Nat) : Nat :=
  (List.range 67).foldl (fun x i => if (x + 2 ^ (66 - i)) ^ e ≤ n then x + 2 ^ (66 - i) else x) 0

/-- The first 80 primes. -/
def shaPrimes : List Nat :=
  [2, 3, 5, 7, 11, 13, 17, 19, 23, 29, 31, 37, 41, 43, 47, 53, 59, 61, 67, 71, 73, 79, 83, 89, 97, 101, 103, 107, 109, 113] ++
  [127, 131, 137, 139, 149, 151, 157, 163, 167, 173, 179, 181, 191, 193, 197, 199, 211, 223, 227, 229, 233, 239, 241, 251, 257] ++
  [263, 269, 271, 277, 281, 283, 293, 307, 311, 313, 317, 331, 337, 347, 349, 353, 359, 367, 373, 379, 383, 389, 397, 401, 409]

/-- Fractions of cube roots: the round constants; of square roots: the first hash value. -/
def shaRound : List Word := shaPrimes.map fun p => BitVec.ofNat 64 (intRoot 3 (p * 2 ^ 192))
def shaStart : List Word := (shaPrimes.take 8).map fun p => BitVec.ofNat 64 (intRoot 2 (p * 2 ^ 128))

def shaS (x : Word) (a b c : Nat) : Word := x.rotateRight a ^^^ x.rotateRight b ^^^ x.rotateRight c
def shaT (x : Word) (a b c : Nat) : Word := x.rotateRight a ^^^ x.rotateRight b ^^^ (x >>> c)

/-- The message schedule, newest word first. -/
def shaSchedule : Nat → List Word → List Word
  | 0, w => w
  | n + 1, w =>
    let g (i : Nat) : Word := w[i]?.getD 0
    shaSchedule n ((shaT (g 1) 19 61 6 + g 6 + shaT (g 14) 1 8 7 + g 15) :: w)

/-- The eight working variables. -/
structure ShaState where
  a : Word
  b : Word
  c : Word
  d : Word
  e : Word
  f : Word
  g : Word
  h : Word

def ShaState.round (x : ShaState) (kw : Word × Word) : ShaState :=
  let t1 := x.h + shaS x.e 14 18 41 + ((x.e &&& x.f) ^^^ (~~~x.e &&& x.g)) + kw.1 + kw.2
  let t2 := shaS x.a 28 34 39 + ((x.a &&& x.b) ^^^ (x.a &&& x.c) ^^^ (x.b &&& x.c))
  { a := t1 + t2, b := x.a, c := x.b, d := x.c, e := x.d + t1, f := x.e, g := x.f, h := x.g }

/-- Big-endian word of eight bytes. -/
def beWord (bs : List Byte) : Word := BitVec.ofNat 64 (bs.foldl (fun x b => x * 256 + b.toNat) 0)

/-- One block of 128 bytes. -/
def shaBlock (h : List Word) (bs : List Byte) : List Word :=
  let w0 := ((List.range 16).map fun i => beWord ((bs.drop (8 * i)).take 8)).reverse
  let w := (shaSchedule 64 w0).reverse
  let g (i : Nat) : Word := h[i]?.getD 0
  let x := (shaRound.zip w).foldl ShaState.round { a := g 0, b := g 1, c := g 2, d := g 3, e := g 4, f := g 5, g := g 6, h := g 7 }
  (h.zip [x.a, x.b, x.c, x.d, x.e, x.f, x.g, x.h]).map fun p => p.1 + p.2

/-- A message with its padding. -/
def shaPad (bs : List Byte) : List Byte :=
  let n := bs.length
  bs ++ [0x80#8] ++ List.replicate ((239 - n % 128) % 128) 0 ++ (leBytes (8 * n) 16).reverse

/-- SHA-512: the digest's bytes. -/
def sha512 (bs : List Byte) : List Byte :=
  let p := shaPad bs
  ((List.range (p.length / 128)).foldl (fun h i => shaBlock h ((p.drop (128 * i)).take 128)) shaStart).flatMap fun w => (leBytes w.toNat 8).reverse

/-- 64 bytes as a number, byte 0 lowest, and back. -/
def ofBytes64 (bs : List Byte) : BitVec 512 := BitVec.ofNat 512 (bs.foldr (fun b x => x * 256 + b.toNat) 0)
def toBytes64 (x : BitVec 512) : List Byte := leBytes x.toNat 64

/-- SHA-512(MR || d). -/
def extendMr (mr d : BitVec 512) : BitVec 512 := ofBytes64 (sha512 (toBytes64 mr ++ toBytes64 d))

end Sys2Proof.Machine
end

