-- ==== Sys2Proof/Machine/Moves.lean ====
section
/-! DEFINITION. Migration of threads and the comparison of paired threads (11_barrel_traps R349 to R357). -/

namespace Sys2Proof.Machine

open Sys2Proof

/-! ## CLOAD (R350) -/

/-- The load byte of a cell. -/
def State.loadByte (s : State) (cell : Nat) : Nat :=
  let b := s.barrel cell
  let runnable (t : Thread) : Bool := t.state == .runnable && !(t.canIssue s.clk && s.sfnHolds cell t)
  (b.threads.filter fun t => runnable t.2).length + (if b.freeSlot.isSome && (b.firstFit 8).isSome then 128 else 0)

/-- CLOAD_SAMPLE: every cluster's loads; in the next tick the cores with migration enabled choose. -/
def execCloadSample (s : State) : Result :=
  let sample (k : Nat) : Word := word ((List.range 8).foldl (fun n p => n + s.loadByte (8 * k + p) * 2 ^ (8 * p)) 0)
  let s1 : State := { s with cload := (List.range 40).map fun (k : Nat) => (k, sample k) }
  .next ((s.barrels.filter fun (b : Nat × BarrelCore) => b.2.migEn).foldl (fun (s : State) (b : Nat × BarrelCore) =>
    s.after 1 phNet b.1 (.op (.migrationChoice b.1))) s1)

def State.cloadByte (s : State) (cell : Nat) : Nat := fld (s.cload.getD (clusterOf cell) 0) (8 * posOf cell) 8

/-- The idlest core of a cell's cluster for a thread of a context. -/
def State.idlest (s : State) (ctx cell : Nat) : Option Nat :=
  let ok (c : Nat) : Bool := s.holds ctx c && !s.retired c && c != cell && decide (128 ≤ s.cloadByte c)
  (((List.range 8).map fun p => clusterOf cell * 8 + p).filter ok).foldl (fun (m : Option Nat) c => match m with
    | some b => if s.cloadByte c < s.cloadByte b then some c else some b
    | none => some c) none

/-! ## Moving (R351, R352) -/

/-- Whether a thread may be moved. -/
def State.eligible (s : State) (cell t : Nat) (x : Thread) : Bool :=
  let p := s.plate (plateOf cell)
  x.state == .runnable && x.fault.isNone && x.level == 0 && !(s.barrel cell).queued x.uid && (s.outstanding x.uid).isEmpty && x.spcnt == 0 &&
  x.inbox.isEmpty && !x.wake && x.live == 0 && x.pair.isNone && !x.sampler && !(p.supEn && p.supCell == cell && p.supThread == t)

/-- MIGRATION_CHOICE (R351): the eligible thread in the highest slot, once its results have landed. -/
def execMigrationChoice (cell : Nat) (s : State) : Result :=
  let b := s.barrel cell
  match (b.threads.filter fun t => t.2.auto && s.eligible cell t.1 t.2).getLast? with
  | none => .next s
  | some (t, x) => match s.idlest x.ctx cell with
    | none => .next s
    | some c =>
      let l := s.cloadByte cell % 128
      if b.migEn && decide (b.migHi < l) && decide (s.cloadByte c % 128 + b.migDiff ≤ l) then
        .next ((s.updThread cell t fun x => { x with state := .migrating, wait := .migrate 0 (posOf c) }).at' (max (s.clk + 1) x.ready) phNet
          (cell * 64 + t) (.op (.migrationReservation cell t)))
      else .next s

/-- MIGRATION_RESERVATION (R352): the target takes a slot and a run and the thread sets out, or it declines, as a retired cell does
(01_machine R12). A sampler that waits there takes its run first (12_draft R374). -/
def execMigrationReservation (cell thread : Nat) (s0 : State) : Result :=
  match s0.thread? cell thread with
  | none => .next s0
  | some x => match x.wait with
    | .migrate d p =>
      let target := (if p == 8 then s0.idlest x.ctx cell else some (clusterOf cell * 8 + p)).filter fun c => !s0.retired c
      let s := target.elim s0 s0.startSampler
      let decline : Result := .next (s.completes cell thread [.reg d 0])
      match target with
      | none => decline
      | some c => match (s.barrel c).freeSlot, (s.barrel c).firstFit x.count with
        | some slot, some base =>
          let r : Reservation := { uid := x.uid, slot, base, count := x.count }
          .next (((s.updBarrel c fun b => { b with reserved := b.reserved ++ [r] }).updThread cell thread fun x =>
            { x with state := .migrating, wait := .migrate d (posOf c) }).send (routerOf cell) (routerOf c) 3 phNet (cell * 64 + thread)
            (.op (.migrationArrival cell thread)))
        | _, _ => decline
    | _ => .next s0

/-- Reservations of a cluster whose thread no longer runs are given back. -/
def State.dropReserved (s : State) (cluster : Nat) : State :=
  let cells := (List.range 8).map fun p => 8 * cluster + p
  let alive (u : Nat) : Bool := cells.any fun c => (s.barrel c).threads.any fun t => t.2.uid == u
  cells.foldl (fun s c =>
    if (s.barrel c).reserved.all fun r => alive r.uid then s
    else (s.updBarrel c fun b => { b with reserved := b.reserved.filter fun r => alive r.uid }).dispatchFrom c) s

/-- A thread as it arrives (R352 step 4). -/
def Thread.arrived (x : Thread) (base ready : Nat) : Thread :=
  { x with state := .runnable, wait := .none, base, ready, issued := 0, yields := [], live := 0, killed := 0, level := 0, wake := false,
           inbox := [], senders := [] }

/-- MIGRATION_ARRIVAL (R352). A target retired since it accepted takes no thread (01_machine R12): the thread stays, as when it declines
(log entry 50). The token a thread holds stands where it runs (12_draft R378). -/
def execMigrationArrival (cell thread : Nat) (s : State) : Result :=
  match s.thread? cell thread with
  | none => .next (s.dropReserved (clusterOf cell))
  | some x => match x.wait with
    | .migrate d p =>
      let c := clusterOf cell * 8 + p
      match (s.barrel c).reserved.find? fun r => r.uid == x.uid with
      | none => .next (s.dropReserved (clusterOf cell))
      | some r => if s.retired c then
          .next ((s.updBarrel c fun b => { b with reserved := b.reserved.filter fun q => q.uid != x.uid }).completes cell thread [.reg d 0])
        else
        let regs := (List.range x.count).map fun n => (n, (s.barrel cell).read x.base n)
        let held (g : ServingGroup) : ServingGroup :=
          if g.holder == some (cell, thread, x.uid) then { g with cell := c, holder := some (c, r.slot, x.uid) } else g
        let s1 : State := { s with groups := s.groups.map held }
        let s2 := s1.updBarrel c fun b => { b with
          reserved := b.reserved.filter fun q => q.uid != x.uid
          threads := b.threads.set r.slot (x.arrived r.base (s.clk + 1)) }
        let s3 := regs.foldl (fun s v => s.updBarrel c fun b => b.write r.base v.1 v.2) s2
        .next (((s3.freeThread cell thread).landAt c r.slot s.clk x.issued [.reg d 1]).issueFrom c (s.clk + 1))
    | _ => .next (s.dropReserved (clusterOf cell))

/-! ## Paired threads (R355, R357) -/

/-- What a request carries to its router: a code for its kind, and its data. -/
def RequestKind.image (k : RequestKind) : Nat × List Word :=
  match k with
  | .load _ size sx => (0x38, [word size, wordBool sx])
  | .store size x => (0x39, [word size, x])
  | .lde _ f => (0x3A, [wordBool f])
  | .ste x f => (0x3B, [x, wordBool f])
  | .ldp _ => (0x3C, [])
  | .amo _ op size sx x => (0x3D, [word op, word size, wordBool sx, x])
  | .cas _ size sx e x => (0x3E, [word size, wordBool sx, e, x])
  | .wld _ n => (0x40, [word n])
  | .wst n x => (0x41, [word n, x])
  | .wpost n p x => (0x42, [word n, word p, x])
  | .spill x => (0x54, [x.setWidth 64])
  | .refill => (0x56, [])
  | .wake _ c t => (0x5C, [word c, word t])
  | .send _ c t ws .. => (0x60, word c :: word t :: ws)
  | .remoteSend _ _ target ws => (0x60, target :: ws)
  | .record _ t ws => (0x62, word t :: ws)
  | .packet _ c _ => (0x5E, [word c])
  | .taskPut _ c ws => (0x5E, word c :: ws)
  | .taskGet _ _ ws => (0x5D, ws)
  | .suffix op _ x y z func => (op, [x, y, z, word func])
  | .sample _ j req => (0x77, [j, wordBool req])
  | .proof op _ x y func => (op, [x, y, word func])
  | .unit .. => (0, [])

/-- A request's hash: kind, size, ordering and scope as bytes, then address and data as words (log entry 10). -/
def Request.hash (r : Request) : Word :=
  let k := r.kind.image
  crc64 ([BitVec.ofNat 8 k.1, BitVec.ofNat 8 r.len, BitVec.ofNat 8 r.ord, BitVec.ofNat 8 r.scope] ++ leBytes r.va 8 ++
    k.2.flatMap fun w => leBytes w.toNat 8)

/-- A request waits at its comparison, and has reached it. -/
def Request.compared (r : Request) : Option Nat :=
  match r.stage with
  | .comparing t => t
  | _ => none

/-- The shadow's request beside a primary's: the shadow's thread is named just before the primary's. -/
def State.shadowOf (s : State) (r : Request) : Option (Nat × Request) :=
  if r.index < 2 || r.index % 2 == 1 then none else s.requests.find? fun q => q.2.uid + 1 == r.uid && q.2.index == r.index + 1

/-- The primary's request beside a shadow's. -/
def State.primaryOf (s : State) (r : Request) : Option (Nat × Request) :=
  if r.index < 2 || r.index % 2 == 0 then none else s.requests.find? fun q => r.uid + 1 == q.2.uid && q.2.index + 1 == r.index

/-- Kill both threads of a pair as one event (R357). -/
def State.killPair (s : State) (cell thread cause : Nat) (primary shadow : Word) : State :=
  match s.thread? cell thread with
  | none => s
  | some x => match x.pair with
    | none => s
    | some p =>
      let at' := x.primaryAt cell thread
      let s1 := s.postMessage (plateOf at'.1) { kind := 0x09, cause, cell := at'.1, thread := at'.2, ctx := x.ctx, pc := primary, val := shadow }
      let s2 := s1.killThread cell thread cause x.pc 0 false
      match s2.thread? p.cell p.thread with
      | some y => if y.pair.any fun q => q.cell == cell && q.thread == thread then s2.killThread p.cell p.thread cause y.pc 0 false else s2
      | none => s2

/-- A request of a paired thread reaches the primary's router. -/
def State.reachesPair (s : State) (id : Nat) (r : Request) : State :=
  let s1 := s.updReq id fun r => { r with stage := .comparing (some s.clk) }
  match (s.shadowOf r).filter (fun q => q.2.compared.isSome), (s.primaryOf r).filter (fun q => q.2.compared.isSome) with
  | some _, _ => s1.after 0 phNet (r.cell * 64 + r.thread) (.op (.pairedComparison r.cell r.thread))
  | none, some q => s1.after 0 phNet (q.2.cell * 64 + q.2.thread) (.op (.pairedComparison q.2.cell q.2.thread))
  | none, none => s1.after 65536 phNet (r.cell * 64 + r.thread) (.op (.pairedTimeout r.cell r.thread))

/-- PAIRED_COMPARISON (R355): equal requests go on as the primary's alone. -/
def execPairedComparison (cell thread : Nat) (s : State) : Result :=
  let ready := s.requests.findSome? fun (p : Nat × Request) =>
    if p.2.cell == cell && p.2.thread == thread && p.2.compared.isSome then
      ((s.shadowOf p.2).filter fun q => q.2.compared.isSome).map fun q => (p, q)
    else none
  match ready with
  | none => .next s
  | some (p, q) =>
    if p.2.hash == q.2.hash then .next ((s.updReq q.1 fun r => { r with stage := .away }).launch p.1 p.2 (routerOf p.2.cell))
    else .next (s.killPair cell thread 381 p.2.hash q.2.hash)

/-- PAIRED_TIMEOUT (R357): the missing hash reads zero. -/
def execPairedTimeout (cell thread : Nat) (s : State) : Result :=
  let late := s.requests.find? fun (p : Nat × Request) =>
    p.2.cell == cell && p.2.thread == thread && p.2.compared.any fun t => decide (t + 65536 ≤ s.clk)
  match late with
  | none => .next s
  | some p =>
    let h := p.2.hash
    .next (if p.2.index % 2 == 0 then s.killPair cell thread 382 h 0 else s.killPair cell thread 382 0 h)

/-- The answer of a primary's request goes to the shadow too. A shadow's recovery release ends with it. -/
def State.shadowAnswer (s : State) (r : Request) : State :=
  match (s.shadowOf r).filter fun q => q.2.stage == .away with
  | none => s
  | some q =>
    let own (x : Release) : Bool := x.request == some q.1
    let s1 : State := { s with releases := s.releases.filter fun (x : Release) => !own x }
    let s2 := (s.releases.filter own).foldl (fun (s : State) (x : Release) =>
      (s.updThread q.2.cell q.2.thread fun t => if r.fault.isNone then { t with prDone := x.number } else t).sealLater x.ctx) s1
    let s3 := match r.kind with
      | .sample .. => if r.answer[1]? == some 1 then s2.updThread q.2.cell q.2.thread fun t => { t with src := t.src + 1 } else s2
      | _ => s2
    s3.reply q.1 (routerOf r.cell) r.answer r.fault

end Sys2Proof.Machine
end

