-- ==== Sys2Proof/Machine/Registers.lean ====
section
/-! DEFINITION. The device control space (00_scope R6; 01_machine R14, R23; 05_sequencer R150; 09_windows R252, R258; 11_barrel_traps R346,
R350, R354; 12_draft R374, R377; 13_proof R390, R393; 14_fabric R429, R430, R434, R436, R440; 15_causes R456; 16_host R467, R468). -/

namespace Sys2Proof.Machine

open Sys2Proof

def controlBase : Nat := 0x040000000000

def State.updMgmt (s : State) (f : Management → Management) : State := { s with mgmt := f s.mgmt }

/-- A timed program runs or is pre-empted on a quad. -/
def State.quadBusy (s : State) (quad : Nat) : Bool := (List.range 4).any fun i => (s.core (4 * quad + i)).run.occupied

/-! ## Blocks of a context (01_machine R23) -/

/-- The quads of every partition but one's own. -/
def State.othersQuads (s : State) (ctx : Nat) : BitVec 80 :=
  s.pkg.ctxs.foldl (fun q c => if c.1 == ctx then q else q ||| c.2.quads) 0

/-- PLSLOT after a change of partitions. -/
def State.placePlates (s : State) (ctx : Nat) : State :=
  let x := s.ctx ctx
  let all := s.othersQuads ctx ||| x.quads
  (List.range 4).foldl (fun s p =>
    let used := (List.range 20).any fun i => all.getLsbD (20 * p + i)
    s.updPlate p fun y => if !used then { y with set := false } else if y.set then y else { y with set := true, lend := x.lend, b := x.b, a := x.a }) s

/-- Whether a partition may become `new`. -/
def State.quadsAllowed (s : State) (ctx : Nat) (new : BitVec 80) : Bool :=
  let x := s.ctx ctx
  let others := s.othersQuads ctx
  (List.range 80).all fun q =>
    let adds := new.getLsbD q && !x.quads.getLsbD q
    let changes := new.getLsbD q != x.quads.getLsbD q
    let p := s.plate (q / 20)
    (!adds || (!others.getLsbD q && !((List.range 4).any fun i => s.retired (4 * q + i)) &&
      (!p.set || (p.b == x.b && p.a == x.a)))) &&
    (!changes || !((List.range 4).any fun i => (s.core (4 * q + i)).ctx == ctx && (s.core (4 * q + i)).run.occupied))

/-- A partition has changed: its cells look for tasks (10_barrel R300), and samplers that wait may start (12_draft R374). -/
def State.partitionLooks (s : State) (ctx : Nat) : State :=
  ((List.range 320).filter fun c => s.holds ctx c).foldl (fun s c => s.dispatchFrom c) s

/-- A write of CTXQ0 or CTXQ1. -/
def State.writeQuads (s : State) (ctx : Nat) (high : Bool) (v : Word) : State :=
  let x := s.ctx ctx
  if !x.live || 0xFFFF ≤ ctx then s
  else
    let new : BitVec 80 := if high then v.setWidth 16 ++ x.quads.setWidth 64 else x.quads.extractLsb' 64 16 ++ v
    if s.quadsAllowed ctx new then ((s.updCtx ctx fun x => { x with quads := new, qrej := false }).placePlates ctx).partitionLooks ctx
    else s.updCtx ctx fun x => { x with qrej := true }

/-- CTXQ_WRITE. -/
def execCtxqWrite (ctx : Nat) (high : Bool) (value : BitVec 64) (s : State) : Result := .next (s.writeQuads ctx high value)

/-- The other registers of a context block. -/
def Context.write (x : Context) (offset : Nat) (v : Word) : Context :=
  match offset with
  | 0x10 => if 5 ≤ fld v 24 3 then x else { x with rnd := fld v 24 3, mxe := flagsAt v 16, vbe := flagsAt v 8, vae := flagsAt v 0 }
  | 0x18 => { x with fsRnd := if fld v 16 3 < 5 then fld v 16 3 else x.fsRnd, fsEn := flagsAt v 8 }
  | 0x20 => { x with cap := v.setWidth 32 }
  | 0x28 => if fld v 0 4 == 0 || fld v 4 4 == 0 then x else { x with lend := fbit v 8, b := fld v 4 4, a := fld v 0 4 }
  | 0x30 => if fbit v 0 then { x with qrej := false } else x
  | _ => x

def Context.read (x : Context) (offset : Nat) : Word :=
  match offset with
  | 0x00 => x.quads.setWidth 64
  | 0x08 => (x.quads.extractLsb' 64 16).setWidth 64
  | 0x10 => word (x.rnd * 2 ^ 24 + x.mxe.toNat * 2 ^ 16 + x.vbe.toNat * 2 ^ 8 + x.vae.toNat)
  | 0x18 => word (x.fsRnd * 2 ^ 16 + x.fsEn.toNat * 2 ^ 8)
  | 0x20 => x.cap.setWidth 64
  | 0x28 => word (x.lend.toNat * 2 ^ 8 + x.b * 2 ^ 4 + x.a)
  | 0x30 => word (x.live.toNat * 2 ^ 63 + x.qrej.toNat)
  | _ => 0

/-! ## Proof and translation registers (13_proof R390, 14_fabric R429, R430) -/

/-- A write of a proof register: ignored while an impression is open, or a seal or replay runs. A slot address keeps no bits below
4 KiB, and a quota or a slot size outside its range is not taken (log entry 15). -/
def State.writeProof (s : State) (ctx offset : Nat) (v : Word) : State :=
  let x := s.ctx ctx
  let partner := fld v 8 6
  let ok := s.pkg.indom && s.feature 2 && partner != s.pkg.domPos
  if !x.live || x.prpOpen || (s.impressions.get? ctx).isSome || x.prpState == 1 || x.prpState == 4 then s
  else s.updCtx ctx fun x => match offset with
    | 0x00 => { x with
        quota := if fld v 32 16 ≤ 32768 then fld v 32 16 else x.quota
        mto := if 10 ≤ fld v 22 5 && fld v 22 5 ≤ 30 then fld v 22 5 else x.mto
        g := if 12 ≤ fld v 16 6 && fld v 16 6 ≤ 21 then fld v 16 6 else x.g
        partner, mlost := x.mlost && !fbit v 2, mirror := fbit v 1 && ok, pen := fbit v 0 }
    | 0x08 => { x with slotA := fld v 12 36 * 4096 }
    | 0x10 => { x with slotB := fld v 12 36 * 4096 }
    | 0x18 => if fld v 0 12 == 0 && decide (4096 ≤ fld v 0 32) && decide (fld v 0 32 ≤ 2 ^ 28) then { x with slotSz := fld v 0 32 } else x
    | _ => x

def Context.readProof (x : Context) (offset : Nat) : Word :=
  match offset with
  | 0x00 => word (x.quota * 2 ^ 32 + x.mto * 2 ^ 22 + x.g * 2 ^ 16 + x.partner * 2 ^ 8 + x.mlost.toNat * 4 + x.mirror.toNat * 2 + x.pen.toNat)
  | 0x08 => word x.slotA
  | 0x10 => word x.slotB
  | 0x18 => word x.slotSz
  | 0x28 => word x.prpi
  | 0x30 => word x.prpa
  | 0x38 => x.prps
  | _ => 0

/-- Whether a proof range may be registered as range `i` of a context. -/
def State.rangeAllowed (s : State) (ctx i base size : Nat) : Bool :=
  let x := s.ctx ctx
  let others := ((List.range 4).filter (· != i)).map fun k => (x.ranges[k]?).getD (0, 0)
  let sum := others.foldl (fun n r => n + r.2) size
  let all := others.map rangeBytes ++ (s.pkg.ctxs.filter fun c => c.1 != ctx).flatMap fun c => c.2.proofRanges
  size == 0 || (decide (sum ≤ x.quota) && decide ((base + size) * 2 ^ 21 ≤ hbmTop) &&
    !all.any fun r => meets (base * 2 ^ 21) (size * 2 ^ 21) r.1 r.2)

/-- A context has no live thread or program. -/
def State.contextIdle (s : State) (ctx : Nat) : Bool :=
  !s.hasThreads ctx && !s.cores.any fun c => c.2.ctx == ctx && c.2.run.occupied

/-- The lines of a new proof range are held clean: what a slice had dirty, buffered or dead there is in HBM (R426, 13_proof R389, log
entry 26). -/
def State.cleanRange (s : State) (base n : Nat) : State :=
  let inside (l : Nat) : Bool := decide (base ≤ l) && decide (l < base + n)
  s.pkg.slices.foldl (fun s x =>
    let ls := (x.2.dirty ++ x.2.buffer ++ x.2.dead.flatMap (·.2)).filter inside
    (ls.foldl (fun s l => s.settled l) s).updSlice x.1 fun y => { y with
      dirty := y.dirty.filter fun l => !inside l
      buffer := y.buffer.filter fun l => !inside l
      granted := y.granted.filter fun l => !inside l
      dead := y.dead.map fun d => (d.1, d.2.filter fun l => !inside l) }) s

/-- A write of XROOT or a PRNG. -/
def State.writeTranslation (s : State) (ctx offset : Nat) (v : Word) : State :=
  if !(s.ctx ctx).live || !s.contextIdle ctx then s
  else if offset == 0 then s.updCtx ctx fun x => { x with xen := fbit v 63, root := fld v 12 36 }
  else if 0x20 ≤ offset && offset < 0x40 then
    let i := (offset - 0x20) / 8
    let base := fld v 21 27
    let size := fld v 48 16
    if s.rangeAllowed ctx i base size then
      (s.updCtx ctx fun x => { x with ranges := x.ranges.setIfInBounds i (base, size) }).cleanRange (base * 2 ^ 21) (size * 2 ^ 21)
    else s
  else s

def Context.readTranslation (x : Context) (offset : Nat) : Word :=
  if offset == 0 then word (x.xen.toNat * 2 ^ 63 + x.root * 2 ^ 12)
  else if 0x20 ≤ offset && offset < 0x40 then
    let r := (x.ranges[(offset - 0x20) / 8]?).getD (0, 0)
    word (r.2 * 2 ^ 48 + r.1 * 2 ^ 21)
  else 0

/-! ## Registers of a cell -/

/-- PAIRMAP may name a partner: same plate, same partition, mesh distance of at least 2 (11_barrel_traps R354). -/
def State.partnerAllowed (s : State) (cell partner : Nat) : Bool :=
  decide (partner < 320) && plateOf partner == plateOf cell && decide (2 ≤ absDiff (meshX cell) (meshX partner) + absDiff (meshY cell) (meshY partner)) &&
  s.pkg.ctxs.any fun c => c.2.quads.getLsbD (quadOf cell) && c.2.quads.getLsbD (quadOf partner)

def State.writeCell (s : State) (cell offset : Nat) (v : Word) : State :=
  match offset with
  | 0x00 => s.updBarrel cell fun b => { b with migDiff := fld v 16 7, migHi := fld v 8 7, migEn := fbit v 0 }
  | 0x08 =>
    if fbit v 15 && !s.partnerAllowed cell (fld v 0 9) then s
    else (s.updBarrel cell fun b => { b with pairOn := fbit v 15, pairCell := fld v 0 9 }).dispatchFrom cell
  | 0x10 => (s.updBarrel cell fun b => { b with
      smpRegs := fld v 16 8, smpWv := fbit v 14, smpTag := fld v 8 6, smpEn := fbit v 0, smpStart := fbit v 0 }).dispatchFrom cell
  | 0x18 => s.updBarrel cell fun b => { b with smpEnt := v.extractLsb' 3 45 ++ (0 : BitVec 3) }
  | 0x20 => s.updPkg fun k => { k with imgbase := k.imgbase.set cell (fld v 12 36 * 4096) }
  | _ => s

def State.readCell (s : State) (cell offset : Nat) : Word :=
  let b := s.barrel cell
  match offset with
  | 0x00 => b.migcfg
  | 0x08 => b.pairmap
  | 0x10 => b.smpcfg
  | 0x18 => b.smpEnt.setWidth 64
  | 0x20 => word (s.pkg.imgbase.getD cell 0)
  | _ => 0

/-! ## Supervisors (11_barrel_traps R346) -/

def State.writeSupervisor (s : State) (plate offset : Nat) (v : Word) : State :=
  let box := fld v 32 20
  let cell := fld v 0 9
  match offset with
  | 0x00 =>
    if plateOf cell != plate || 0x7F7FF < box || box % 2048 != 0 then s
    else s.updPlate plate fun p => { p with supEn := fbit v 52, supBox := box, supThread := fld v 16 6, supCell := cell }
  | 0x08 => s.updPlate plate fun p => { p with mbNext := fld v 0 6 }
  | 0x10 => s.updPlate plate fun p => { p with mbSeq := v.setWidth 16 }
  | 0x18 => s.updPlate plate fun p => { p with mbOff := v }
  | _ => s

def Plate.readSupervisor (p : Plate) (offset : Nat) : Word :=
  match offset with
  | 0x00 => p.supv
  | 0x08 => word p.mbNext
  | 0x10 => p.mbSeq.setWidth 64
  | 0x18 => p.mbOff
  | _ => 0

/-! ## Serving groups (12_draft R377) -/

/-- A write of GTCTL: only while en is 0. -/
def State.writeGtctl (s : State) (g : Nat) (v : Word) : State :=
  let x := s.group g
  let first := fld v 16 9
  let ctx := fld v 0 16
  let outside := (List.range 320).any fun c => x.mask.getLsbD c && !s.holds ctx c
  if x.en || 16 ≤ g then s
  else if !fbit v 63 then s.updGroup g fun x => { x with first, ctx }
  else if x.mask == 0 || !x.mask.getLsbD first || outside then s
  else s.updGroup g fun x => { x with en := true, first, ctx, orphan := false, round := 0, cell := first, holder := none, taken := first, waiters := [] }

/-- GTCTL_WRITE. -/
def execGtctlWrite (group : Nat) (value : BitVec 64) (s : State) : Result := .next (s.writeGtctl group value)

def State.writeGroup (s : State) (g offset : Nat) (v : Word) : State :=
  if (s.group g).en || 0x28 ≤ offset then s
  else s.updGroup g fun x =>
    { x with mask := (x.mask &&& ~~~(BitVec.ofNat 320 ((2 ^ 64 - 1) * 2 ^ (8 * offset)))) ||| BitVec.ofNat 320 (v.toNat * 2 ^ (8 * offset)) }

def ServingGroup.read (g : ServingGroup) (offset : Nat) : Word :=
  match offset with
  | 0x28 => word (g.en.toNat * 2 ^ 63 + g.first * 2 ^ 16 + g.ctx)
  | 0x30 => g.rnd
  | 0x38 => match g.holder with
    | some h => word (h.2.1 * 2 ^ 16 + 2 ^ 9 + g.cell)
    | none => word g.cell
  | o => if o < 0x28 then g.mask.extractLsb' (8 * o) 64 else 0

/-! ## Requests of system software: KPRST, KCONT, XINVC -/

/-- KPRST (13_proof R393). -/
def State.writeKprst (s : State) (v : Word) : State :=
  if !fbit v 63 then s
  else
    let s1 := s.updPkg fun k => { k with resets := k.resets ++ [{ plate := fld v 0 2, step := 1, lost := 0 }] }
    if s.pkg.resets.isEmpty then s1.after 1 phNet 0 (.op .plateReset) else s1

/-- KCONT (09_windows R258). -/
def State.writeKcont (s : State) (v : Word) : State :=
  let k := s.pkg
  let plate := fld v 40 2
  let gang := fld v 32 7
  if k.kBusy || !((k.gangs.get? (gangKey plate gang)).any fun g => g.ctx == fld v 0 16) then s
  else
    let s1 := s.updPkg fun k => { k with kPlate := plate, kGang := gang, kCtx := fld v 0 16, kBusy := fbit v 63 }
    if fbit v 63 then s1.after 1 phClock 6 (.op .kcontContain) else s1

/-- XINVC (14_fabric R434). -/
def State.writeXinvc (s : State) (v : Word) : State :=
  if s.pkg.xinvBusy then s
  else
    let s1 := s.updPkg fun k => { k with xinvCount := fld v 16 32, xinvCtx := fld v 0 16, xinvBusy := fbit v 63 }
    if !fbit v 63 then s1
    else
      let d := s1.drawDelay
      d.2.after d.1 phNet 0 (.op .xinvcInvalidate)

/-! ## Measurement registers (16_host R467) -/

/-- An extend of one of MR3 .. MR7 by context 0. -/
def State.extend' (s : State) (register : Nat) (d : BitVec 512) : State :=
  if 3 ≤ register && register ≤ 7 then
    s.updMgmt fun m => { m with mrs := m.mrs.setIfInBounds register (extendMr (m.mrs[register]?.getD 0) d) }
  else s

/-- MR_EXTEND: ignored unless attestation is agreed (R462). -/
def execMrExtend (register : Nat) (digest : BitVec 512) (s : State) : Result :=
  .next (if s.feature 5 then s.extend' register digest else s)

/-- The writes of an extend: the register number, then eight words of the digest. -/
def State.writeMr (s : State) (v : Word) : State :=
  match s.mgmt.mrWrite with
  | none => s.updMgmt fun m => { m with mrWrite := some (v.toNat, []) }
  | some (n, ws) =>
    let ws1 := ws ++ [v]
    if ws1.length < 8 then s.updMgmt fun m => { m with mrWrite := some (n, ws1) }
    else (s.updMgmt fun m => { m with mrWrite := none }).extend' n (ofBytes64 (ws1.flatMap fun w => leBytes w.toNat 8))

/-! ## Error classes (15_causes R456) -/

def ErrorClass.write (x : ErrorClass) (v : Word) : ErrorClass :=
  { en := fbit v 63, thresh := if fld v 32 16 == 0 then x.thresh else fld v 32 16
    wlog := if 10 ≤ fld v 24 6 && fld v 24 6 ≤ 40 then fld v 24 6 else x.wlog }
def ErrorClass.read (x : ErrorClass) : Word := word (x.en.toNat * 2 ^ 63 + x.thresh * 2 ^ 32 + x.wlog * 2 ^ 24)

/-- The number of an error counter. -/
def errKey (cls unit : Nat) : Nat := unit * 8 + cls
def ErrorCount.reset : ErrorCount := { total := 0, win := 0, posted := false }
def State.errCount (s : State) (cls unit : Nat) : ErrorCount := s.pkg.errCnt.getD (errKey cls unit) ErrorCount.reset

/-! ## Links and the package map (14_fabric R436, R440) -/

/-- A write of LNKCFG: a port put into service trains for a time of its own (log entry 5). -/
def State.writeLink (s : State) (p : Nat) (v : Word) : State :=
  let d := s.drawDelay
  let set (up : Option Nat) (l : Link) : Link := { l with en := fbit v 63, upAt := up, nbr := fld v 16 6, lat := fld v 0 16 }
  if !fbit v 63 then s.updLink p (set none)
  else if (s.link p).en then s.updLink p (set (s.link p).upAt)
  else d.2.updLink p (set (some (s.clk + d.1)))
def Link.read (l : Link) (clk : Nat) : Word := word (l.en.toNat * 2 ^ 63 + (l.up clk).toNat * 2 ^ 62 + l.nbr * 2 ^ 16 + l.lat)

def State.writeMap (s : State) (pos i : Nat) (v : Word) : State :=
  let v1 : Word := if i == 2 then v &&& 0x8000000000FFFFFF else v
  let old := s.pkg.map.getD pos 0
  let new := (old &&& ~~~(BitVec.ofNat 192 ((2 ^ 64 - 1) * 2 ^ (64 * i)))) ||| BitVec.ofNat 192 (v1.toNat * 2 ^ (64 * i))
  if s.feature 3 && i < 3 then s.updPkg fun k => { k with map := k.map.set pos new } else s

/-! ## The whole space -/

/-- Index and offset of an address in an array of blocks. -/
def inArray (o start step count : Nat) : Option (Nat × Nat) :=
  if start ≤ o && o < start + step * count then some ((o - start) / step, (o - start) % step) else none

/-- A block of the control space. -/
inductive ControlBlock where
  | schedule (plate offset : Nat)
  | cell (cell offset : Nat)
  | supervisor (plate offset : Nat)
  | group (group offset : Nat)
  | suffixRegion (cluster : Nat)
  | proof (ctx offset : Nat)
  | kprst
  | kcont
  | translation (ctx offset : Nat)
  | xinva
  | xinvc
  | link (port : Nat)
  | linkError (port : Nat)
  | domain
  | map (position word : Nat)
  | collDrop
  | errCfg (cls : Nat)
  | retMask (n : Nat)
  | errCnt (unit cls : Nat)
  | measure
  | packageCap
  | policy
  | context (ctx offset : Nat)
  | plateSlot (plate offset : Nat)
  | textBase (quad : Nat)
  | text (offset : Nat)
  | nothing

/-- The block of a register, by its offset in the space. -/
def controlBlock (o : Nat) : ControlBlock :=
  let pick (start step count : Nat) (f : Nat → Nat → ControlBlock) (k : ControlBlock) : ControlBlock :=
    match inArray o start step count with
    | some x => f x.1 x.2
    | none => k
  pick 0x1000000 0x100000 4 .schedule <| pick 0x2000000 0x1000 320 .cell <| pick 0x3000000 0x1000 4 .supervisor <|
  pick 0x4000000 0x40 16 .group <| pick 0x4001000 8 40 (fun c _ => .suffixRegion c) <| pick 0x5000000 0x40 0xFFFF .proof <|
  pick 0x6000000 8 1 (fun _ _ => .kprst) <| pick 0x6000008 8 1 (fun _ _ => .kcont) <| pick 0x7000000 0x40 0xFFFF .translation <|
  pick 0x7800000 8 1 (fun _ _ => .xinva) <| pick 0x7800008 8 1 (fun _ _ => .xinvc) <| pick 0x8000000 8 12 (fun p _ => .link p) <|
  pick 0x8000100 8 12 (fun p _ => .linkError p) <| pick 0x8000200 8 1 (fun _ _ => .domain) <|
  pick 0x9000000 0x20 64 (fun p i => .map p (i / 8)) <| pick 0x9001000 8 1 (fun _ _ => .collDrop) <|
  pick 0xA000000 8 7 (fun j _ => .errCfg j) <| pick 0xA000100 8 5 (fun n _ => .retMask n) <|
  pick 0xA001000 0x40 384 (fun n i => .errCnt n (i / 8)) <| pick 0xB000000 0x40 1 (fun _ _ => .measure) <|
  pick 0xB000100 8 1 (fun _ _ => .packageCap) <| pick 0xB000108 8 1 (fun _ _ => .policy) <| pick 0xC000000 0x40 0xFFFF .context <|
  pick 0xD000000 0x40 4 .plateSlot <| pick 0xE000000 8 80 (fun q _ => .textBase q) <| pick 0x10000000 0x5000000 1 (fun _ i => .text i) .nothing

/-- The value of the register at an 8-aligned address (R6). -/
def State.controlRead (s : State) (pa : Nat) : Word :=
  let k := s.pkg
  match controlBlock (pa - controlBase) with
  | .schedule p i => if i < 0x4000 then (s.entry p (i / 64)).extractLsb' (8 * (i % 64)) 64 else 0
  | .cell n i => s.readCell n i
  | .supervisor p i => (s.plate p).readSupervisor i
  | .group g i => (s.group g).read i
  | .suffixRegion c => word (k.sxreg[c]?.getD 0)
  | .proof c i => (s.ctx c).readProof i
  | .kprst => 0
  | .kcont => word (k.kBusy.toNat * 2 ^ 62 + k.kPlate * 2 ^ 40 + k.kGang * 2 ^ 32 + k.kCtx)
  | .translation c i => (s.ctx c).readTranslation i
  | .xinva => word k.xinva
  | .xinvc => word (k.xinvBusy.toNat * 2 ^ 62 + k.xinvCount * 2 ^ 16 + k.xinvCtx)
  | .link p => (s.link p).read s.clk
  | .linkError p => (k.links[p]?.getD Link.reset).err
  | .domain => word (k.indom.toNat * 2 ^ 14 + k.domSize * 2 ^ 6 + k.domPos)
  | .map p i => if i < 3 then (k.map.getD p 0).extractLsb' (64 * i) 64 else 0
  | .collDrop => k.collDrop
  | .errCfg j => (k.errCfg[j]?.map ErrorClass.read).getD 0
  | .retMask n => k.retired.extractLsb' (64 * n) 64
  | .errCnt n j => word ((s.errCount j n).total * 2 ^ 32 + (s.errCount j n).win)
  | .measure => 0
  | .packageCap => Config.packageCap.setWidth 64
  | .policy => word s.mgmt.policy
  | .context c i => (s.ctx c).read i
  | .plateSlot p i =>
    let x := s.plate p
    if i == 0 && x.set then word (x.set.toNat * 2 ^ 63 + x.lend.toNat * 2 ^ 8 + x.b * 2 ^ 4 + x.a) else 0
  | .textBase q => word (k.txbase.getD q 0)
  | .text _ => 0
  | .nothing => 0

/-- A whole-register write of the registers that have no row of their own in the opcode table. -/
def State.writeRegister (s : State) (pa : Nat) (v : Word) : State :=
  match controlBlock (pa - controlBase) with
  | .cell n i => s.writeCell n i v
  | .supervisor p i => s.writeSupervisor p i v
  | .group g i => s.writeGroup g i v
  | .suffixRegion c =>
    if 32 < fld v 0 6 || !(s.unit c).open'.isEmpty then s else s.updPkg fun k => { k with sxreg := k.sxreg.setIfInBounds c (fld v 0 6) }
  | .proof c i => s.writeProof c i v
  | .kprst => s.writeKprst v
  | .kcont => s.writeKcont v
  | .translation c i => s.writeTranslation c i v
  | .xinva => s.updPkg fun k => { k with xinva := fld v 12 36 * 4096 }
  | .xinvc => s.writeXinvc v
  | .link p =>
    if s.feature 4 then s.writeLink p v else s
  | .map p i => s.writeMap p i v
  | .errCfg j => s.updPkg fun k => match k.errCfg[j]? with
    | some c => { k with errCfg := k.errCfg.setIfInBounds j (c.write v) }
    | none => k
  | .measure => if s.feature 5 then s.writeMr v else s
  | .context c i => if (s.ctx c).live then s.updCtx c fun x => x.write i v else s
  | .textBase q => if s.quadBusy q then s else s.updPkg fun k => { k with txbase := k.txbase.set q (fld v 20 28 * 2 ^ 20) }
  | _ => s

/-- The mailbox window's own registers that the host writes (16_host R459); eight bytes at offset 0 submit nothing. -/
def State.writeMailbox (s : State) (offset : Nat) (v : Word) : State :=
  match offset with
  | 0x000 => s.updMgmt fun m => { m with ovf := true }
  | 0x040 => s.updMgmt fun m => { m with ovf := m.ovf && !fbit v 16 }
  | 0x048 => s.updMgmt fun m => { m with
      rspBase := fld v 12 36, rspSize := if 4 ≤ fld v 0 4 && fld v 0 4 ≤ 12 then fld v 0 4 else m.rspSize }
  | _ => s

/-- CONTROL_REGISTER_WRITE (R6): an address below 4 KiB names a register of the mailbox window. -/
def execControlRegisterWrite (address : Nat) (value : BitVec 64) (s : State) : Result :=
  .next (if address < 4096 then s.writeMailbox address value
    else if inControl address then s.writeRegister (address / 8 * 8) value else s)

/-! ## Stores to the space -/

/-- Bits that a write of 1 clears, and reads back as they stand. -/
def clearOnOne (pa : Nat) : Word :=
  match controlBlock (pa - controlBase) with
  | .context _ 0x30 => 1
  | .proof _ 0x00 => 4
  | _ => 0

/-- One whole register. -/
def State.controlStore (s : State) (pa : Nat) (v : Word) : State :=
  match controlBlock (pa - controlBase) with
  | .context c 0 => s.writeQuads c false v
  | .context c 8 => s.writeQuads c true v
  | .group g 0x28 => s.writeGtctl g v
  | _ => s.writeRegister pa v

/-- The text window takes bytes while no timed program runs on the quad (01_machine R23). -/
def State.textWrite (s : State) (offset n x : Nat) : State :=
  if s.quadBusy (offset / 2 ^ 20) then s else { s with text := s.text.putNum offset n x }

/-- A store of at most eight bytes inside one register; bytes it does not write keep what they hold (log entry 11). -/
def State.controlWrite (s : State) (pa n x : Nat) : State :=
  match controlBlock (pa - controlBase) with
  | .text i => s.textWrite i n x
  | .schedule .. => s
  | _ =>
    let r := pa / 8 * 8
    let old := (s.controlRead r &&& ~~~clearOnOne r).toNat
    let m := (2 ^ (8 * n) - 1) * 2 ^ (8 * (pa - r))
    s.controlStore r (word (old - (old &&& m) + x * 2 ^ (8 * (pa - r))))

/-- A store of a whole 64-byte line: a schedule entry at once, else its words in order. -/
def State.controlLine (s : State) (pa x : Nat) : State :=
  match controlBlock (pa - controlBase) with
  | .text i => s.textWrite i 64 x
  | .schedule p i => if i < 0x4000 then (match execScheduleEntryWrite p (i / 64) (BitVec.ofNat 512 x) s with
      | .next s1 => s1
      | _ => s)
    else s
  | _ => (List.range 8).foldl (fun s i => s.controlWrite (pa + 8 * i) 8 (x / 2 ^ (64 * i) % 2 ^ 64)) s

/-- Bytes of the space as a number. -/
def State.controlNum (s : State) (pa n : Nat) : Nat :=
  let ws := (List.range ((pa % 8 + n + 7) / 8)).map fun i => (s.controlRead (pa / 8 * 8 + 8 * i)).toNat
  ws.foldr (fun w x => x * 2 ^ 64 + w) 0 / 2 ^ (8 * (pa % 8)) % 2 ^ (8 * n)

end Sys2Proof.Machine
end

