-- ==== Sys2Proof/Machine/Errors.lean ====
section
/-! DEFINITION. Errors of protected structures, their counting and the retirement of a cell (15_causes R455 to R457; 11_barrel_traps R343;
14_fabric R428). -/

namespace Sys2Proof.Machine

open Sys2Proof

/-- The cause that a class posts (R455). -/
def errCause (cls : Nat) : Nat :=
  match cls with
  | 0 => 374
  | 1 => 375
  | 2 => 376
  | 3 => 243
  | 4 => 377
  | 5 => 378
  | _ => 379

/-! ## Retirement (R457) -/

/-- TVAL of a machine check by retirement. -/
def retireVal (cls : Nat) : Word := word (2 ^ 63 + errCause cls)

/-- The timed program of a retired cell is contained. -/
def State.retireTimed (s : State) (cell cls : Nat) : State :=
  let c := s.core cell
  if !c.run.occupied then s
  else
    let i : FaultInfo := { cause := 380, slot := 0, lane := 0, pc := c.seq.pc, val := retireVal cls }
    ((s.updCore cell fun c => { c with ctl := c.ctl.record i c.seq.pc s.tick }).postCore cell 0x02 380 (c.seq.pc.setWidth 64) (retireVal cls)).containCore cell

/-- Its threads are killed, its packets and deque entries are dropped. -/
def State.retireBarrel (s : State) (cell cls : Nat) : State :=
  let b := s.barrel cell
  let s1 := b.threads.foldl (fun s t => s.killThread cell t.1 380 t.2.pc (retireVal cls) true) s
  (s.barrel cell).deque.foldl (fun s e => s.childEnded (some e.parent) true) (s1.updBarrel cell fun b => { b with tasks := [], deque := [] })

/-- Sequences of the cell's cluster with a granule in its vault fail. -/
def State.retireSequences (s : State) (cell : Nat) : State :=
  let k := clusterOf cell
  (s.unit k).open'.foldl (fun s q =>
    if (List.range (runLength q.2.b)).any fun i => s.granuleRetired k (q.2.run + i) then s.sxFail k q.1 else s) s

/-- A cell is retired; a retired one stays as it is (R12). -/
def State.retire (s : State) (cell cls : Nat) : State :=
  if s.retired cell then s
  else
  let s1 := s.updPkg fun k => { k with retired := k.retired ||| BitVec.twoPow 320 cell, retiredAt := k.retiredAt.set cell s.clk }
  (((s1.retireTimed cell cls).retireBarrel cell cls).retireSequences cell).logEvent evRetired (errCause cls)

/-! ## Counting (R455, R457) -/

/-- An error is counted; a window that reaches its threshold shows a lasting fault, once. -/
def State.countError (s : State) (cls unit : Nat) : State :=
  let c := s.errCount cls unit
  let k : ErrorClass := s.pkg.errCfg[cls]?.getD { en := true, thresh := 16, wlog := 32 }
  let win := min 65535 (c.win + 1)
  let lasting := decide (k.thresh ≤ win) && !c.posted
  let n : ErrorCount := { total := min (2 ^ 32 - 1) (c.total + 1), win, posted := c.posted || lasting }
  let s1 := s.updPkg fun p => { p with errCnt := p.errCnt.set (errKey cls unit) n }
  if !lasting then s1
  else if cls == 6 then s1.logEvent evSlice 379
  else
    (if k.en then s1.retire unit cls else s1).postMessage (plateOf unit)
      { kind := 0x0A, cause := errCause cls, cell := unit, thread := 0, ctx := (s.core unit).ctx, pc := 0, val := word win }

/-! ## Uncorrectable errors -/

/-- Whether a thread has a special-function or Philox result to come: RNGPX alone writes at offset 11 (10_barrel R287). -/
def State.hasUnitResult (s : State) (cell uid : Nat) : Bool :=
  (s.barrel cell).queued uid || (s.barrel cell).flights.any fun f => f.uid == uid && f.due == f.seq + 11

/-- A corrupted result is not written (11_barrel_traps R343); those of the special-function unit land and are discarded (R342). -/
def State.loseResults (s : State) (cell uid : Nat) : State :=
  s.updBarrel cell fun b => { b with flights := b.flights.filter fun f => !(f.uid == uid && f.due == f.seq + 11) }

/-- A line of HBM that a slice serves, by number (14_fabric R423). -/
def sliceLine (k n : Nat) : Nat :=
  let base := n % 2 ^ 27 * 2 ^ 10
  k / 16 * 2 ^ 37 + base + xor4 k (base / 2 ^ 10) * 64

/-- What an uncorrectable error damages; the place is an open value (log entry 12). A slice's is read from a way, from the buffer or from
HBM (14_fabric R428). -/
def State.damage (s0 : State) (cls unit : Nat) : State :=
  let d := s0.drawValue
  let v := d.1
  let s := d.2
  if cls == 6 then
    let k := unit - 320
    let held := (s.slice k).ways ++ (s.slice k).buffer
    let line := if v / 2 ^ 32 % 2 == 1 then sliceLine k (v / 2 ^ 33) else held[v % held.length]?.getD (sliceLine k v)
    s.updPkg fun p => { p with poison := insertNat line p.poison }
  else if cls == 5 then s.updPkg fun p => { p with poison := insertNat (scratchBase unit + v % 65536 * 8) p.poison }
  else if cls == 4 then
    match (s.barrel unit).threads[v % ((s.barrel unit).threads.length + 1)]? with
    | some t =>
      if v / 2 ^ 16 % 2 == 1 && s.hasUnitResult unit t.2.uid then (s.loseResults unit t.2.uid).killThread unit t.1 380 t.2.pc (word v) true
      else s.killThread unit t.1 380 t.2.pc (word (t.2.base + v / 64 % t.2.count)) true
    | none => s.updBarrel unit fun b => { b with poison := b.poison ||| BitVec.twoPow 16 (v % 16) }
  else if cls == 3 then s.updMtx unit fun m => { m with badCols := m.badCols ||| BitVec.twoPow 128 (v % 128) }
  else if cls ≤ 1 && v / 2 ^ 32 % 2 == 1 then
    let line := if cls == 0 then coreStoreBase unit + v % (coreStoreSize / 64) * 64
      else vaultBase (clusterOf unit) + posOf unit * 2 ^ 23 + v % 2 ^ 23 / 64 * 64
    s.updPkg fun p => { p with poison := insertNat line p.poison }
  else if (s.core unit).run.occupied then
    s.noteFault unit s.clk .contain { cause := 380, slot := 0, lane := 0, pc := (s.core unit).seq.pc, val := word v }
  else s

/-- CORRECTED_ERROR (R455): `unit` is the cell, or 320 + 16 × plate + slice. An error in a matrix array is seen, and counted, only when
the residue check of a product finds it (07_matrix R198). -/
def execCorrectedError (cls unit : Nat) (uncorrectable : Bool) (s : State) : Result :=
  .next (if cls == 3 && uncorrectable then s.damage cls unit
    else (if uncorrectable then s.damage cls unit else s).countError cls unit)

/-- ERROR_WINDOW_START (R457). -/
def execErrorWindowStart (cls : Nat) (s : State) : Result :=
  let clear (x : Nat × ErrorCount) : Nat × ErrorCount := if x.1 % 8 == cls then (x.1, { x.2 with win := 0, posted := false }) else x
  .next (s.updPkg fun k => { k with errCnt := k.errCnt.map clear })

/-! ## Ceilings (16_host R468) -/

/-- CEILING_CHANGE: the cores of the context come down with their share. -/
def State.setCeiling (s : State) (ctx ceiling : Nat) : State :=
  let n := 4 * ((List.range 80).filter fun q => (s.ctx ctx).quads.getLsbD q).length
  let share := ceiling / n
  let fit (m : Matrix) : Matrix :=
    let cap := min m.cap.toNat share
    let rate := min m.rate.toNat cap
    { m with cap := BitVec.ofNat 32 cap, rate := BitVec.ofNat 32 rate, bucket := clipBucket m.bucket.toInt rate }
  let s1 := s.updCtx ctx fun x => { x with ceiling := BitVec.ofNat 32 ceiling }
  s.cores.foldl (fun s c => if c.2.ctx == ctx then s.updMtx c.1 fit else s) s1

def execCeilingChange (ctx : Nat) (ceiling : BitVec 32) (s : State) : Result := .next (s.setCeiling ctx ceiling.toNat)

/-- The sum of the ceilings of the live contexts. -/
def State.ceilings (s : State) : Nat := s.pkg.ctxs.foldl (fun n c => if c.2.live then n + c.2.ceiling.toNat else n) 0

/-- Firmware sets its policy ceiling, at or below PKGCAP (R468). Where the ceilings of the live contexts no longer fit under it, each comes
down in proportion, and the cores with it, in this tick. DESIGN CHOICE (log 57): the spec does not say how they share it. -/
def State.setPolicy (s : State) (ceiling : BitVec 32) : State :=
  let p := min ceiling.toNat Config.packageCap.toNat
  let sum := s.ceilings
  let s1 := s.updMgmt fun m => { m with policy := p }
  if sum ≤ p then s1
  else s.pkg.ctxs.foldl (fun s c => if c.2.live then s.setCeiling c.1 (c.2.ceiling.toNat * p / sum) else s) s1

end Sys2Proof.Machine
end

