-- ==== Sys2Proof/Machine/Mailbox.lean ====
section
/-! DEFINITION. The mailbox engine and its commands, images and attestation (16_host R458 to R468). -/

namespace Sys2Proof.Machine

open Sys2Proof

/-! ## The words of a command (R460) -/

/-- Word 2 + i of a command. -/
def cmdWord (c : MailboxCommand) (i : Nat) : Word := c.data.extractLsb' (64 * i) 64
/-- Its 48 bytes of data. -/
def cmdBytes (c : MailboxCommand) : List Byte := leBytes c.data.toNat 48

/-- What a command answers: status, cause, and words 2 to 7. -/
structure Answer where
  status : Nat
  cause  : Nat
  words  : List Word

def Answer.of (status : Nat) : Answer := { status, cause := 0, words := [] }
def Answer.fault (cause : Nat) : Answer := { status := 3, cause, words := [] }

/-! ## Addresses (R460) -/

/-- The physical address of host memory's byte `x`. -/
def hostAt (x : Nat) : Nat := hostBase + x % 2 ^ 47

/-- Physical addresses of a command's bytes, or the first fault's cause. -/
def State.cmdPhys (s : State) (c : MailboxCommand) (write : Bool) : Nat → Except UnitStop (Except Nat (List Nat))
  | 0 => .ok (.ok [])
  | n + 1 => do
    match ← s.cmdPhys c write n with
    | .error e => return .error e
    | .ok xs =>
      let a := c.word1.toNat + n
      if c.phys == 1 then return if mapped a 1 then .ok (xs ++ [a]) else .error 67
      else match ← s.unitPhys 0 c.ctx.toNat a write with
        | .ok pa => return .ok (xs ++ [pa])
        | .error e => return .error e

/-- What the engine has gathered for its command. -/
def State.engine (s : State) : UnitJob := s.unitJob .mailbox

/-- The addresses of a command, once their translations have come. -/
def State.cmdAddresses (s : State) (c : MailboxCommand) (write : Bool) : Except Nat (List Nat) :=
  match (s.asUnit .mailbox false).cmdPhys c write c.len.toNat with
  | .ok r => r
  | .error _ => .error 64

/-- A byte that a packet has brought to the engine. -/
def State.brought (s : State) (pa : Nat) : Option ReadPiece := s.engine.reads.find? fun p => p.pa == pa && p.len == 1

/-- One byte read: a relaxed read of the engine may take an older value (04_ordering R107). The number below which every write had
performed, unless a release whose scope leaves the engine out is all that it met (R106, R114). -/
def State.byteAt (s : State) (pa : Nat) : Byte × Nat × State :=
  if inControl pa then (BitVec.ofNat 8 (s.controlNum pa 1), 0, s)
  else match s.brought pa with
    | some p => (BitVec.ofNat 8 p.x, p.upTo, s)
    | none =>
      let x := s.unitReads .mailbox pa 1
      (BitVec.ofNat 8 (x.2.headD 0).toNat, ((x.2.drop 1).headD 0).toNat, x.1)

/-- Whether a byte of a READ is poisoned. -/
def State.badByte (s : State) (pa : Nat) : Bool := (s.brought pa).elim (s.isPoison pa) (·.bad)

/-- The bytes of a READ; as an acquire at package scope, what the engine reads from now on performs after them (R114). -/
def State.bytesAt (s : State) (ps : List Nat) : List Byte × State :=
  let x := ps.foldl (fun (x : List Byte × Nat × State) pa =>
    let b := x.2.2.byteAt pa
    (x.1 ++ [b.1], max x.2.1 b.2.1, b.2.2)) (([], 0, s) : List Byte × Nat × State)
  (x.1, x.2.2.catchUp mailboxAgent x.2.1)

/-- Bytes of one register of the control space among those of a command: its address, its count and its value. -/
def sameRegister (x : Nat × Nat × Nat) (p : Nat × Byte) : Bool := x.1 / 8 == p.1 / 8 && x.1 + x.2.1 == p.1

/-- Group bytes of the control space by register. -/
def controlPieces : List (Nat × Byte) → List (Nat × Nat × Nat) → List (Nat × Nat × Nat)
  | [], acc => acc.reverse
  | p :: ps, acc => match acc with
    | x :: xs => if sameRegister x p then controlPieces ps ((x.1, x.2.1 + 1, x.2.2 + p.2.toNat * 2 ^ (8 * x.2.1)) :: xs)
      else controlPieces ps ((p.1, 1, p.2.toNat) :: acc)
    | [] => controlPieces ps [(p.1, 1, p.2.toNat)]

/-- The writes of a WRITE outside the control space. -/
def writePieces (ps : List (Nat × Byte)) : List WritePiece :=
  (ps.filter fun p => !inControl p.1).map fun p => { pa := p.1, len := 1, x := p.2.toNat }

/-- The writes of a WRITE; those that went as packets have performed. -/
def State.cmdWrite (s : State) (ps : List (Nat × Byte)) : State :=
  let ws := if s.engine.left.isSome then [] else writePieces ps
  let s1 := ws.foldl (fun s w => s.unitPerform .mailbox w.pa w.len w.x mailboxAgent s.nextId) s
  (controlPieces (ps.filter fun p => inControl p.1) []).foldl (fun s x => s.controlWrite x.1 x.2.1 x.2.2) s1

/-- Whether the engine reaches a byte at once: one whose line its slice can serve, behind no other access (14_fabric R424, 13_proof R393, R402),
or one that takes no turn with others. A byte of a vault or a scratchpad it reaches by packet (R419). -/
def State.atOnce (s : State) (write : Bool) (pa : Nat) : Bool :=
  if inVault pa || inScratch pa then false
  else if inHbm pa || inHost pa then
    s.lineReady (sliceOf pa) (lineOf pa) && !s.sliceHolds (sliceOf pa) (.request s.nextId) (lineOf pa) write write
  else true

/-- What a READ or WRITE lacks: a translation, or a byte to be brought. -/
def State.cmdNeeds (s : State) (op : Nat) (c : MailboxCommand) : Option UnitStop :=
  match (s.asUnit .mailbox false).cmdPhys c (op == 2) c.len.toNat with
  | .error stop => some stop
  | .ok (.error _) => none
  | .ok (.ok ps) =>
    if op == 2 then none else (ps.find? fun pa => !s.atOnce false pa && (s.brought pa).isNone).map fun pa => .piece pa 1

/-- The writes that a WRITE performs by packets, as not all of its bytes can be reached at once. -/
def State.cmdPackets (s : State) (op : Nat) (c : MailboxCommand) : Option (List WritePiece) :=
  match s.cmdAddresses c true with
  | .ok ps => if op == 2 && ps.any fun pa => !s.atOnce true pa then some (writePieces (ps.zip (cmdBytes c))) else none
  | .error _ => none

/-- A list of words cut or filled to `n`. -/
def padTo (n : Nat) (ws : List Word) : List Word := ws.take n ++ List.replicate (n - ws.length) 0

/-! ## The commands -/

/-- NEG (R462): the first one fixes the set. -/
def State.cmdNeg (s : State) (c : MailboxCommand) : State × Answer :=
  let known : Word := if s.mgmt.rec' then 0x40 else 0x7F
  let agreed : Word := cmdWord c 0 &&& known
  let s1 : State := if s.mgmt.neg then s else s.updMgmt (fun (m : Management) => { m with neg := true, agreed := agreed })
  (s1, { status := 0, cause := 0, words := [s1.mgmt.agreed] })

def State.badLen (c : MailboxCommand) : Bool := c.len == 0 || 48 < c.len.toNat

/-- WRITE (R460). -/
def State.cmdWriteBytes (s : State) (c : MailboxCommand) : State × Answer :=
  if State.badLen c then (s, Answer.of 2)
  else match s.cmdAddresses c true with
    | .error e => (s, Answer.fault e)
    | .ok ps => (s.cmdWrite (ps.zip (cmdBytes c)), Answer.of 0)

/-- READ (R460). -/
def State.cmdRead (s : State) (c : MailboxCommand) : State × Answer :=
  if State.badLen c then (s, Answer.of 2)
  else match s.cmdAddresses c false with
    | .error e => (s, Answer.fault e)
    | .ok ps =>
      let x := s.bytesAt ps
      let bytes := x.1
      let words := (List.range ((c.len.toNat + 7) / 8)).map fun i =>
        word (((bytes.drop (8 * i)).take 8).foldr (fun b x => x * 256 + b.toNat) 0)
      if ps.any s.badByte then (s, Answer.fault 380) else (x.2, { status := 0, cause := 0, words })

/-- CTXNEW (R468): the ceilings of the live contexts stay within the policy ceiling. -/
def State.cmdCtxnew (s : State) (c : MailboxCommand) : State × Answer :=
  let sum := (s.pkg.ctxs.filter fun x => x.2.live).foldl (fun n x => n + x.2.ceiling.toNat) (cmdWord c 0).toNat
  if (s.ctx c.ctx.toNat).live || s.mgmt.policy < sum then (s, Answer.of 4)
  else (s.updCtx c.ctx.toNat fun _ => { Context.reset with live := true, ceiling := (cmdWord c 0).setWidth 32 }, Answer.of 0)

/-- An agent of a context is live: a thread, a task or child that waits, or a timed program. -/
def State.contextLive (s : State) (ctx : Nat) : Bool :=
  !s.contextIdle ctx || s.barrels.any fun b => b.2.tasks.any (fun p => p.ctx == ctx) || b.2.deque.any fun e => e.ctx == ctx

/-- Release a context: its block, partition, proof domain, attempts and sequences (11_barrel_traps R345, 14_fabric R448). -/
def State.releaseContext (s : State) (ctx : Nat) : State :=
  let s1 := (s.updCtx ctx fun x => { x with quads := 0 }).placePlates ctx
  let closed (u : SuffixUnit) : SuffixUnit := { u with open' := u.open'.filter fun q => q.2.ctx != ctx }
  let s2 : State := { s1 with
    impressions := s1.impressions.erase ctx
    slotPages := (s1.slotPages.erase (2 * ctx)).erase (2 * ctx + 1)
    releases := s1.releases.filter fun (r : Release) => r.ctx != ctx
    mirrors := s1.mirrors.filter fun (m : Nat × MirrorLine) => m.2.ctx != ctx
    suffix := s1.suffix.map fun (u : Nat × SuffixUnit) => (u.1, closed u.2)
    groups := s1.groups.map fun (g : ServingGroup) => if g.ctx == ctx && g.en then { g with en := false, holder := none, waiters := [] } else g
    kills := s1.kills.erase ctx }
  (s2.updPkg fun k => { k with
    ctxs := k.ctxs.erase ctx
    partials := k.partials.filter fun (p : RemotePartial) => p.ctx != ctx
    colls := k.colls.filter fun (x : Collective) => x.ctx != ctx
    begun := k.begun.filter fun b => b.1 / 2 ^ 23 != ctx
    came := k.came.filter fun b => b.1 / 2 ^ 23 != ctx }).heldAgain

/-- CTXREL (R460). -/
def State.cmdCtxrel (s : State) (c : MailboxCommand) : State × Answer :=
  let ctx := c.ctx.toNat
  if ctx == 0 || !(s.ctx ctx).live || s.contextLive ctx then (s, Answer.of 4) else (s.releaseContext ctx, Answer.of 0)

/-- STAGE (R460). -/
def State.cmdStage (s : State) (c : MailboxCommand) : State × Answer :=
  if 2 ^ 26 < c.word1.toNat + 48 then (s, Answer.of 2)
  else (s.updMgmt fun m => { m with staging := m.staging.put c.word1.toNat (cmdBytes c) }, Answer.of 0)

/-- Whether an image carries a good signature by the fused key (R465). -/
def imageSigned (img : Memory) : Bool := Config.imagePss img && Config.imageKey img == Config.keyHash
def imageVersion (img : Memory) : Nat := (Config.imageVersion img).toNat

/-- The verdict on the staged image (R465): 5, 6 or 0. -/
def State.imageStatus (s : State) : Nat :=
  if !imageSigned s.mgmt.staging then 5 else if imageVersion s.mgmt.staging < s.mgmt.floor then 6 else 0

/-- Step 5 of R463: the image is placed, context 0 gets its quad, its table and its first task. -/
def State.placeSystem (s : State) : State :=
  let img := s.mgmt.staging
  let s1 := s.updMgmt fun m => { m with
    placed := true, mrs := m.mrs.setIfInBounds 2 (extendMr (m.mrs[2]?.getD 0) (Config.imageDigest img)) }
  let s2 := ((Config.systemBytes img).filter fun c => inHbm c.1).foldl (fun s c => { s with mem := s.mem.put c.1 [c.2] }) s1
  let s3 := (s2.updCtx 0 fun x => { x with quads := 1, xen := true, root := Config.systemRoot img % 2 ^ 36 }).placePlates 0
  s3.updBarrel 0 fun b => { b with tasks := b.tasks ++ [{ ctx := 0, words := padTo 8 (Config.systemTask img) }] }

/-- The plates are to be released: in a domain, which firmware joins or not (log entry 4), not before the IEEE 1588 engine has been locked
for 2^20 ticks (R464). -/
def State.releaseLater (s : State) : State :=
  let a := s.drawValue
  let d := a.2.drawDelay
  let joins := s.feature 4 && a.1 % 2 == 1
  let due := s.clk + d.1
  (d.2.updMgmt fun m => { m with joins }).at' (if joins then max due (s.mgmt.lockedAt + 2 ^ 20) else due) phClock 0 (.op .tickLoad)

/-- COMMIT of a system image (R463 step 5): the plates are released after it. -/
def State.cmdCommitSystem (s : State) (c : MailboxCommand) : State × Answer :=
  if cmdWord c 0 != 0 then (s, Answer.of 2)
  else if s.mgmt.rec' then (s, Answer.of 1)
  else if s.mgmt.placed then (s, Answer.of 4)
  else match s.imageStatus with
    | 0 => (s.placeSystem.releaseLater, Answer.of 0)
    | n => (if n == 5 then s.logEvent evSignature 0 else s, Answer.of n)

/-- The firmware slot that is not active: the one that does not run, or in recovery, where none runs, the one that is not to boot (R463). -/
def Management.inactive (m : Management) : Nat := 1 - (if m.rec' then m.active else m.running)

/-- COMMIT of firmware (R465): the inactive slot takes the image and is active for the next reset. -/
def State.cmdCommitFirmware (s : State) (c : MailboxCommand) : State × Answer :=
  if cmdWord c 0 != 1 then (s, Answer.of 2)
  else if !s.feature 6 then (s, Answer.of 1)
  else match s.imageStatus with
    | 0 =>
      let other := s.mgmt.inactive
      let slot : FirmwareSlot := { image := s.mgmt.staging, fails := 0, failed := false }
      ((s.updMgmt fun m => { m with slots := m.slots.setIfInBounds other slot, active := other }).logEvent evFirmware 0, Answer.of 0)
    | n => (if n == 5 then s.logEvent evSignature 0 else s, Answer.of n)

def State.slotImage (s : State) (i : Nat) : Memory := (s.mgmt.slots[i]?.getD FirmwareSlot.reset).image

/-- The contents of an attestation report (R467): the nonce, MR0 .. MR7, the agreed features, the active slot, both security versions and
RETMASK, in the spec's order and in bytes of the model's choice (log entry 4). -/
def State.reportBody (s : State) (nonce : List Byte) : List Byte :=
  let m := s.mgmt
  nonce ++ m.mrs.toList.flatMap (fun r => leBytes r.toNat 64) ++ leBytes m.agreed.toNat 8 ++ leBytes m.running 8 ++
    leBytes (imageVersion (s.slotImage 0)) 8 ++ leBytes (imageVersion (s.slotImage 1)) 8 ++ leBytes s.pkg.retired.toNat 40

/-- ATTEST (R467): the nonce's last 16 bytes were staged at offset 0; signature and certificate follow the report. -/
def State.cmdAttest (s : State) (c : MailboxCommand) : State × Answer :=
  let d := s.drawValue
  let body := s.reportBody (cmdBytes c ++ s.mgmt.staging.bytes 0 16)
  (d.2.writeBytes (hostAt c.word1.toNat) mailboxAgent d.2.nextId (body ++ Config.attestSignature body d.1 ++ Config.attestCertificate), Answer.of 0)

/-- EVREAD (R466). -/
def State.cmdEvread (s : State) (c : MailboxCommand) : State × Answer :=
  if 4096 ≤ c.word1.toNat then (s, Answer.of 2)
  else (s, { status := 0, cause := 0, words := s.mgmt.log.getD c.word1.toNat [0, 0, 0, 0] })

/-- What a command needs (R460); recovery serves four commands only (R463). -/
def State.cmdReady (s : State) (op : Nat) (kind : Word) : Bool :=
  let m := s.mgmt
  let base := match op with
    | 1 | 6 | 7 | 9 => m.ready
    | 3 => m.neg && s.feature 1
    | 8 => m.neg && s.feature 5
    | _ => m.neg
  m.ready && base && (!m.rec' || op == 1 || op == 6 || op == 9 || (op == 7 && kind == 1))

/-- A field of word 0 breaks R460, its opcode among them. -/
def badCommand (op : Nat) (c : MailboxCommand) : Bool := op == 0 || 9 < op || c.reserved != 0 || c.ctx == 0xFFFF || (c.phys == 1 && c.ctx != 0)

/-- One command: bad fields before what it needs. -/
def State.mailboxCommand (s : State) (op : Nat) (c : MailboxCommand) : State × Answer :=
  if badCommand op c then (s, Answer.of 2)
  else if !s.cmdReady op (cmdWord c 0) then (s, Answer.of 1)
  else match op with
    | 1 => s.cmdNeg c
    | 2 => s.cmdWriteBytes c
    | 3 => s.cmdRead c
    | 4 => s.cmdCtxnew c
    | 5 => s.cmdCtxrel c
    | 6 => s.cmdStage c
    | 7 => if cmdWord c 0 == 0 then s.cmdCommitSystem c else s.cmdCommitFirmware c
    | 8 => s.cmdAttest c
    | 9 => s.cmdEvread c
    | _ => (s, Answer.of 2)

/-! ## Responses (R461) -/

/-- Whether the ring has a free entry. -/
def Management.room (m : Management) : Bool := decide ((m.written - m.consumed).toNat < 2 ^ m.rspSize)

/-- Write a response into the ring; word 0 lacks its phase. -/
def State.respond (s : State) (ws : List Word) : State :=
  let m := s.mgmt
  let n := m.written.toNat
  let phase : Word := if n / 2 ^ m.rspSize % 2 == 0 then word (2 ^ 40) else 0
  let all := ((ws.headD 0) ||| phase) :: ws.drop 1
  let at' := hostAt (m.rspBase * 4096) + n % 2 ^ m.rspSize * 64
  (s.writePhys at' 64 (all.foldr (fun w x => x * 2 ^ 64 + w.toNat) 0) mailboxAgent s.nextId false).updMgmt fun m =>
    { m with written := m.written + 1, held := none }

/-- A response's words. -/
def Answer.response (a : Answer) (op : Nat) (c : MailboxCommand) : List Word :=
  word (c.tag.toNat * 2 ^ 48 + a.cause * 2 ^ 16 + op * 2 ^ 8 + a.status) :: 0 :: padTo 6 a.words

/-- Why a READ or WRITE is not applied now: a thermal trip has stopped the memory (R469), or the engine waits for a translation, or for an
access that takes its turn (14_fabric R424, R433); the state in which it waits. -/
def State.cmdWaits (s : State) (op : Nat) (c : MailboxCommand) : Option State :=
  if !(op == 2 || op == 3) || badCommand op c || !s.cmdReady op (cmdWord c 0) || State.badLen c then none
  else if s.mgmt.stopped then
    let d := s.drawDelay
    some (d.2.after d.1 phNet 0 .mailbox)
  else if s.engine.waits.isSome then some s
  else if s.engine.left.isSome then
    let w := s.unitWritesOut .mailbox mailboxAgent s.nextId
    if w.1 then none else some w.2
  else match s.cmdNeeds op c, s.cmdPackets op c with
    | some stop, _ => some (s.unitNeeds .mailbox stop)
    | none, some ws => some ((s.setUnit { s.engine with left := some ws }).unitAgain .mailbox 0)
    | none, none => none

/-- The engine applies its oldest command, and its response is written or held. -/
def State.mailboxStep (s : State) : State :=
  match s.mgmt.held, s.mgmt.queue with
  | none, q :: qs => match s.cmdWaits q.1 q.2 with
    | some s1 => s1
    | none =>
      let r := (s.updMgmt fun m => { m with queue := qs }).mailboxCommand q.1 q.2
      let ws := r.2.response q.1 q.2
      let s1 := (if r.1.mgmt.room then r.1.respond ws else r.1.updMgmt fun m => { m with held := some ws }).dropUnit .mailbox
      if qs.isEmpty then s1 else s1.after 0 phNet 0 .mailbox
  | _, _ => s

/-- A command is submitted (R459): dropped when no entry is free; applied at once when nothing stands before it. -/
def State.submit (s : State) (op : Nat) (c : MailboxCommand) : Result :=
  let m := s.mgmt
  if 64 ≤ m.queue.length then .next (s.updMgmt fun m => { m with ovf := true })
  else
    let s1 := s.updMgmt fun m => { m with queue := m.queue ++ [(op, c)] }
    .next (if m.queue.isEmpty && m.held.isNone then s1.mailboxStep else s1)

/-- What the host reads in the mailbox window (R459). -/
def State.mailboxRead (s : State) (offset : Nat) : Word :=
  let m := s.mgmt
  match offset with
  | 0x040 => word (m.rec'.toNat * 2 ^ 19 + m.neg.toNat * 2 ^ 18 + m.ready.toNat * 2 ^ 17 + m.ovf.toNat * 2 ^ 16 + (64 - m.queue.length))
  | 0x048 => word (m.rspBase * 4096 + m.rspSize)
  | 0x050 => m.consumed.setWidth 64
  | _ => 0

/-- The host stores into its own memory, with which the device is coherent (R458); its accesses that wait for a line look again. -/
def State.hostStores (s : State) (pa : Nat) (bytes : List Byte) : State :=
  if inHost pa && decide (pa + bytes.length ≤ 2 ^ 48) then s.writeBytes pa mailboxAgent s.nextId bytes else s

/-- MBRCON_WRITE (R461). -/
def execMbrconWrite (value : BitVec 64) (s : State) : Result :=
  let m := s.mgmt
  let v : BitVec 16 := value.setWidth 16
  if (m.written - m.consumed).toNat < (v - m.consumed).toNat then .next s
  else
    let s1 := s.updMgmt fun m => { m with consumed := v }
    match m.held with
    | some ws => .next (if s1.mgmt.room then (s1.respond ws).after 0 phNet 0 .mailbox else s1)
    | none => .next s1

/-! ## The opcode table's rows -/

/-- NEG. -/
def execNeg (command : MailboxCommand) (s : State) : Result := s.submit 1 command
/-- WRITE. -/
def execWrite (command : MailboxCommand) (s : State) : Result := s.submit 2 command
/-- READ. -/
def execRead (command : MailboxCommand) (s : State) : Result := s.submit 3 command
/-- CTXNEW. -/
def execCtxnew (command : MailboxCommand) (s : State) : Result := s.submit 4 command
/-- CTXREL. -/
def execCtxrel (command : MailboxCommand) (s : State) : Result := s.submit 5 command
/-- STAGE. -/
def execStage (command : MailboxCommand) (s : State) : Result := s.submit 6 command
/-- COMMIT, kind 0. -/
def execCommitSystemImage (command : MailboxCommand) (s : State) : Result := s.submit 7 command
/-- COMMIT, kind 1. -/
def execCommitFirmware (command : MailboxCommand) (s : State) : Result := s.submit 7 command
/-- ATTEST. -/
def execAttest (command : MailboxCommand) (s : State) : Result := s.submit 8 command
/-- EVREAD. -/
def execEvread (command : MailboxCommand) (s : State) : Result := s.submit 9 command

end Sys2Proof.Machine
end

