-- ==== Sys2Proof/Machine/Boot.lean ====
section
/-! DEFINITION. Package reset and the loading of TICK, thermal trip, loss of power (16_host R463 to R469), and the reset of a plate
(13_proof R393). -/

namespace Sys2Proof.Machine

open Sys2Proof

/-! ## Package reset (R463, R465 to R467) -/

/-- What the host, the board and the power supply do, the host's writes of the mailbox
window's registers among it (log entry 7): it goes on when the clocks of the plates have stopped. -/
def fromHost (i : Instr) : Bool :=
  match i with
  | .mbrconWrite _ | .neg _ | .write _ | .read _ | .ctxnew _ | .ctxrel _ | .stage _ | .commitSystemImage _ | .commitFirmware _ | .attest _
  | .evread _ | .thermalTrip | .packageReset | .powerLoss => true
  | .controlRegisterWrite address _ => decide (address < 4096)
  | _ => false

/-- What comes to the package from outside (log entry 7): such events outlive a reset. -/
def fromOutside (i : Instr) : Bool :=
  match i with
  | .linkBeatDelivery .. | .remoteMessageArrival _ | .collectivePacketIngress .. => true
  | i => fromHost i

def Item.outside (i : Item) : Bool :=
  match i with
  | .op i => fromOutside i
  | .command .. | .hostStore .. => true
  | _ => false

/-- What goes on when a thermal trip has stopped the plates (R469). -/
def Item.onDie (i : Item) : Bool :=
  match i with
  | .op i => fromHost i
  | .mailbox | .command .. | .hostStore .. | .policy _ => true
  | _ => false

/-- HBM as its stacks hold it: what the slices had not written back is lost. -/
def State.hbmKept (s : State) : Memory :=
  (s.hbmOld.foldl (fun (m : Memory) l => m.putNum l.1 64 l.2.toNat) s.mem).filter fun c => inHbm c.1 || inHost c.1

/-- The state that a package reset starts from (log entry 13): HBM, host memory, the event log, the firmware slots and what is fused. -/
def State.cleared (s : State) : State :=
  let m : Management := { Management.reset with log := s.mgmt.log, logSeq := s.mgmt.logSeq, slots := s.mgmt.slots, active := s.mgmt.active,
                                                floor := s.mgmt.floor }
  let k : Package := { Package.reset with poison := s.pkg.poison.filter inHbm }
  { State.reset with clk := s.clk, events := s.events.filter (fun e => e.item.outside), rank := s.rank, free := s.free, nextId := s.nextId,
                     mem := s.hbmKept, mgmt := m, pkg := k }

def State.slotSigned (s : State) (i : Nat) : Bool := imageSigned (s.mgmt.slots[i]?.getD FirmwareSlot.reset).image
/-- Whether the ROM starts a slot (R465). -/
def State.slotGood (s : State) (i : Nat) : Bool := !(s.mgmt.slots[i]?.getD FirmwareSlot.reset).failed && s.slotSigned i

/-- The ROM looks at a slot: a signature that fails is logged (R466). -/
def State.romLooks (s : State) (i : Nat) : State :=
  if (s.mgmt.slots[i]?.getD FirmwareSlot.reset).failed || s.slotSigned i then s else s.logEvent evSignature 0

/-- The 64-byte boot record (R467). -/
def State.bootRecord (s : State) (slot : Nat) : List Byte :=
  leBytes slot 8 ++ leBytes (imageVersion (s.slotImage 0)) 8 ++ leBytes (imageVersion (s.slotImage 1)) 8 ++
    leBytes s.mgmt.floor 8 ++ leBytes Config.keyHash.toNat 32

/-- Steps 2 and 3: the ROM measures the firmware that it starts. -/
def State.measured (s : State) (slot : Nat) : State :=
  s.updMgmt fun (m : Management) =>
    let mr (i : Nat) : BitVec 512 := m.mrs[i]?.getD 0
    { m with running := slot
             mrs := (m.mrs.setIfInBounds 0 (extendMr (mr 0) (Config.imageDigest (s.slotImage slot)))).setIfInBounds 1
               (extendMr (mr 1) (ofBytes64 (sha512 (s.bootRecord slot)))) }

/-- Step 4 fails in a slot; the third time in a row the slot is marked failed and the other one boots: the boot ROM starts over (log
entry 4). -/
def State.trainingFails (s : State) (slot : Nat) : State :=
  let x := s.mgmt.slots[slot]?.getD FirmwareSlot.reset
  let x1 : FirmwareSlot := { x with fails := x.fails + 1, failed := decide (3 ≤ x.fails + 1) }
  let s1 := s.updMgmt fun (m : Management) => { m with slots := m.slots.setIfInBounds slot x1 }
  if x1.failed then
    let d := ((s1.updMgmt fun (m : Management) => { m with active := 1 - slot }).logEvent evFirmware 0).drawDelay
    d.2.after d.1 phClock 0 (.op .packageReset)
  else s1

/-- Step 4 succeeds: the mailbox is ready, and the floor rises to the version of the slot; when the IEEE 1588 engine locks is open (log
entry 4). -/
def State.trainingDone (s : State) (slot : Nat) : State :=
  let x := s.mgmt.slots[slot]?.getD FirmwareSlot.reset
  let x1 : FirmwareSlot := { x with fails := 0 }
  let d := s.drawValue
  let l := d.2.drawDelay
  l.2.updMgmt fun (m : Management) =>
    { m with slots := m.slots.setIfInBounds slot x1, floor := max m.floor (imageVersion x.image), ready := true
             policy := d.1 % (Config.packageCap.toNat + 1), lockedAt := s.clk + l.1 }

/-- Steps 3 and 4 in a slot; whether training succeeds is open (log entry 4). -/
def State.bootSlot (s : State) (slot : Nat) : State :=
  let d := (s.measured slot).drawValue
  if d.1 % 2 == 1 then d.2.trainingFails slot else d.2.trainingDone slot

/-- PACKAGE_RESET: steps 1 to 4. The ROM tries the active slot, then the other one, whose start is a slot change; when both fail it serves
the mailbox itself. -/
def execPackageReset (s0 : State) : Result :=
  let s := s0.cleared
  let a := s.mgmt.active
  let s1 := s.romLooks a
  if s.slotGood a then .next (s1.bootSlot a)
  else if s.slotGood (1 - a) then .next ((s1.logEvent evFirmware 0).bootSlot (1 - a))
  else .next ((s1.romLooks (1 - a)).updMgmt fun (m : Management) => { m with rec' := true, ready := true })

/-! ## Steps 5 and 6 (R464) -/

/-- LNKCFG as firmware derives it when the domain is formed: which ports are in service, their neighbours and latencies are open (log
entry 4); the agreed links have been trained (R463 step 4). -/
def State.formLinks (s : State) (size : Nat) : State :=
  (List.range 12).foldl (fun s p =>
    let d := s.drawValue
    let v := d.1
    if v % 2 == 0 then d.2.updLink p fun l => { l with en := false, upAt := none }
    else d.2.updLink p fun l => { l with en := true, upAt := some s.clk, nbr := v / 2 % size, lat := 8 + v / 128 % 4089 }) s

/-- Firmware joins a timed domain, or does not; with which counter value, size, position and latency is open (log entry 4). -/
def State.joinDomain (s : State) : State :=
  let b := s.drawValue
  let c := b.2.drawValue
  let d := c.2.drawValue
  let e := d.2.drawValue
  if s.mgmt.joins then
    let size := b.1 % 64 + 1
    let lat := 8 + d.1 % 65528
    ({ e.2 with tick := word e.1 }.updPkg fun k =>
      { k with indom := true, domSize := size, domPos := c.1 % size, domLat := lat, skew := false }).formLinks size
  else { e.2 with tick := 0 }

/-- TICK_LOAD: the plates are released, once the system image is in place; what the barrel cores hold may run. -/
def execTickLoad (s : State) : Result :=
  if !s.mgmt.placed || s.mgmt.released then .next s
  else
    let s1 := s.joinDomain.updMgmt fun (m : Management) => { m with released := true }
    .next (((s1.tickMarks.tickTargets).dispatchFrom 0).barrels.foldl (fun s b => (s.dispatchFrom b.1).issueFrom b.1 (s.clk + 1))
      ((s1.tickMarks.tickTargets).dispatchFrom 0))

/-- THERMAL_TRIP (R469). -/
def execThermalTrip (s : State) : Result :=
  .next ((s.updMgmt fun (m : Management) => { m with stopped := true }).logEvent evThermal 0)

/-- POWER_LOSS (R466): only what is outside the package, fused, or in a firmware slot is left; the next package reset is due. -/
def execPowerLoss (s : State) : Result :=
  let m : Management := { Management.reset with slots := s.mgmt.slots, active := s.mgmt.active, floor := s.mgmt.floor }
  .next { State.reset with free := s.free, mem := s.mem.filter (fun c => inHost c.1), mgmt := m }

/-! ## Plate reset (13_proof R393) -/

/-- Contexts that hold a quad on a plate. -/
def State.contextsOn (s : State) (plate : Nat) : List Nat :=
  (s.pkg.ctxs.filter fun c => (s.platesOf c.1).contains plate).map (·.1)

/-- The record of an abandoned seal no longer checks, durably (R404): its check word is inverted, unless it has been already. -/
def State.spoilRecord (s : State) (i : Impression) : State :=
  let at' := i.slotList.headD 0 + 0x38
  let x := (word (s.mem.num at' 8))
  let s1 : State := { s with mem := s.mem.putNum at' 8 (if i.stage == .undoing then x else BitVec.not x).toNat
                             throughs := s.throughs.filter fun (w : Nat × WriteThrough) => w.2.line != lineOf at' }
  s1.settled (lineOf at')

/-- A seal that runs is abandoned (R404). One of a context that is not killed, whose pages alone the plate holds, fails (log entry 52). -/
def State.abandonSeal (s : State) (ctx : Nat) : State :=
  match s.impressions.get? ctx with
  | none => s
  | some i =>
    if i.stage == .open then s
    else
      let s1 := if i.stage == .writing || i.stage == .undoing then s.spoilRecord i else s
      let s2 := ({ s1 with impressions := s1.impressions.erase ctx }.updCtx ctx fun x =>
        { x with prpState := i.before, prpOpen := false, prpImp := 0 }).heldAgain
      match i.asker with
      | .request id => s2.reply id portDie [3] none
      | .core cell => if (s2.core cell).ctx == ctx && (s2.core cell).run.occupied then s2.updClock cell fun k => { k with prSfail := true } else s2

/-- Step 1: seals of the plate's contexts, and seals whose pages lie in its stacks, are abandoned. -/
def State.resetKills (s : State) (plate : Nat) : State :=
  let s0 := (s.impressions.filter fun i => i.2.liesOn plate).foldl (fun s i => s.abandonSeal i.1) s
  (s0.contextsOn plate).foldl (fun s c =>
    let s1 := s.abandonSeal c
    if (s1.ctx c).killed then s1
    else s1.killContext c { kind := 8, cause := 344, cell := 0, thread := 0, ctx := c, pc := 0, val := 0 }) s0

/-- A line of HBM loses what had not reached it. -/
def State.loseLine (s : State) (line : Nat) : State := { s with mem := s.mem.putNum line 64 (s.hbmLine line) }.settled line

/-- Step 2: sweeps complete, dirty lines go to HBM, but for some that the limit of 2^20 ticks leaves (log entry 5). -/
def State.resetFlush (s : State) (plate : Nat) : Nat × State :=
  let d := s.drawValue
  (List.range 16).foldl (fun (x : Nat × State) i =>
    let k := 16 * plate + i
    let c := x.2.slice k
    let lines := (c.buffer ++ c.dirty.filter fun l => !c.buffer.contains l).filter fun l => !c.dead.any fun d => d.2.contains l
    let n := d.1 % (lines.length + 1)
    let done := (lines.take (lines.length - n) ++ c.dead.flatMap (·.2)).foldl (fun (s : State) l => s.settled l) x.2
    let lost := (lines.drop (lines.length - n)).foldl (fun (s : State) l => s.loseLine l) done
    (x.1 + n, lost.updSlice k fun c => { c with dirty := [], buffer := [], dead := [], granted := [] })) (0, d.2)

/-- A write-through is dropped: its line is what HBM holds, and no release that covers it completes: one that stands for it never reaches
a stack. The keeper's and the mailbox engine's are covered by none. -/
def State.dropThrough (s : State) (id : Nat) (w : WriteThrough) : State :=
  let s1 := { s.loseLine w.line with throughs := (s.loseLine w.line).throughs.erase id }
  if w.agent == keeperAgent || w.agent == mailboxAgent then s1
  else { s1 with throughs := s1.throughs.set s1.nextId { w with line := hbmTop, reached := false }, nextId := s1.nextId + 1 }

/-- Step 3: the write-throughs of a plate that have reached a stack are acknowledged; the others are dropped. -/
def State.resetThroughs (s : State) (plate : Nat) : State :=
  let mine := s.throughs.filter fun w => w.2.line / 2 ^ 37 == plate
  let acked := (mine.filter fun w => w.2.reached).foldl (fun (s : State) w => match execWriteThroughAck w.1 s with
    | .next s1 => s1
    | _ => s) s
  (mine.filter fun w => !w.2.reached).foldl (fun (s : State) w => s.dropThrough w.1 w.2) acked

/-- Cells of a plate. -/
def onPlate (plate cell : Nat) : Bool := plateOf cell == plate
def keepCells {α : Type} (plate : Nat) (t : Table α) : Table α := t.filter fun (x : Nat × α) => !onPlate plate x.1

/-- Physical addresses of a plate's core stores, scratchpads and vaults. -/
def onPlateMemory (plate pa : Nat) : Bool :=
  (inStoreStep pa && onPlate plate (storeCell pa)) || (inScratch pa && onPlate plate (scratchCell pa)) ||
    (inVault pa && (pa - 0x010000000000) / 2 ^ 26 / 10 == plate)

/-- Items of a plate's cores. -/
def Item.onPlate (plate : Nat) (i : Item) : Bool :=
  match i with
  | .slot c .. | .finish c | .resolve c | .thread c _ | .port c _ | .grant c | .barrelLand c | .getc c .. => Machine.onPlate plate c
  | _ => false

/-- A side port of the plate: what agents of other plates have waiting there stays. -/
def SidePort.plateReset (p : SidePort) (plate : Nat) (lives : Nat → Bool) (remote : Nat → Bool) : SidePort :=
  { p with windows := p.windows.filter fun w => lives w.2
           lines := p.lines.filter fun j => match j with
             | .copy c _ => !onPlate plate c
             | .remote id _ => remote id
             | .status .. => false }

/-- The package's registers of a plate; its slot ratio, its queue of messages and the bursts of other plates' copies stay. -/
def Package.plateReset (k : Package) (plate : Nat) (lives : Nat → Bool) (remote : Nat → Bool) : Package :=
  let p := k.plates[plate]?.getD Plate.reset
  let fresh : Plate := { Plate.reset with set := p.set, lend := p.lend, b := p.b, a := p.a, queue := p.queue
                                          bursts := p.bursts.filter fun b => !onPlate plate b.2.1 }
  let slices : Table Slice := k.slices.map fun (x : Nat × Slice) =>
    (x.1, if x.1 / 16 == plate then { Slice.reset with waiting := x.2.waiting } else x.2)
  { k with
    plates := k.plates.setIfInBounds plate fresh
    slices := slices
    txbase := k.txbase.filter fun (x : Nat × Nat) => x.1 / 20 != plate
    imgbase := keepCells plate k.imgbase
    gangs := k.gangs.filter fun (x : Nat × Gang) => x.1 / 128 != plate
    ports := k.ports.map fun (x : Nat × SidePort) => (x.1, if onPlate plate (x.1 / 32) then x.2.plateReset plate lives remote else x.2)
    cached := k.cached.filter fun (l : CachedLeaf) => l.plate != plate
    colls := k.colls.filter fun (c : Collective) => c.plate != plate
    sxreg := Vector.ofFn fun (i : Fin 40) => if i.val / 10 == plate then 0 else k.sxreg[i]
    poison := k.poison.filter fun (pa : Nat) => !onPlateMemory plate pa }

/-- Whether a unit belongs to a plate: its work ends with the plate's reset. -/
def State.unitOn (s : State) (plate : Nat) (u : MemUnit) : Bool :=
  match u with
  | .walk id => (s.walks.get? id).any fun w => w.plate == plate
  | .suffix c => c / 10 == plate
  | .keeper id => (s.requests.get? id).any fun r => onPlate plate r.cell
  | .mailbox => false
  | .args p _ | .resume p _ => p == plate
  | .image c => onPlate plate c

/-- A unit whose access or walk has gone with a plate looks again. -/
def State.unitsAgain (s : State) : State :=
  s.units.foldl (fun s j => if j.waits.all fun id => (s.walks.get? id).isSome || (s.requests.get? id).isSome then s
    else (s.setUnit { j with waits := none }).unitAgain j.user 0) s

/-- Step 4: the plate and its vault die are reset. -/
def State.resetPlate (s : State) (plate : Nat) : State :=
  let unit (u : Nat × SuffixUnit) : Nat × SuffixUnit :=
    (u.1, if u.1 / 10 == plate then { SuffixUnit.reset with queue := u.2.queue } else u.2)
  let s1 : State := { s with
    mem := s.mem.filter fun c => !onPlateMemory plate c.1
    text := s.text.filter fun c => c.1 / 2 ^ 20 / 20 != plate
    full := s.full.filter fun (pa : Nat) => !onPlateMemory plate pa
    cores := keepCells plate s.cores
    barrels := keepCells plate s.barrels
    cload := s.cload.filter fun (x : Nat × Word) => x.1 / 10 != plate
    accesses := s.accesses.filter fun (a : Access) => !onPlate plate a.cell
    requests := s.requests.filter fun (r : Nat × Request) => !onPlate plate r.2.cell
    walks := s.walks.filter fun (w : Nat × Walk) => w.2.plate != plate
    units := s.units.filter fun (j : UnitJob) => !s.unitOn plate j.user
    remotes := s.remotes.filter fun (r : Nat × RemoteStore) => !onPlate plate r.2.source
    suffix := s.suffix.map unit
    events := s.events.filter fun (e : Event) => !e.item.onPlate plate }
  let s2 := ((List.range 80).foldl (fun s c => s.newOwner (80 * plate + c)) ((List.range 10).foldl (fun s c => s.sxNext (10 * plate + c)) s1)).unitsAgain
  s2.updPkg fun k => k.plateReset plate (fun id => (s2.requests.get? id).isSome) fun id => (s2.remotes.get? id).isSome

/-- Steps 5 and 6: the plate serves again, and the other supervisors hear of it. -/
def State.resetDone (s : State) (r : PlateReset) : State :=
  let s1 := s.updPkg fun k => { k with resets := k.resets.drop 1 }
  let s0 := (List.range 16).foldl (fun s i => s.sliceAgain (16 * r.plate + i)) s1
  let s2 := (s0.pkg.ports.foldl (fun s p => if onPlate r.plate (p.1 / 32) && !(p.2.windows.isEmpty && p.2.lines.isEmpty) then
      s.wakePort (p.1 / 32) (p.1 % 32) else s) s0).keeperLooks
  let s4 := s2.barrels.foldl (fun s b => s.issueFrom b.1 (s.clk + 1)) s2
  let s3 := ((List.range 4).filter (· != r.plate)).foldl (fun s p => s.postMessage p
    { kind := 0x31, cause := 344, cell := 0, thread := 0, ctx := 0, pc := word r.plate, val := word r.lost }) s4
  if s3.pkg.resets.isEmpty then s3 else s3.after 1 phNet 0 (.op .plateReset)

/-- The next step of the oldest plate reset, after a duration of its own. -/
def State.resetNext (s : State) (r : PlateReset) : State :=
  let s1 := s.updPkg fun k => { k with resets := r :: k.resets.drop 1 }
  let d := s1.drawDelay
  d.2.after d.1 phNet 0 (.op .plateReset)

/-- PLATE_RESET: one step of R393; the flush waits until the killed contexts have ended. -/
def execPlateReset (s : State) : Result :=
  match s.pkg.resets with
  | [] => .next s
  | r :: _ => match r.step with
    | 1 => .next ((s.resetKills r.plate).resetNext { r with step := 2 })
    | 2 =>
      if (s.contextsOn r.plate).any fun c => (s.kills.get? c).isSome then .next (s.resetNext r)
      else
        let x := s.resetFlush r.plate
        .next (x.2.resetNext { r with step := 3, lost := x.1 })
    | 3 => .next ((s.resetThroughs r.plate).resetNext { r with step := 4 })
    | 4 => .next ((s.resetPlate r.plate).resetNext { r with step := 5 })
    | _ => .next (s.resetDone r)

end Sys2Proof.Machine
end

