-- ==== Sys2Proof/Machine/Delivery.lean ====
section
/-! DEFINITION. Requests of barrel threads, and lines of tagged copies, at their targets, and the return of their answers (10_barrel R297,
R319 to R325; 12_draft R368; 13_proof R395; 14_fabric R419, R424, R441). -/

namespace Sys2Proof.Machine

open Sys2Proof

/-! ## The device control space (01_machine R16, R17) -/

/-- A request at the control space. -/
def State.controlRequest (s : State) (id : Nat) (r : Request) : State :=
  let v := s.controlNum r.pa r.len
  let put (x : Nat) : State := s.controlWrite r.pa r.len (x % 2 ^ (8 * r.len))
  match r.kind with
  | .load _ n sx => s.answered id [extendTo n sx v] none
  | .store _ x => (put x.toNat).answered id [] none
  | .amo _ op n sx x => (put (amoValue op n v (x.toNat % 2 ^ (8 * n)))).answered id [extendTo n sx v] none
  | .cas _ n sx e x => (if v == e.toNat % 2 ^ (8 * n) then put x.toNat else s).answered id [extendTo n sx v] none
  | .packet .. => s.answered id ((List.range 8).map fun i => word (s.controlNum (r.pa + 8 * i) 8)) none
  | .taskGet _ _ ws => (s.controlLine r.pa (ofWords ws)).answered id [1] none
  | .unit _ none => s.answered id ((List.range ((r.len + 7) / 8)).map fun i => word (s.controlNum (r.pa + 8 * i) (min 8 (r.len - 8 * i)))) none
  | .unit _ (some (x, _, _)) => (if r.len == 64 then s.controlLine r.pa x else if r.len == 0 then s else put x).answered id [] none
  | _ => s.answered id [] none

/-- A line of a tagged copy at the control space. -/
def State.controlCopy (s : State) (cell line : Nat) : State :=
  match (s.core cell).cpy.copyOfLine line with
  | none => s
  | some t => match t.lines.find? fun l => l.id == line with
    | none => s
    | some l =>
      let at' := lineOf l.physical
      if !l.read then s.lineRead cell t l (BitVec.ofNat 512 (s.controlNum at' 64))
      else (s.controlLine at' (if l.discard then 0 else l.data.toNat)).lineGone cell t l

/-! ## Memory -/

/-- A request reaches the memory of its address. -/
def State.reachesMemory (s : State) (id : Nat) (r : Request) : State :=
  if r.sp || inScratch r.pa then s.reachesBanks id r
  else if inHbm r.pa || inHost r.pa then s.after 0 phNet 0 (.op (.sliceRequest id))
  else if inVault r.pa then s.queueVault r.pa (.request id)
  else if inControl r.pa then s.controlRequest id r
  else s.performs id r

/-- A window access reaches its core store, or an address that has no window (04_ordering R111). -/
def State.reachesWindow (s : State) (id : Nat) (r : Request) : State :=
  match r.kind with
  | .wpost .. => s.after 0 phNet (r.cell * 64 + r.thread) (.op (.windowAccessArrival id))
  | _ =>
    if inStoreStep r.pa then s.queueWindow (storeCell r.pa) (bankOf r.pa) r.cell r.thread id
    else s.after 0 phNet (r.cell * 64 + r.thread) (.op (.windowAccessArrival id))

/-! ## Threads and queues -/

/-- Whether the thread in a slot takes what a context sends (10_barrel R319, R323, 01_machine R470). -/
def State.takesFrom (s : State) (ctx cell t : Nat) : Bool :=
  match s.thread? cell t with
  | some x => ctx == 0 || x.ctx == ctx
  | none => false

/-- A message arrives (R323): accepted, discarded, or it waits for room. -/
def State.messageArrives (s : State) (id : Nat) (r : Request) (cell t : Nat) (ws : List Word) : State :=
  if !s.takesFrom r.ctx cell t then s.reply id (routerOf cell) [0] none
  else
    let x := s.putMessage cell t (r.message ws)
    if x.1 then x.2.reply id (routerOf cell) [1] none
    else (s.updReq id fun r => { r with stage := .parked }).updThread cell t fun x => { x with senders := x.senders ++ [id] }

/-- A task packet arrives (R320). -/
def State.packetArrives (s : State) (id : Nat) (r : Request) (cell : Nat) (ws : List Word) : State :=
  let full := decide (64 ≤ (s.barrel cell).tasks.length) || s.retired cell || (s.ctx r.ctx).killed
  match s.taskContext r.ctx cell with
  | none => s.reply id (routerOf cell) [0] none
  | some ctx =>
    if full then s.reply id (routerOf cell) [0] none
    else ((s.updBarrel cell fun b => { b with tasks := b.tasks ++ [{ ctx, words := ws }] }).dispatchFrom cell).reply id (routerOf cell) [1] none

/-- A message for another package (R441): whether it is accepted, and when its return comes, is open; a package map without the target
refuses it. -/
def State.remoteArrives (s : State) (id position : Nat) (target : Word) : State :=
  match s.pkg.map.get? position with
  | some e =>
    if e.getLsbD 191 then
      let v := s.drawValue
      v.2.reply id portDie [word (v.1 % 2)] none
    else s.reply id portDie [] (some (49, target))
  | none => s.reply id portDie [] (some (49, target))

/-- A request arrives at its target. -/
def State.arrives (s : State) (id : Nat) (r : Request) : State :=
  match r.kind with
  | .wake _ c t =>
    let x := s.wakeThread c t (if r.ctx == 0 then none else some r.ctx)
    x.2.reply id (routerOf c) [word x.1] none
  | .send _ c t ws .. => s.messageArrives id r c t ws
  | .taskPut _ c ws => s.packetArrives id r c ws
  | .remoteSend _ p target _ => s.remoteArrives id p target
  | .suffix .. => s.sxArrive r.pa id
  | .proof .. => s.keeperArrive (.request id)
  | .sample d j req => s.sampleArrives id r d j req
  | .wld .. | .wst .. | .wpost .. => s.reachesWindow id r
  | _ => s.reachesMemory id r

/-! ## Returns -/

/-- An answer is back at its core: a posted store is acknowledged, and its thread, wherever it runs now, may go on; another's thread goes
on, if it still waits. -/
def State.returns (s : State) (id : Nat) (r : Request) : State :=
  let gone (s : State) : State :=
    let s1 := s.dropRequest id
    let at' := (s1.placeOf r.uid).getD (r.cell, r.thread)
    let s2 := s1.recheck at'.1 at'.2
    if at'.1 == r.cell then s2 else s2.arbiter at'.1
  let on (s : State) : State := s.after 0 phNet (r.cell * 64 + r.thread) (.op (.memoryRequestCompletion r.cell r.thread))
  if let .unit u w := r.kind then s.unitReturns id r u w.isSome
  else if r.posted then gone s
  else match (s.named r.cell r.thread r.uid).map Thread.wait with
    | some (Wait.request _) => on s
    | some (Wait.mask _ _ _) => on (s.updThread r.cell r.thread fun x => { x with wait := .request id })
    | _ => gone s

/-- A request is at the next place of its way. -/
def State.deliverRequest (s : State) (id : Nat) : State :=
  match s.requests.get? id with
  | none => s
  | some r => match r.stage with
    | .served => (s.shadowAnswer r).returns id r
    | .comparing none => s.reachesPair id r
    | .away => s.arrives id r
    | .parked => match r.kind with
      | .sample .. => s.samplePolls id r
      | _ => s
    | _ => s

end Sys2Proof.Machine
end

