-- ==== Sys2Proof/Machine/Dispatch.lean ====
section
/-! DEFINITION. The meaning of every instruction, arm by arm. -/

namespace Sys2Proof.Machine

open Sys2Proof

def exec (i : Instr) (s : State) : Host.Outcome State Fault Refusal :=
  match i with
  | .groupIssue x0 => Sys2Proof.Machine.execGroupIssue x0 s
  | .resultLanding x0 => Sys2Proof.Machine.execResultLanding x0 s
  | .handlerStart x0 => Sys2Proof.Machine.execHandlerStart x0 s
  | .timedCoreStop x0 => Sys2Proof.Machine.execTimedCoreStop x0 s
  | .haltComplete x0 => Sys2Proof.Machine.execHaltComplete x0 s
  | .preemptionLanding x0 => Sys2Proof.Machine.execPreemptionLanding x0 s
  | .contextImageSave x0 => Sys2Proof.Machine.execContextImageSave x0 s
  | .scheduleEntryWrite x0 x1 x2 => Sys2Proof.Machine.execScheduleEntryWrite x0 x1 x2 s
  | .scheduleLaunch x0 x1 => Sys2Proof.Machine.execScheduleLaunch x0 x1 s
  | .scheduleResume x0 x1 => Sys2Proof.Machine.execScheduleResume x0 x1 s
  | .schedulePreempt x0 x1 => Sys2Proof.Machine.execSchedulePreempt x0 x1 s
  | .windowClose x0 x1 => Sys2Proof.Machine.execWindowClose x0 x1 s
  | .windowRedirect x0 => Sys2Proof.Machine.execWindowRedirect x0 s
  | .windowAccessArrival x0 => Sys2Proof.Machine.execWindowAccessArrival x0 s
  | .barrierRelease x0 x1 x2 => Sys2Proof.Machine.execBarrierRelease x0 x1 x2 s
  | .barrierTimeout x0 => Sys2Proof.Machine.execBarrierTimeout x0 s
  | .domainBarrierRelease x0 x1 x2 => Sys2Proof.Machine.execDomainBarrierRelease x0 x1 x2 s
  | .realignTimeout x0 => Sys2Proof.Machine.execRealignTimeout x0 s
  | .matrixCommandEnd x0 => Sys2Proof.Machine.execMatrixCommandEnd x0 s
  | .taggedCopyLine x0 x1 => Sys2Proof.Machine.execTaggedCopyLine x0 x1 s
  | .remoteStoreArrival x0 => Sys2Proof.Machine.execRemoteStoreArrival x0 s
  | .remoteStoreAck x0 => Sys2Proof.Machine.execRemoteStoreAck x0 s
  | .slewStep x0 => Sys2Proof.Machine.execSlewStep x0 s
  | .counterExchange x0 => Sys2Proof.Machine.execCounterExchange x0 s
  | .hbmSlot x0 => Sys2Proof.Machine.execHbmSlot x0 s
  | .barrelIssue x0 => Sys2Proof.Machine.execBarrelIssue x0 s
  | .taskDispatch x0 => Sys2Proof.Machine.execTaskDispatch x0 s
  | .scratchpadBankService x0 x1 => Sys2Proof.Machine.execScratchpadBankService x0 x1 s
  | .fullEmptyServe x0 x1 => Sys2Proof.Machine.execFullEmptyServe x0 x1 s
  | .fullEmptyTimeout x0 => Sys2Proof.Machine.execFullEmptyTimeout x0 s
  | .requestPromotion x0 => Sys2Proof.Machine.execRequestPromotion x0 s
  | .memoryRequestCompletion x0 x1 => Sys2Proof.Machine.execMemoryRequestCompletion x0 x1 s
  | .sfnStart x0 => Sys2Proof.Machine.execSfnStart x0 s
  | .sfnResultLanding x0 => Sys2Proof.Machine.execSfnResultLanding x0 s
  | .barrelTrapEntry x0 x1 => Sys2Proof.Machine.execBarrelTrapEntry x0 x1 s
  | .contextKillComplete x0 => Sys2Proof.Machine.execContextKillComplete x0 s
  | .mailboxPost x0 => Sys2Proof.Machine.execMailboxPost x0 s
  | .migrationChoice x0 => Sys2Proof.Machine.execMigrationChoice x0 s
  | .migrationReservation x0 x1 => Sys2Proof.Machine.execMigrationReservation x0 x1 s
  | .migrationArrival x0 x1 => Sys2Proof.Machine.execMigrationArrival x0 x1 s
  | .pairedComparison x0 x1 => Sys2Proof.Machine.execPairedComparison x0 x1 s
  | .pairedTimeout x0 x1 => Sys2Proof.Machine.execPairedTimeout x0 x1 s
  | .samplerStart x0 => Sys2Proof.Machine.execSamplerStart x0 s
  | .samplerMaskTimeout x0 x1 => Sys2Proof.Machine.execSamplerMaskTimeout x0 x1 s
  | .sliceRequest x0 => Sys2Proof.Machine.execSliceRequest x0 s
  | .sliceFill x0 x1 => Sys2Proof.Machine.execSliceFill x0 x1 s
  | .writeBackDrain x0 => Sys2Proof.Machine.execWriteBackDrain x0 s
  | .deadRangeSweep x0 => Sys2Proof.Machine.execDeadRangeSweep x0 s
  | .tableWalk x0 => Sys2Proof.Machine.execTableWalk x0 s
  | .packetForward x0 => Sys2Proof.Machine.execPacketForward x0 s
  | .linkBeatDelivery x0 x1 x2 => Sys2Proof.Machine.execLinkBeatDelivery x0 x1 x2 s
  | .writeThroughAck x0 => Sys2Proof.Machine.execWriteThroughAck x0 s
  | .mirrorTimeout x0 => Sys2Proof.Machine.execMirrorTimeout x0 s
  | .sealPages x0 => Sys2Proof.Machine.execSeal x0 s
  | .collectiveComplete x0 x1 => Sys2Proof.Machine.execCollectiveComplete x0 x1 s
  | .collectiveTimeout x0 x1 => Sys2Proof.Machine.execCollectiveTimeout x0 x1 s
  | .collectivePacketIngress x0 x1 x2 => Sys2Proof.Machine.execCollectivePacketIngress x0 x1 x2 s
  | .abortTokenArrival x0 x1 x2 => Sys2Proof.Machine.execAbortTokenArrival x0 x1 x2 s
  | .remoteMessageArrival x0 => Sys2Proof.Machine.execRemoteMessageArrival x0 s
  | .deliveryContextFailure x0 x1 => Sys2Proof.Machine.execDeliveryContextFailure x0 x1 s
  | .correctedError x0 x1 x2 => Sys2Proof.Machine.execCorrectedError x0 x1 x2 s
  | .errorWindowStart x0 => Sys2Proof.Machine.execErrorWindowStart x0 s
  | .ceilingChange x0 x1 => Sys2Proof.Machine.execCeilingChange x0 x1 s
  | .ctxqWrite x0 x1 x2 => Sys2Proof.Machine.execCtxqWrite x0 x1 x2 s
  | .gtctlWrite x0 x1 => Sys2Proof.Machine.execGtctlWrite x0 x1 s
  | .mrExtend x0 x1 => Sys2Proof.Machine.execMrExtend x0 x1 s
  | .controlRegisterWrite x0 x1 => Sys2Proof.Machine.execControlRegisterWrite x0 x1 s
  | .mbrconWrite x0 => Sys2Proof.Machine.execMbrconWrite x0 s
  | .neg x0 => Sys2Proof.Machine.execNeg x0 s
  | .write x0 => Sys2Proof.Machine.execWrite x0 s
  | .read x0 => Sys2Proof.Machine.execRead x0 s
  | .ctxnew x0 => Sys2Proof.Machine.execCtxnew x0 s
  | .ctxrel x0 => Sys2Proof.Machine.execCtxrel x0 s
  | .stage x0 => Sys2Proof.Machine.execStage x0 s
  | .commitSystemImage x0 => Sys2Proof.Machine.execCommitSystemImage x0 s
  | .commitFirmware x0 => Sys2Proof.Machine.execCommitFirmware x0 s
  | .attest x0 => Sys2Proof.Machine.execAttest x0 s
  | .evread x0 => Sys2Proof.Machine.execEvread x0 s
  | .xin x0 x1 => Sys2Proof.Machine.execXin x0 x1 s
  | .xout x0 x1 x2 => Sys2Proof.Machine.execXout x0 x1 x2 s
  | .waitt x0 x1 => Sys2Proof.Machine.execWaitt x0 x1 s
  | .wopen x0 x1 => Sys2Proof.Machine.execWopen x0 x1 s
  | .wshut x0 x1 => Sys2Proof.Machine.execWshut x0 x1 s
  | .getpost x0 x1 => Sys2Proof.Machine.execGetpost x0 x1 s
  | .bar x0 x1 => Sys2Proof.Machine.execBar x0 x1 s
  | .rcnt x0 x1 => Sys2Proof.Machine.execRcnt x0 x1 s
  | .fence x0 x1 => Sys2Proof.Machine.execFence x0 x1 s
  | .prel x0 x1 => Sys2Proof.Machine.execPrel x0 x1 s
  | .pseal x0 x1 => Sys2Proof.Machine.execPseal x0 x1 s
  | .coll x0 x1 => Sys2Proof.Machine.execColl x0 x1 s
  | .cabort x0 x1 => Sys2Proof.Machine.execCabort x0 x1 s
  | .rdtk x0 x1 => Sys2Proof.Machine.execRdtk x0 x1 s
  | .yield x0 x1 => Sys2Proof.Machine.execYield x0 x1 s
  | .signal x0 x1 => Sys2Proof.Machine.execSignal x0 x1 s
  | .add x0 x1 => Sys2Proof.Machine.execAdd x0 x1 s
  | .sub x0 x1 => Sys2Proof.Machine.execSub x0 x1 s
  | .addi x0 x1 => Sys2Proof.Machine.execAddi x0 x1 s
  | .mul x0 x1 => Sys2Proof.Machine.execMul x0 x1 s
  | .mulh x0 x1 => Sys2Proof.Machine.execMulh x0 x1 s
  | .mulhn x0 x1 => Sys2Proof.Machine.execMulhn x0 x1 s
  | .div x0 x1 => Sys2Proof.Machine.execDiv x0 x1 s
  | .divn x0 x1 => Sys2Proof.Machine.execDivn x0 x1 s
  | .rem x0 x1 => Sys2Proof.Machine.execRem x0 x1 s
  | .remn x0 x1 => Sys2Proof.Machine.execRemn x0 x1 s
  | .and x0 x1 => Sys2Proof.Machine.execAnd x0 x1 s
  | .or x0 x1 => Sys2Proof.Machine.execOr x0 x1 s
  | .xor x0 x1 => Sys2Proof.Machine.execXor x0 x1 s
  | .shl x0 x1 => Sys2Proof.Machine.execShl x0 x1 s
  | .shr x0 x1 => Sys2Proof.Machine.execShr x0 x1 s
  | .sar x0 x1 => Sys2Proof.Machine.execSar x0 x1 s
  | .min x0 x1 => Sys2Proof.Machine.execMin x0 x1 s
  | .max x0 x1 => Sys2Proof.Machine.execMax x0 x1 s
  | .minn x0 x1 => Sys2Proof.Machine.execMinn x0 x1 s
  | .maxn x0 x1 => Sys2Proof.Machine.execMaxn x0 x1 s
  | .clz x0 x1 => Sys2Proof.Machine.execClz x0 x1 s
  | .popc x0 x1 => Sys2Proof.Machine.execPopc x0 x1 s
  | .li x0 x1 => Sys2Proof.Machine.execLi x0 x1 s
  | .lih x0 x1 => Sys2Proof.Machine.execLih x0 x1 s
  | .sel x0 x1 => Sys2Proof.Machine.execSel x0 x1 s
  | .cmp x0 x1 => Sys2Proof.Machine.execCmp x0 x1 s
  | .plog x0 x1 => Sys2Proof.Machine.execPlog x0 x1 s
  | .br x0 x1 => Sys2Proof.Machine.execBr x0 x1 s
  | .brp x0 x1 => Sys2Proof.Machine.execBrp x0 x1 s
  | .call x0 x1 => Sys2Proof.Machine.execCall x0 x1 s
  | .ret x0 x1 => Sys2Proof.Machine.execRet x0 x1 s
  | .loop x0 x1 => Sys2Proof.Machine.execLoop x0 x1 s
  | .lbrk x0 x1 => Sys2Proof.Machine.execLbrk x0 x1 s
  | .lstr x0 x1 => Sys2Proof.Machine.execLstr x0 x1 s
  | .realign x0 x1 => Sys2Proof.Machine.execRealign x0 x1 s
  | .trap x0 x1 => Sys2Proof.Machine.execTrap x0 x1 s
  | .rtt x0 x1 => Sys2Proof.Machine.execRtt x0 x1 s
  | .halt x0 x1 => Sys2Proof.Machine.execHalt x0 x1 s
  | .mfc x0 x1 => Sys2Proof.Machine.execMfc x0 x1 s
  | .mtc x0 x1 => Sys2Proof.Machine.execMtc x0 x1 s
  | .lds x0 x1 => Sys2Proof.Machine.execLds x0 x1 s
  | .ldv x0 x1 => Sys2Proof.Machine.execLdv x0 x1 s
  | .ldvs x0 x1 => Sys2Proof.Machine.execLdvs x0 x1 s
  | .ldvx x0 x1 => Sys2Proof.Machine.execLdvx x0 x1 s
  | .ldvb x0 x1 => Sys2Proof.Machine.execLdvb x0 x1 s
  | .ldk x0 x1 => Sys2Proof.Machine.execLdk x0 x1 s
  | .sts x0 x1 => Sys2Proof.Machine.execSts x0 x1 s
  | .stv x0 x1 => Sys2Proof.Machine.execStv x0 x1 s
  | .stvm x0 x1 => Sys2Proof.Machine.execStvm x0 x1 s
  | .stvx x0 x1 => Sys2Proof.Machine.execStvx x0 x1 s
  | .stk x0 x1 => Sys2Proof.Machine.execStk x0 x1 s
  | .strs x0 x1 => Sys2Proof.Machine.execStrs x0 x1 s
  | .strv x0 x1 => Sys2Proof.Machine.execStrv x0 x1 s
  | .vadd x0 x1 => Sys2Proof.Machine.execVadd x0 x1 s
  | .vsub x0 x1 => Sys2Proof.Machine.execVsub x0 x1 s
  | .vmul x0 x1 => Sys2Proof.Machine.execVmul x0 x1 s
  | .vmulh x0 x1 => Sys2Proof.Machine.execVmulh x0 x1 s
  | .vmin x0 x1 => Sys2Proof.Machine.execVmin x0 x1 s
  | .vmax x0 x1 => Sys2Proof.Machine.execVmax x0 x1 s
  | .vabs x0 x1 => Sys2Proof.Machine.execVabs x0 x1 s
  | .vneg x0 x1 => Sys2Proof.Machine.execVneg x0 x1 s
  | .vand x0 x1 => Sys2Proof.Machine.execVand x0 x1 s
  | .vor x0 x1 => Sys2Proof.Machine.execVor x0 x1 s
  | .vxor x0 x1 => Sys2Proof.Machine.execVxor x0 x1 s
  | .vnot x0 x1 => Sys2Proof.Machine.execVnot x0 x1 s
  | .vshl x0 x1 => Sys2Proof.Machine.execVshl x0 x1 s
  | .vshlImm x0 x1 => Sys2Proof.Machine.execVshlImm x0 x1 s
  | .vshr x0 x1 => Sys2Proof.Machine.execVshr x0 x1 s
  | .vshrImm x0 x1 => Sys2Proof.Machine.execVshrImm x0 x1 s
  | .vsar x0 x1 => Sys2Proof.Machine.execVsar x0 x1 s
  | .vsarImm x0 x1 => Sys2Proof.Machine.execVsarImm x0 x1 s
  | .vadds x0 x1 => Sys2Proof.Machine.execVadds x0 x1 s
  | .vsubs x0 x1 => Sys2Proof.Machine.execVsubs x0 x1 s
  | .vfadd x0 x1 => Sys2Proof.Machine.execVfadd x0 x1 s
  | .vfsub x0 x1 => Sys2Proof.Machine.execVfsub x0 x1 s
  | .vfmul x0 x1 => Sys2Proof.Machine.execVfmul x0 x1 s
  | .vfma x0 x1 => Sys2Proof.Machine.execVfma x0 x1 s
  | .vfms x0 x1 => Sys2Proof.Machine.execVfms x0 x1 s
  | .vfdiv x0 x1 => Sys2Proof.Machine.execVfdiv x0 x1 s
  | .vfsqrt x0 x1 => Sys2Proof.Machine.execVfsqrt x0 x1 s
  | .vfmin x0 x1 => Sys2Proof.Machine.execVfmin x0 x1 s
  | .vfmax x0 x1 => Sys2Proof.Machine.execVfmax x0 x1 s
  | .vfabs x0 x1 => Sys2Proof.Machine.execVfabs x0 x1 s
  | .vfneg x0 x1 => Sys2Proof.Machine.execVfneg x0 x1 s
  | .vfcls x0 x1 => Sys2Proof.Machine.execVfcls x0 x1 s
  | .vcmp x0 x1 => Sys2Proof.Machine.execVcmp x0 x1 s
  | .vfcmp x0 x1 => Sys2Proof.Machine.execVfcmp x0 x1 s
  | .vsel x0 x1 => Sys2Proof.Machine.execVsel x0 x1 s
  | .vcas x0 x1 => Sys2Proof.Machine.execVcas x0 x1 s
  | .vtest x0 x1 => Sys2Proof.Machine.execVtest x0 x1 s
  | .vperm x0 x1 => Sys2Proof.Machine.execVperm x0 x1 s
  | .vbcast x0 x1 => Sys2Proof.Machine.execVbcast x0 x1 s
  | .vrot x0 x1 => Sys2Proof.Machine.execVrot x0 x1 s
  | .vslide x0 x1 => Sys2Proof.Machine.execVslide x0 x1 s
  | .vred x0 x1 => Sys2Proof.Machine.execVred x0 x1 s
  | .vscan x0 x1 => Sys2Proof.Machine.execVscan x0 x1 s
  | .vcvt x0 x1 => Sys2Proof.Machine.execVcvt x0 x1 s
  | .vnrw x0 x1 => Sys2Proof.Machine.execVnrw x0 x1 s
  | .vnrwf x0 x1 => Sys2Proof.Machine.execVnrwf x0 x1 s
  | .vwid x0 x1 => Sys2Proof.Machine.execVwid x0 x1 s
  | .vbexp x0 x1 => Sys2Proof.Machine.execVbexp x0 x1 s
  | .vqb x0 x1 => Sys2Proof.Machine.execVqb x0 x1 s
  | .vdqb x0 x1 => Sys2Proof.Machine.execVdqb x0 x1 s
  | .vmxFit x0 x1 => Sys2Proof.Machine.execVmxFit x0 x1 s
  | .vmxCvt x0 x1 => Sys2Proof.Machine.execVmxCvt x0 x1 s
  | .vexp2 x0 x1 => Sys2Proof.Machine.execVexp2 x0 x1 s
  | .vlog2 x0 x1 => Sys2Proof.Machine.execVlog2 x0 x1 s
  | .vrcp x0 x1 => Sys2Proof.Machine.execVrcp x0 x1 s
  | .vrsq x0 x1 => Sys2Proof.Machine.execVrsq x0 x1 s
  | .vbias x0 x1 => Sys2Proof.Machine.execVbias x0 x1 s
  | .vrng x0 x1 => Sys2Proof.Machine.execVrng x0 x1 s
  | .vmov x0 x1 => Sys2Proof.Machine.execVmov x0 x1 s
  | .kand x0 x1 => Sys2Proof.Machine.execKand x0 x1 s
  | .kor x0 x1 => Sys2Proof.Machine.execKor x0 x1 s
  | .kxor x0 x1 => Sys2Proof.Machine.execKxor x0 x1 s
  | .knot x0 x1 => Sys2Proof.Machine.execKnot x0 x1 s
  | .kpop x0 x1 => Sys2Proof.Machine.execKpop x0 x1 s
  | .kfirst x0 x1 => Sys2Proof.Machine.execKfirst x0 x1 s
  | .mlds x0 x1 => Sys2Proof.Machine.execMlds x0 x1 s
  | .mldst x0 x1 => Sys2Proof.Machine.execMldst x0 x1 s
  | .mswap x0 x1 => Sys2Proof.Machine.execMswap x0 x1 s
  | .mmul x0 x1 => Sys2Proof.Machine.execMmul x0 x1 s
  | .mmul64 x0 x1 => Sys2Proof.Machine.execMmul64 x0 x1 s
  | .mzero x0 x1 => Sys2Proof.Machine.execMzero x0 x1 s
  | .mrdz x0 x1 => Sys2Proof.Machine.execMrdz x0 x1 s
  | .mwrz x0 x1 => Sys2Proof.Machine.execMwrz x0 x1 s
  | .mgang x0 x1 => Sys2Proof.Machine.execMgang x0 x1 s
  | .mscl x0 x1 => Sys2Proof.Machine.execMscl x0 x1 s
  | .mchk x0 x1 => Sys2Proof.Machine.execMchk x0 x1 s
  | .mec x0 x1 => Sys2Proof.Machine.execMec x0 x1 s
  | .cpt x0 x1 => Sys2Proof.Machine.execCpt x0 x1 s
  | .cptx x0 x1 => Sys2Proof.Machine.execCptx x0 x1 s
  | .cph x0 x1 => Sys2Proof.Machine.execCph x0 x1 s
  | .cpw x0 x1 => Sys2Proof.Machine.execCpw x0 x1 s
  | .cpg x0 x1 => Sys2Proof.Machine.execCpg x0 x1 s
  | .cps x0 x1 => Sys2Proof.Machine.execCps x0 x1 s
  | .cpm x0 x1 => Sys2Proof.Machine.execCpm x0 x1 s
  | .cpd x0 x1 => Sys2Proof.Machine.execCpd x0 x1 s
  | .cpf x0 x1 => Sys2Proof.Machine.execCpf x0 x1 s
  | .cdisc x0 x1 => Sys2Proof.Machine.execCdisc x0 x1 s
  | .cwany x0 x1 => Sys2Proof.Machine.execCwany x0 x1 s
  | .cwall x0 x1 => Sys2Proof.Machine.execCwall x0 x1 s
  | .cfirst x0 x1 => Sys2Proof.Machine.execCfirst x0 x1 s
  | .ctags x0 x1 => Sys2Proof.Machine.execCtags x0 x1 s
  | .ccancel x0 x1 => Sys2Proof.Machine.execCcancel x0 x1 s
  | .launchArgumentBlockCopy x0 x1 => Sys2Proof.Machine.execLaunchArgumentBlockCopy x0 x1 s
  | .suffixIndexRequestService x0 => Sys2Proof.Machine.execSuffixIndexRequestService x0 s
  | .vaultNetworkPortService x0 x1 => Sys2Proof.Machine.execVaultNetworkPortService x0 x1 s
  | .timedAccessPerform => Sys2Proof.Machine.execTimedAccessPerform s
  | .kcontContain => Sys2Proof.Machine.execKcontContain s
  | .energyRefill => Sys2Proof.Machine.execEnergyRefill s
  | .tickIncrement => Sys2Proof.Machine.execTickIncrement s
  | .cloadSample => Sys2Proof.Machine.execCloadSample s
  | .xinvcInvalidate => Sys2Proof.Machine.execXinvcInvalidate s
  | .plateReset => Sys2Proof.Machine.execPlateReset s
  | .thermalTrip => Sys2Proof.Machine.execThermalTrip s
  | .packageReset => Sys2Proof.Machine.execPackageReset s
  | .tickLoad => Sys2Proof.Machine.execTickLoad s
  | .barrelAdd => Sys2Proof.Machine.execBarrelAdd s
  | .barrelAddi => Sys2Proof.Machine.execBarrelAddi s
  | .barrelSub => Sys2Proof.Machine.execBarrelSub s
  | .barrelMul => Sys2Proof.Machine.execBarrelMul s
  | .barrelMulh => Sys2Proof.Machine.execBarrelMulh s
  | .barrelMulhn => Sys2Proof.Machine.execBarrelMulhn s
  | .barrelDiv => Sys2Proof.Machine.execBarrelDiv s
  | .barrelDivn => Sys2Proof.Machine.execBarrelDivn s
  | .barrelRem => Sys2Proof.Machine.execBarrelRem s
  | .barrelRemn => Sys2Proof.Machine.execBarrelRemn s
  | .barrelAnd => Sys2Proof.Machine.execBarrelAnd s
  | .andi => Sys2Proof.Machine.execAndi s
  | .barrelOr => Sys2Proof.Machine.execBarrelOr s
  | .ori => Sys2Proof.Machine.execOri s
  | .barrelXor => Sys2Proof.Machine.execBarrelXor s
  | .xori => Sys2Proof.Machine.execXori s
  | .barrelShl => Sys2Proof.Machine.execBarrelShl s
  | .shli => Sys2Proof.Machine.execShli s
  | .barrelShr => Sys2Proof.Machine.execBarrelShr s
  | .shri => Sys2Proof.Machine.execShri s
  | .barrelSar => Sys2Proof.Machine.execBarrelSar s
  | .sari => Sys2Proof.Machine.execSari s
  | .slt => Sys2Proof.Machine.execSlt s
  | .sltn => Sys2Proof.Machine.execSltn s
  | .slti => Sys2Proof.Machine.execSlti s
  | .barrelLih => Sys2Proof.Machine.execBarrelLih s
  | .barrelClz => Sys2Proof.Machine.execBarrelClz s
  | .barrelPopc => Sys2Proof.Machine.execBarrelPopc s
  | .sext => Sys2Proof.Machine.execSext s
  | .zext => Sys2Proof.Machine.execZext s
  | .fadd => Sys2Proof.Machine.execFadd s
  | .fsub => Sys2Proof.Machine.execFsub s
  | .fmul => Sys2Proof.Machine.execFmul s
  | .fdiv => Sys2Proof.Machine.execFdiv s
  | .fsqrt => Sys2Proof.Machine.execFsqrt s
  | .fma => Sys2Proof.Machine.execFma s
  | .fms => Sys2Proof.Machine.execFms s
  | .fnma => Sys2Proof.Machine.execFnma s
  | .fmin => Sys2Proof.Machine.execFmin s
  | .fmax => Sys2Proof.Machine.execFmax s
  | .fcmp => Sys2Proof.Machine.execFcmp s
  | .fcls => Sys2Proof.Machine.execFcls s
  | .fcvt => Sys2Proof.Machine.execFcvt s
  | .fsgn => Sys2Proof.Machine.execFsgn s
  | .frnd => Sys2Proof.Machine.execFrnd s
  | .fgetf => Sys2Proof.Machine.execFgetf s
  | .fsetf => Sys2Proof.Machine.execFsetf s
  | .ld => Sys2Proof.Machine.execLd s
  | .st => Sys2Proof.Machine.execSt s
  | .lde => Sys2Proof.Machine.execLde s
  | .ste => Sys2Proof.Machine.execSte s
  | .ldp => Sys2Proof.Machine.execLdp s
  | .amo => Sys2Proof.Machine.execAmo s
  | .cas => Sys2Proof.Machine.execCas s
  | .barrelFence => Sys2Proof.Machine.execBarrelFence s
  | .wld => Sys2Proof.Machine.execWld s
  | .wst => Sys2Proof.Machine.execWst s
  | .wpost => Sys2Proof.Machine.execWpost s
  | .beq => Sys2Proof.Machine.execBeq s
  | .bne => Sys2Proof.Machine.execBne s
  | .blt => Sys2Proof.Machine.execBlt s
  | .bge => Sys2Proof.Machine.execBge s
  | .bltn => Sys2Proof.Machine.execBltn s
  | .bgen => Sys2Proof.Machine.execBgen s
  | .jmp => Sys2Proof.Machine.execJmp s
  | .jmpr => Sys2Proof.Machine.execJmpr s
  | .barrelCall => Sys2Proof.Machine.execBarrelCall s
  | .callr => Sys2Proof.Machine.execCallr s
  | .barrelRet => Sys2Proof.Machine.execBarrelRet s
  | .fork => Sys2Proof.Machine.execFork s
  | .join => Sys2Proof.Machine.execJoin s
  | .yld => Sys2Proof.Machine.execYld s
  | .park => Sys2Proof.Machine.execPark s
  | .wake => Sys2Proof.Machine.execWake s
  | .tqget => Sys2Proof.Machine.execTqget s
  | .tqput => Sys2Proof.Machine.execTqput s
  | .emigr => Sys2Proof.Machine.execEmigr s
  | .send => Sys2Proof.Machine.execSend s
  | .recv => Sys2Proof.Machine.execRecv s
  | .mcast => Sys2Proof.Machine.execMcast s
  | .tokpass => Sys2Proof.Machine.execTokpass s
  | .tokwait => Sys2Proof.Machine.execTokwait s
  | .sfn => Sys2Proof.Machine.execSfn s
  | .rngpx => Sys2Proof.Machine.execRngpx s
  | .sxopen => Sys2Proof.Machine.execSxopen s
  | .sxapp => Sys2Proof.Machine.execSxapp s
  | .sxqry => Sys2Proof.Machine.execSxqry s
  | .sxrep => Sys2Proof.Machine.execSxrep s
  | .sxsave => Sys2Proof.Machine.execSxsave s
  | .sxload => Sys2Proof.Machine.execSxload s
  | .sxclose => Sys2Proof.Machine.execSxclose s
  | .smpd => Sys2Proof.Machine.execSmpd s
  | .propen => Sys2Proof.Machine.execPropen s
  | .barrelPrel => Sys2Proof.Machine.execBarrelPrel s
  | .barrelPseal => Sys2Proof.Machine.execBarrelPseal s
  | .pcheck => Sys2Proof.Machine.execPcheck s
  | .prest => Sys2Proof.Machine.execPrest s
  | .prpt => Sys2Proof.Machine.execPrpt s
  | .barrelTrap => Sys2Proof.Machine.execBarrelTrap s
  | .rte => Sys2Proof.Machine.execRte s
  | .getc => Sys2Proof.Machine.execGetc s
  | .setc => Sys2Proof.Machine.execSetc s
  | .exit => Sys2Proof.Machine.execExit s
  | .proofKeeperRequestService => Sys2Proof.Machine.execProofKeeperRequestService s
  | .powerLoss => Sys2Proof.Machine.execPowerLoss s

end Sys2Proof.Machine
end

