-- ==== Sys2Proof/Machine/Run.lean ====
section
/-! DEFINITION. What a due event runs, which event is next, and the placing of one instruction where the next step runs it. -/

namespace Sys2Proof.Machine

open Sys2Proof

/-! ## Items -/

/-- The instruction at a position of the bundle that a core issues, and the state in which it runs (05_sequencer R118). -/
def State.slotInstr (s : State) (cell : Nat) (pc : BitVec 64) (k : Nat) : Option (Instr × State) :=
  let c := s.core cell
  match c.seq.group with
  | none => none
  | some g => match g.bundles with
    | [] => none
    | b :: _ =>
      if c.run == .running && !c.seq.drained && bundlePc g.base g.index == pc then
        (b.instrs.find? fun x => x.1 == k).map fun x => (x.2, s.atSlot cell pc k g.first g.last)
      else none

/-- Run an item. -/
def runItem (i : Item) (s : State) : Result :=
  match i with
  | .op i => exec i s
  | .slot cell pc k => match s.slotInstr cell pc k with
    | some x => exec x.1 x.2
    | none => .next s
  | .finish cell => .next (s.finishBundle cell)
  | .resolve cell => .next (s.resolveFaults cell)
  | .thread cell t => match s.issueWord cell t with
    | .ok x => exec x.1 x.2
    | .error s1 => .next s1
  | .port cell bank => match s.servePort cell bank with
    | (s1, some i) => exec i s1
    | (s1, none) => .next s1
  | .deliver id => .next (s.deliverRequest id)
  | .wake cell t ctx signal => .next (s.wakeArrives cell t ctx signal)
  | .release cell id => .next (s.releaseMoves cell id)
  | .grant cell => .next (s.grant cell)
  | .barrelLand cell => .next (s.landBarrel cell)
  | .vaultPerform id old => .next (s.vaultWrites id old)
  | .beats port => .next (s.deliverBeats port)
  | .miss slice line => .next (s.missArrives slice line)
  | .images plate index => .next (s.readImages plate index)
  | .getc cell t uid d n => .next (s.getcReads cell t uid d n)
  | .controlLine cell line => .next (s.controlCopy cell line)
  | .mailbox => .next s.mailboxStep
  | .command op c => s.submit op c
  | .hostStore pa bytes => .next (s.hostStores pa bytes)
  | .policy ceiling => .next (s.setPolicy ceiling)

/-- What runs next: the first event if it is due, else time. When a thermal trip has stopped the plates, the first event of the host or
the board (16_host R469). -/
def State.pick (s : State) : Except Fault (Option Item × State) :=
  if s.mgmt.stopped then match s.events.find? fun e => e.item.onDie with
    | some e => .ok (some e.item, { s with clk := max s.clk e.due, events := s.events.erase e })
    | none => .error .clocksStopped
  else match s.events with
    | e :: es => if e.due ≤ s.clk then .ok (some e.item, { s with events := es }) else .ok (none, s)
    | [] => .ok (none, s)

/-! ## Placing an instruction (log entry 14) -/

/-- Put an item before every event. -/
def State.first (s : State) (i : Item) : State := { s with events := { due := s.clk, phase := 0, key := 0, item := i } :: s.events }

/-- Context 0 on quad 0, its first 2 MiB of HBM mapped as they stand. -/
def State.opened (s : State) : State :=
  let leaf : CachedLeaf := { plate := 0, ctx := 0, base := 0, size := 2 ^ 21, pa := 0, w := true, x := true, proof := false }
  (s.updMgmt fun (m : Management) => { m with placed := true, released := true }).updPkg fun k =>
    { k with cached := leaf :: k.cached, ctxs := k.ctxs.set 0 { Context.reset with live := true, quads := 1, xen := true } }

/-- A barrel word at byte 0 of HBM, where thread 0 of cell 0 issues next. -/
def State.placeWord (s : State) (w : Nat) : State :=
  let s1 : State := { s.opened with mem := s.mem.putNum 0 8 w }
  (s1.updBarrel 0 fun b => { b with threads := b.threads.set 0 (Thread.fresh s.nextId 0 128 0 0 s.clk 0 0 0 0) }).first (.thread 0 0)

/-- A bundle at byte 0 of quad 0's text: core 0 runs its one instruction, or looks at the bundle as at any group. -/
def State.placeBundle (s : State) (w : Nat) : State :=
  let s1 : State := { s.opened with text := s.text.putNum 0 64 w }
  match decodeBundle (BitVec.ofNat 512 w) with
  | .ok ⟨stop, [(k, i)]⟩ =>
    let g : Group := { base := 0, index := 0, bundles := [{ stop, instrs := [(k, i)] }], first := true, last := true }
    (s1.setCore 0 { Core.reset with run := .running, seq := { Sequencer.reset with group := some g, notBefore := s.clk } }).first (.slot 0 0 k)
  | _ =>
    (s1.setCore 0 { Core.reset with run := .running, seq := { Sequencer.reset with notBefore := s.clk } }).first (.op (.groupIssue 0))

end Sys2Proof.Machine
end

