-- ==== Sys2Proof/Machine/Step.lean ====
section
/-! DEFINITION. One step of the machine, and the placing of an instruction that the next step runs. -/

namespace Sys2Proof.Machine

open Sys2Proof

/-- One step: the next due event, or one clock period (log entry 6). -/
def step (s : State) : Host.Outcome State Fault Refusal :=
  match s.pick with
  | .error f => .fault f
  | .ok (some i, s1) => runItem i s1
  | .ok (none, s1) => exec .tickIncrement s1

/-- The state whose next step fetches and runs the instruction of `w`: up to 64 bits are a barrel word, more are a bundle (log entry 14). -/
def State.withFetchWord (s : State) (nbits w : Nat) : State := if nbits ≤ 64 then s.placeWord w else s.placeBundle w

end Sys2Proof.Machine
end

