-- ==== Sys2Proof/Safety.lean ====
section
/-! DEFINITION. What a safe run is: every step of it answers a next state. -/

namespace Sys2Proof.Machine

open Sys2Proof

/-- A step that goes on. -/
def State.stepsTo (s t : State) : Prop := step s = .next t

/-- The first `n` steps from a state go on, and end in `t`. -/
def State.runsTo : Nat → State → State → Prop
  | 0, s, t => s = t
  | n + 1, s, t => ∃ u, s.stepsTo u ∧ State.runsTo n u t

/-- A run of `n` steps meets no fault and no refusal. -/
def State.safeFor (n : Nat) (s : State) : Prop := ∃ t, State.runsTo n s t

/-- Every byte memory of the state is in its canonical form. -/
def State.memoriesWf (s : State) : Bool := s.mem.wf && s.text.wf && s.mgmt.staging.wf

end Sys2Proof.Machine
end

