-- ==== Sys2Proof/Certificates/Slice0/Obligations.lean ====
section
/-! DEFINITION. The statements about the machine, for the provers. -/

open Sys2Proof Sys2Proof.Machine

/-! ## The scalar slot -/

/-- A scalar-guarded instruction that issues completes with one result in flight: `op` of the classed sources into the classed
destination at offset 1 (R118, R132). -/
def Claims.sums (i : Gate → FormA → Instr) (op : Word → Word → Word) : Prop :=
  ∀ (g : Gate) (f : FormA) (s : State), s.issues g = true →
    exec (i g f) s = .next (s.fly 1 [landCls (fbit f.func 9) f.d (op (s.cur.cls (fbit f.func 8) f.a) (s.cur.cls (fbit f.func 7) f.b))])

/-- R132: ADD, SUB, AND, OR, XOR and the shifts by b mod 64, each with its classed fields, complete in one bundle period. -/
def Claims.scalarSums : Prop :=
  Claims.sums .add (· + ·) ∧ Claims.sums .sub (· - ·) ∧ Claims.sums .and (· &&& ·) ∧ Claims.sums .or (· ||| ·) ∧
  Claims.sums .xor (· ^^^ ·) ∧ Claims.sums .shl (fun a b => a <<< (b.toNat % 64)) ∧
  Claims.sums .shr (fun a b => a >>> (b.toNat % 64)) ∧ Claims.sums .sar (fun a b => a.sshiftRight (b.toNat % 64)) ∧
  ∀ (g : Gate) (f : FormB) (s : State), s.issues g = true →
    exec (.addi g f) s = .next (s.fly 1 [.s f.d.toNat (s.cur.s' f.a.toNat + f.imm.signExtend 64)])

/-- A two-source instruction over s registers completes with `op` in flight. -/
def Claims.binary (i : Gate → FormA → Instr) (offset : Nat) (op : Word → Word → Word) : Prop :=
  ∀ (g : Gate) (f : FormA) (s : State), s.issues g = true →
    exec (i g f) s = .next (s.fly offset [.s f.d.toNat (op (s.cur.s' f.a.toNat) (s.cur.s' f.b.toNat))])

/-- R132: products land at offset 3, minima, maxima, counts and constants at offset 1. -/
def Claims.scalarProducts : Prop :=
  Claims.binary .mul 3 (fun a b => BitVec.ofInt 64 (a.toInt * b.toInt)) ∧
  Claims.binary .mulh 3 (fun a b => BitVec.ofInt 64 (a.toInt * b.toInt / 2 ^ 64)) ∧
  Claims.binary .mulhn 3 (fun a b => BitVec.ofNat 64 (a.toNat * b.toNat / 2 ^ 64)) ∧
  Claims.binary .min 1 (fun a b => if a.toInt ≤ b.toInt then a else b) ∧
  Claims.binary .max 1 (fun a b => if a.toInt ≤ b.toInt then b else a) ∧
  Claims.binary .minn 1 (fun a b => if a.toNat ≤ b.toNat then a else b) ∧
  Claims.binary .maxn 1 (fun a b => if a.toNat ≤ b.toNat then b else a) ∧
  (∀ (g : Gate) (f : FormA) (s : State), s.issues g = true → ∃ n : Nat, n ≤ 64 ∧
    exec (.clz g f) s = .next (s.fly 1 [.s f.d.toNat (BitVec.ofNat 64 n)]) ∧
    (∀ j, 64 - n ≤ j → (s.cur.s' f.a.toNat).getLsbD j = false) ∧ (n < 64 → (s.cur.s' f.a.toNat).getLsbD (63 - n) = true)) ∧
  (∀ (g : Gate) (f : FormA) (s : State), s.issues g = true →
    exec (.popc g f) s = .next (s.fly 1 [.s f.d.toNat
      (BitVec.ofNat 64 ((List.range 64).filter fun j => (s.cur.s' f.a.toNat).getLsbD j).length)])) ∧
  (∀ (g : Gate) (f : FormB) (s : State), s.issues g = true →
    exec (.li g f) s = .next (s.fly 1 [landCls (f.a == 1) f.d (f.imm.signExtend 64)]) ∧
    exec (.lih g f) s = .next (s.fly 1 [landCls (f.a == 1) f.d (f.imm.setWidth 32 ++ (s.cur.cls (f.a == 1) f.d).setWidth 32)]))

/-- A division completes at offset 18 when its divisor is not zero. -/
def Claims.divides (i : Gate → FormA → Instr) (op : Word → Word → Word) : Prop :=
  ∀ (g : Gate) (f : FormA) (s : State), s.issues g = true → s.cur.s' f.b.toNat ≠ 0 →
    exec (i g f) s = .next (s.fly 18 [.s f.d.toNat (op (s.cur.s' f.a.toNat) (s.cur.s' f.b.toNat))])

/-- R132: signed division truncates and its remainder has the dividend's sign; −2^63 / −1 wraps. -/
def Claims.scalarDivisions : Prop :=
  Claims.divides .div (fun a b => BitVec.ofInt 64 (a.toInt.tdiv b.toInt)) ∧ Claims.divides .divn (fun a b => a / b) ∧
  Claims.divides .rem (fun a b => BitVec.ofInt 64 (a.toInt.tmod b.toInt)) ∧ Claims.divides .remn (fun a b => a % b)

/-- R133: a division by zero traps at issue with divide-by-zero, TVAL s[a], and writes no result. -/
def Claims.divisionByZero : Prop :=
  ∀ (i : Gate → FormA → Instr), i ∈ [Instr.div, .divn, .rem, .remn] →
    ∀ (g : Gate) (f : FormA) (s : State), s.issues g = true → s.cur.s' f.b.toNat = 0 →
      exec (i g f) s = .next (s.takeTrap s.curT.cell
        { cause := 16, slot := s.curT.slot, lane := 0, pc := s.curT.pc, val := s.cur.s' f.a.toNat } s.curT.pc)

/-- R132: sums, logic, shifts, products, extremes, counts and constants of the scalar slot complete. -/
def Obligations.ScalarArithmeticComplete : Prop := Claims.scalarSums ∧ Claims.scalarProducts

/-- R132, R133: divisions complete when the divisor is not zero, and trap at issue when it is. -/
def Obligations.ScalarDivisionsComplete : Prop := Claims.scalarDivisions ∧ Claims.divisionByZero

/-- R132, R133, R121, R65: selection, comparison, predicate logic, control registers and the crossings. -/
def Obligations.ScalarSelectionsComplete : Prop :=
  (∀ (g : Gate) (f : FormA) (s : State), s.issues g = true →
    exec (.sel g f) s = .next (s.fly 1 [landCls (fbit f.func 9) f.d
      (if s.cur.p' f.c.toNat then s.cur.cls (fbit f.func 8) f.a else s.cur.cls (fbit f.func 7) f.b)])) ∧
  (∀ (g : Gate) (f : FormA) (s : State), s.issues g = true →
    let a := s.cur.cls (fbit f.func 8) f.a
    let b := s.cur.cls (fbit f.func 7) f.b
    let r : Bool := match f.func.toNat % 8 with
      | 0 => decide (a = b)
      | 1 => decide (a ≠ b)
      | 2 => decide (a.toInt < b.toInt)
      | 3 => decide (a.toInt ≥ b.toInt)
      | 4 => decide (a.toNat < b.toNat)
      | 5 => decide (a.toNat ≥ b.toNat)
      | _ => decide (a &&& b ≠ 0)
    exec (.cmp g f) s = .next (s.fly 1 [.p f.d.toNat r])) ∧
  (∀ (g : Gate) (f : FormA) (s : State), s.issues g = true →
    exec (.plog g f) s = .next (s.fly 1 [.p f.d.toNat (f.func.getLsbD
      ((if s.cur.p' f.a.toNat then 2 else 0) + (if s.cur.p' f.b.toNat then 1 else 0)))])) ∧
  (∀ (g : Gate) (f : FormA) (s : State), s.issues g = true →
    exec (.mfc g f) s = .next (s.fly 1 [.s f.d.toNat (s.readCreg s.curT.cell f.func.toNat)])) ∧
  (∀ (g : Gate) (f : FormA) (s : State), s.issues g = true →
    (f.func.toNat = 0x21 → ((s.cur.s' f.a.toNat).extractLsb' 24 3).toNat ≤ 4) →
      exec (.mtc g f) s = .next (s.fly 1 [.creg f.func.toNat (s.cur.s' f.a.toNat)])) ∧
  (∀ (a d : BitVec 6) (s : State), ∃ l : Landing, exec (.xin a d) s = .next (s.fly 3 [l]) ∧
    if d.toNat < 56 then ∃ x : VReg, l = .v d.toNat x (BitVec.allOnes 2048) ∧ ∀ j < 32, x.extractLsb' (64 * j) 64 = s.cur.s' a.toNat
    else l = .pv (d.toNat - 48) (if s.cur.p' a.toNat then BitVec.allOnes 256 else 0) (BitVec.allOnes 256)) ∧
  ∀ (a : BitVec 6) (lane : BitVec 5) (d : BitVec 6) (s : State),
    exec (.xout a lane d) s = .next (s.fly 4 [if a.toNat < 56 then .s d.toNat ((s.cur.v' a.toNat).extractLsb' (64 * lane.toNat) 64)
      else .p d.toNat ((s.cur.pv' (a.toNat - 48)).getLsbD (8 * lane.toNat))])

/-! ## Control transfers -/

/-- The level that LOOP pushes (R128): its body runs from the next bundle to the bundle func + 1 further on. -/
def Claims.level (s : State) (f : FormA) (strides : List (Nat × Word)) : LoopLevel :=
  { left := s.cur.s' f.a.toNat, index := 0, start := s.curT.pc + 64, last := s.curT.pc + BitVec.ofNat 64 (64 * (f.func.toNat + 1)), strides }

/-- The wait that REALIGN begins (R136): its timeout is s[a], and only a true guard names a destination. -/
def Claims.waiting (s : State) (g : Gate) (f : FormA) : Realign :=
  { address := s.curT.pc, arrived := none, timeout := (s.cur.s' f.a.toNat).toNat,
    dest := if s.cur.p' g.guard.toNat then some f.d.toNat else none, release := none }

/-- What LBRK leaves (R130, R129): the levels, the stride adds one tick later, the next address, and whether a pre-emption may land at an
iteration boundary of that depth (R148). -/
def Claims.breaks (s : State) (loops : List LoopLevel) (strides : List (Nat × Word)) (target : BitVec 64) (depth : Nat) : State :=
  let s1 := s.updCurSeq fun q => { q with loops }
  let s2 := (if strides = [] then s1 else s1.fly 1 (strides.map fun x => .stride x.1 x.2)).transfer target
  if depth ≤ s.cur.ctl.plevel then s2.updCurSeq fun q => { q with after := some .boundary } else s2

/-- R134, R126 to R130: transfers, calls and loops when no fault of theirs holds; LBRK pops its level, and every enclosing level that ends
at the same bundle ends an iteration too. A taken transfer leaves its target in `taken` with the
slow fetch of R125. -/
def Obligations.ControlTransfersComplete : Prop :=
  (∀ (g : Gate) (f : FormD) (s : State), s.issues g = true →
    exec (.br g f) s = .next (if brTaken (f.func.toNat % 8) (s.cur.s' f.cond.toNat) then s.transfer (branchTarget s.curT.pc f) else s)) ∧
  (∀ (g : Gate) (f : FormD) (s : State), s.issues g = true →
    exec (.brp g f) s = .next (if s.cur.p' f.cond.toNat = !fbit f.func 0 then s.transfer (branchTarget s.curT.pc f) else s)) ∧
  (∀ (g : Gate) (f : FormD) (s : State), s.issues g = true → s.cur.ctl.inh = false → s.cur.seq.rstack.length < 8 →
    exec (.call g f) s = .next ((s.updCurSeq fun q => { q with rstack := (s.curT.pc + 64) :: q.rstack }).transfer
      (branchTarget s.curT.pc f))) ∧
  (∀ (g : Gate) (f : FormA) (s : State) (a : BitVec 64) (t : List (BitVec 64)), s.issues g = true → s.cur.ctl.inh = false →
    s.cur.seq.rstack = a :: t →
      exec (.ret g f) s = .next ((s.updCurSeq fun q => { q with rstack := t }).transfer a)) ∧
  (∀ (g : Gate) (f : FormA) (s : State), s.issues g = true → s.cur.ctl.inh = false → s.cur.seq.loops.length < 6 →
    (∀ l t, s.cur.seq.loops = l :: t → (loopEnd s.curT.pc f).toNat ≤ l.last.toNat) →
      exec (.loop g f) s = .next (
        if s.cur.s' f.a.toNat = 0 then
          (s.updCurSeq fun q => { q with pending := [] }).transfer (loopEnd s.curT.pc f + 64)
        else s.updCurSeq fun q => { q with loops := Claims.level s f q.pending :: q.loops, pending := [] })) ∧
  (∀ (g : Gate) (f : FormA) (s : State) (l : LoopLevel) (ps rest : List LoopLevel), s.issues g = true → s.cur.ctl.inh = false →
    s.cur.seq.loops = l :: (ps ++ rest) → (∀ x ∈ ps, x.last = l.last ∧ x.left.toNat ≤ 1) →
      let strides := ps.flatMap fun x => x.strides
      (rest.head?.all (fun x => x.last ≠ l.last) = true → exec (.lbrk g f) s =
        .next (Claims.breaks s rest strides (l.last + 64) (if ps = [] then 7 else rest.length + 1))) ∧
      (∀ x t, rest = x :: t → x.last = l.last → 1 < x.left.toNat → exec (.lbrk g f) s =
        .next (Claims.breaks s ({ x with left := x.left - 1, index := x.index + 1 } :: t) (strides ++ x.strides) x.start (t.length + 1)))) ∧
  (∀ (g : Gate) (f : FormA) (s : State), s.issues g = true → s.cur.ctl.inh = false → s.cur.seq.pending.length < 4 →
    exec (.lstr g f) s = .next (s.updCurSeq fun q => { q with pending := q.pending ++ [(f.d.toNat, s.cur.s' f.a.toNat)] })) ∧
  (∀ (g : Gate) (f : FormA) (s : State), s.issues g = true →
    exec (.halt g f) s = .next (s.updCurSeq fun q => { q with after := some .halt })) ∧
  (∀ (g : Gate) (f : FormA) (s : State), s.iterates g = true →
    exec (.realign g f) s = .next (s.updCurSeq fun q => { q with realign := some (Claims.waiting s g f) }))

/-- R137, R145: TRAP leaves a trap for the end of its bundle with func as its value, and RTT, in a handler only, ends the handler and goes
on at TRPC. -/
def Obligations.TrapAndReturnComplete : Prop :=
  (∀ (g : Gate) (f : FormA) (s : State), s.issues g = true →
    exec (.trap g f) s = .next (s.updCurSeq fun q => { q with after := some .trap, trapVal := BitVec.ofNat 64 f.func.toNat })) ∧
  (∀ (g : Gate) (f : FormA) (s : State), s.issues g = true → s.cur.ctl.inh = true →
    exec (.rtt g f) s = .next ((s.updCur fun c => { c with ctl := { c.ctl with inh := false } }).transfer (s.cur.ctl.trpc.setWidth 64))) ∧
  (∀ (g : Gate) (f : FormA) (s : State), s.issues g = true → s.cur.ctl.inh = false →
    exec (.rtt g f) s = .next (s.takeTrap s.curT.cell
      { cause := 10, slot := s.curT.slot, lane := 0, pc := s.curT.pc, val := 0 } s.curT.pc))

/-! ## The sync slot -/

/-- R67: a scalar-guarded instruction whose iteration condition or guard is false has no effect at all. -/
def Obligations.SuppressedHasNoEffect : Prop :=
  (∀ (i : Gate → FormA → Instr), i ∈ [Instr.add, .sub, .and, .or, .xor, .shl, .shr, .sar, .mul, .mulh, .mulhn, .div, .divn, .rem, .remn,
      .min, .max, .minn, .maxn, .clz, .popc, .sel, .cmp, .plog, .mfc, .mtc, .ret, .loop, .lbrk, .lstr, .trap, .rtt, .halt] →
    ∀ (g : Gate) (f : FormA) (s : State), s.issues g = false → exec (i g f) s = .next s) ∧
  (∀ (i : Gate → FormB → Instr), i ∈ [Instr.addi, .li, .lih] →
    ∀ (g : Gate) (f : FormB) (s : State), s.issues g = false → exec (i g f) s = .next s) ∧
  (∀ (i : Gate → FormC → Instr), i ∈ [Instr.lds, .ldv, .ldvs, .ldvx, .ldvb, .ldk, .sts, .stv, .stvm, .stvx, .stk, .strs, .strv] →
    ∀ (g : Gate) (f : FormC) (s : State), s.issues g = false → exec (i g f) s = .next s) ∧
  (∀ (i : Gate → FormD → Instr), i ∈ [Instr.br, .brp, .call] →
    ∀ (g : Gate) (f : FormD) (s : State), s.issues g = false → exec (i g f) s = .next s) ∧
  (∀ (i : Gate → FormE → Instr), i ∈ [Instr.waitt, .wopen, .wshut, .getpost, .bar, .rcnt, .fence, .rdtk, .yield, .signal, .prel, .pseal,
      .coll, .cabort, .mlds, .mldst, .mswap, .mmul, .mmul64, .mzero, .mrdz, .mwrz, .mgang, .mscl, .mchk, .mec, .cpt, .cptx, .cph, .cpw,
      .cpg, .cps, .cpm, .cpd, .cpf, .cdisc, .cwany, .cwall, .cfirst, .ctags, .ccancel] →
    ∀ (g : Gate) (f : FormE) (s : State), s.issues g = false → exec (i g f) s = .next s)

/-- R273, R276, R279, R282, R283, R256: the sync slot's waits and reads, when no fault of theirs holds; RSHIFT is added by the r option. -/
def Obligations.TickReadsComplete : Prop :=
  (∀ (g : Gate) (f : FormE) (s : State), s.issues g = true →
    let target := if fbit f.func 1 then s.cur.s' f.f2.toNat + s.cur.clock.rshift else s.cur.s' f.f2.toNat
    (fbit f.func 0 = true → s.tick.toNat ≤ target.toNat) →
      exec (.waitt g f) s = .next (s.fly 1 [.s f.f1.toNat (s.tick - target)])) ∧
  (∀ (g : Gate) (f : FormE) (s : State), s.issues g = true →
    exec (.rdtk g f) s = .next (s.fly 1 [.s f.f1.toNat (if fbit f.func 1 then s.tick - s.cur.clock.rshift else s.tick)])) ∧
  (∀ (g : Gate) (f : FormE) (s : State), s.issues g = true →
    exec (.yield g f) s = .next (s.updCurSeq fun q => { q with after := some .yield })) ∧
  (∀ (g : Gate) (f : FormE) (s : State), s.issues g = true → s.openedInGroup f.tag.toNat = false →
    exec (.wshut g f) s = .next (s.fly 1 [.shut f.tag.toNat]) ∧
    exec (.getpost g f) s = .next (s.fly 1 [.post f.f1.toNat f.tag.toNat (f.func.toNat % 4) (fbit f.func 2)])) ∧
  (∀ (g : Gate) (f : FormE) (s : State), s.issues g = true →
    (fbit f.func 0 = true → s.pkg.indom = true ∧ (s.cur.s' f.f3.toNat).getLsbD s.pkg.domPos = true ∧
      (s.cur.s' f.f3.toNat).toNat < 2 ^ s.pkg.domSize) →
      exec (.bar g f) s = .next s) ∧
  (∀ (g : Gate) (f : FormE) (s : State), s.issues g = true →
    (fbit f.func 1 = true → ∀ c ∈ [1, 2, 3], s.cur.clock.refusal c = none) →
      exec (.fence g f) s = .next s) ∧
  (∀ (g : Gate) (f : FormE) (s : State), s.issues g = true → (∀ c ∈ [1, 2, 3], s.cur.clock.refusal c = none) → f.tag.toNat ≤ 3 →
    ∃ x : Word, exec (.rcnt g f) s = .next (s.fly 1 [.s f.f1.toNat x]) ∧
      (∀ c ∈ [1, 2, 3], f.tag.toNat = c → x = BitVec.ofNat 64 (s.cur.clock.counts[c - 1]?.getD 0)) ∧
      (f.tag.toNat = 0 → x = BitVec.ofNat 64 (s.cur.clock.counts[0] + s.cur.clock.counts[1] * 2 ^ 16 + s.cur.clock.counts[2] * 2 ^ 32)))

/-- R274: WOPEN, when no window of the core is open in the region or under its number, the region is aligned and inside the core store, the close tick
is after the next and no copy of the core still has a line in the region, opens its window at offset 1. -/
def Obligations.WindowOpensComplete : Prop :=
  ∀ (g : Gate) (f : FormE) (s : State), s.issues g = true →
    let base := s.cur.s' f.f1.toNat
    let size := s.cur.s' f.f2.toNat
    let close := if fbit f.func 6 then s.cur.s' f.f3.toNat + s.cur.clock.rshift else s.cur.s' f.f3.toNat
    (∀ x ∈ s.cur.clock.windows.toList, x.isOpen = true → x.meet base.toNat size.toNat = none) →
    (s.cur.window f.tag.toNat).isOpen = false → base.toNat % 64 = 0 → size.toNat % 64 = 0 → base.toNat + size.toNat ≤ 0x300000 →
    s.tick.toNat + s.stepBy < close.toNat →
    (∀ r ∈ s.cur.cpy.liveRanges s.clk, Window.meet { Window.reset with base := base, size := size } r.1 r.2 = none) →
      exec (.wopen g f) s = .next (s.fly 1 [.openWindow f.tag.toNat base size close (f.func.toNat % 4) (f.func.extractLsb' 2 4)
        #v[s.cur.s' f.f4.toNat, s.cur.s' (f.f4.toNat + 1), s.cur.s' (f.f4.toNat + 2), s.cur.s' (f.f4.toNat + 3)]])

/-- The core of `t` whose instruction executed in `s`. -/
def Claims.core (s t : State) : Core := t.core s.curT.cell

/-- R284, R408, R411, R444, R449: a signal sends a wake, a release takes the next number, a seal request lands its status, and the
collectives read their record line two ticks later. -/
def Obligations.AgentRequestsComplete : Prop :=
  (∀ (g : Gate) (f : FormE) (s : State), s.issues g = true → s.syncFault (.signal g f) = none →
    ∃ t, exec (.signal g f) s = .next t ∧ t.cores = s.cores ∧ t.mem = s.mem ∧ ∃ p : Packet, t.packets.get? s.nextId = some p ∧
      p.dest = routerOf ((s.cur.s' f.f2.toNat).toNat % 512) ∧
      p.item = .wake ((s.cur.s' f.f2.toNat).toNat % 512) ((s.cur.s' f.f2.toNat).toNat / 2 ^ 16 % 64)
        (if s.cur.ctx = 0 then none else some s.cur.ctx) (some s.curT.cell)) ∧
  (∀ (g : Gate) (f : FormE) (s : State), s.issues g = true → (s.ctx s.cur.ctx).pen = true →
    (fbit f.func 0 = true → (s.ctx s.cur.ctx).mirror = true) → (s.cur.clock.prIssued - s.cur.clock.prDone).toNat < 65535 →
      ∃ t, exec (.prel g f) s = .next t ∧ (Claims.core s t).clock.prIssued = s.cur.clock.prIssued + 1 ∧ t.mem = s.mem ∧
        (Claims.core s t).regs = s.cur.regs ∧ (Claims.core s t).flights.length = s.cur.flights.length + 1 ∧
        ∃ x ∈ (Claims.core s t).flights, x.due = s.clk + 1 ∧ x.landings = [.s f.f1.toNat ((s.cur.clock.prIssued + 1).setWidth 64)]) ∧
  (∀ (g : Gate) (f : FormE) (s : State), s.issues g = true → (s.ctx s.cur.ctx).pen = true → (s.cur.s' f.f2.toNat).toNat < 2 ^ 32 →
      ∃ t, exec (.pseal g f) s = .next t ∧ t.mem = s.mem ∧ (Claims.core s t).regs = s.cur.regs ∧
        ∃ x ∈ (Claims.core s t).flights, x.due = s.clk + 1 ∧
          x.landings = [.s f.f1.toNat (BitVec.ofNat 64 (s.sealStatus s.cur.ctx (s.cur.s' f.f2.toNat).toNat))]) ∧
  (∀ (g : Gate) (f : FormE) (s : State), s.issues g = true → (s.cur.s' f.f2.toNat).toNat % 64 = 0 →
    (s.cur.s' f.f2.toNat).toNat + 64 ≤ 0x300000 →
      (∃ t, exec (.cabort g f) s = .next t ∧ t.cores = s.cores ∧ t.mem = s.mem ∧ ∃ a ∈ t.accesses, a.due = s.clk + 2 ∧
        a.kind = .abortRecord ∧ a.lines = [{ address := (s.cur.s' f.f2.toNat).toNat, len := 64, lane := 0 }]) ∧
      (s.regionHit s.curT.cell (s.cur.s' f.f2.toNat).toNat 64 = none → s.cur.cpy.slots < 256 →
        ∃ t, exec (.coll g f) s = .next t ∧ t.mem = s.mem ∧ (Claims.core s t).regs = s.cur.regs ∧
          (∃ x ∈ (Claims.core s t).cpy.tagged, x.tag = f.f4.toNat ∧ x.coll = true ∧ x.id = s.nextId) ∧
          ∃ a ∈ t.accesses, a.due = s.clk + 2 ∧ a.kind = .record s.nextId ∧
            a.lines = [{ address := (s.cur.s' f.f2.toNat).toNat, len := 64, lane := 0 }]))

/-! ## Loads and stores -/

/-- The addresses of the lines that a load or store touches, in order (R139 to R141): the base plus the offset modulo 2^64, one line of
the type's bytes, four lines of 64 bytes, 64 × 2^func apart for LDVS, or at the four offsets in s registers for LDVX and STVX. -/
def Claims.addresses (c : Core) (i : Instr) : List Nat :=
  match i with
  | .lds _ f | .ldvb _ f | .sts _ f | .strs _ f | .ldk _ f | .stk _ f => [(c.a' f.base.toNat + f.offset.signExtend 64).toNat]
  | .ldv _ f | .stv _ f | .stvm _ f | .strv _ f =>
    [0, 1, 2, 3].map fun j => ((c.a' f.base.toNat + f.offset.signExtend 64).toNat + 64 * j) % 2 ^ 64
  | .ldvs _ f => [0, 1, 2, 3].map fun j => ((c.a' f.base.toNat + f.offset.signExtend 64).toNat + j * (64 * 2 ^ f.func.toNat)) % 2 ^ 64
  | .ldvx _ f | .stvx _ f =>
    [0, 1, 2, 3].map fun j => ((c.a' f.base.toNat + f.offset.signExtend 64).toNat + (c.s' (4 * f.func.toNat + j)).toNat) % 2 ^ 64
  | _ => []

/-- Perform and landing offsets of a line (R97): 2 and 5 in the core's own store, else 10 + 2h and 20 + 4h over h hops. -/
def Claims.offsets (cell space a : Nat) : Nat × Nat :=
  let h := hops (clusterOf cell) (if space = 1 then a / 2 ^ 26 else clusterOf (a / 2 ^ 22))
  if space = 0 then (2, 5) else (10 + 2 * h, 20 + 4 * h)

/-- A state that differs from another only by the accesses that it adds, and what they make due. -/
def Claims.adds (s t : State) (as : List Access) : Prop :=
  t.accesses = s.accesses ++ as ∧ t.cores = s.cores ∧ t.mem = s.mem ∧ t.pkg = s.pkg ∧ t.barrels = s.barrels ∧ t.tick = s.tick

/-- A load or store with no fault of R103 and R139 adds one access for each line, at the offsets of R97. -/
def Claims.performs (i : Gate → FormC → Instr) (n : Nat) (kind : Core → FormC → Nat → AccessKind) : Prop :=
  ∀ (g : Gate) (f : FormC) (s : State), s.issues g = true → s.memFault (i g f) = none →
    ∃ (t : State) (as : List Access), exec (i g f) s = .next t ∧ Claims.adds s t as ∧
      as.map (fun a => a.lines) = (Claims.addresses s.cur (i g f)).zipIdx.map (fun x =>
        [{ address := x.1, len := if n = 0 then typeBytes f.type.toNat else n, lane := x.2 }]) ∧
      ∀ a ∈ as, a.cell = s.curT.cell ∧ a.space = f.space.toNat ∧ a.issued = s.clk ∧ a.pc = s.curT.pc ∧ ∀ l ∈ a.lines,
        a.due = s.clk + (Claims.offsets s.curT.cell f.space.toNat l.address).1 ∧
        a.kind = kind s.cur f (s.clk + (Claims.offsets s.curT.cell f.space.toNat l.address).2)

/-- R139, R140, R97: a load that faults in no way puts its lines in flight, to land in its register. -/
def Claims.loads : Prop :=
  Claims.performs .lds 0 (fun _ f land => .load (.scalar f.data.toNat f.type.toNat) land) ∧
  Claims.performs .ldvb 0 (fun _ f land => .load (.broadcast f.data.toNat f.type.toNat) land) ∧
  Claims.performs .ldv 64 (fun _ f land => .load (.vector f.data.toNat) land) ∧
  Claims.performs .ldvs 64 (fun _ f land => .load (.vector f.data.toNat) land) ∧
  Claims.performs .ldvx 64 (fun _ f land => .load (.vector f.data.toNat) land) ∧
  Claims.performs .ldk 32 (fun _ f land => .load (.mask f.data.toNat) land)

/-- R141, R97: a store that faults in no way puts its lines in flight with the data read at issue; STVM stores the bytes its mask names. -/
def Claims.stores : Prop :=
  Claims.performs .sts 0 (fun c f _ => .store (c.s' f.data.toNat).toNat (2 ^ 256 - 1)) ∧
  Claims.performs .stv 64 (fun c f _ => .store (c.v' f.data.toNat).toNat (2 ^ 256 - 1)) ∧
  Claims.performs .stvm 64 (fun c f _ => .store (c.v' f.data.toNat).toNat (c.k' (f.func.toNat % 8)).toNat) ∧
  Claims.performs .stvx 64 (fun c f _ => .store (c.v' f.data.toNat).toNat (2 ^ 256 - 1)) ∧
  Claims.performs .stk 32 (fun c f _ => .store (c.k' f.data.toNat).toNat (2 ^ 256 - 1))

/-- The remote store from a core to an address of the remote space. -/
def Claims.remote (source a len data : Nat) : RemoteStore :=
  { source, cell := a / 2 ^ 22, offset := a % 2 ^ 22, len, data, cls := remoteClass source (a / 2 ^ 22),
    arrived := false, queued := false, left := List.range ((len + 63) / 64), turn := none, refused := false, counted := true }

/-- R141, R101: a posted remote store raises its class's count and sends its data to the addressed core; nothing is stored yet. -/
def Claims.posts (i : Gate → FormC → Instr) (n : FormC → Nat) (data : Core → FormC → Nat) : Prop :=
  ∀ (g : Gate) (f : FormC) (s : State), s.issues g = true → s.memFault (i g f) = none →
    let a := (s.cur.a' f.base.toNat + f.offset.signExtend 64).toNat
    let cls := remoteClass s.curT.cell (a / 2 ^ 22)
    ∃ t, exec (i g f) s = .next t ∧ t.mem = s.mem ∧ (Claims.core s t).regs = s.cur.regs ∧
      (Claims.core s t).clock.counts[cls - 1]?.getD 0 = s.cur.clock.counts[cls - 1]?.getD 0 + 1 ∧
      t.remotes.get? s.nextId = some (Claims.remote s.curT.cell a (n f) (data s.cur f % 2 ^ (8 * n f))) ∧
      ∃ p : Packet, t.packets.get? (s.nextId + 1) = some p ∧ p.dest = routerOf (a / 2 ^ 22) ∧ p.item = .op (.remoteStoreArrival s.nextId)

def Claims.remoteStores : Prop :=
  Claims.posts .strs (fun f => typeBytes f.type.toNat) (fun c f => (c.s' f.data.toNat).toNat) ∧
  Claims.posts .strv (fun _ => 256) (fun c f => (c.v' f.data.toNat).toNat)

/-- R101, R103, R141: a remote store that comes in, the oldest of its core and cell, puts its lines in the queues of the side ports; a line
at its turn is stored, or refused where the destination is closed, contained or has a window open on it; the last one sends the
acknowledgement, which lowers the count of the class and sets its refusal bit, with the first refused address. The queues and the judging line
by line are the model's choice (log entries 44 and 53); a store of the core's earlier program counts for nothing (R102). -/
def Claims.remoteArrivals : Prop :=
  (∀ (request : Nat) (r : RemoteStore) (s : State), s.remotes.get? request = some r → r.turn = none → r.queued = false → r.left ≠ [] →
    (∀ x ∈ s.remotes, x.2.source = r.source → x.2.cell = r.cell → x.1 = request) →
      ∃ t, exec (.remoteStoreArrival request) s = .next t ∧ t.mem = s.mem ∧ t.cores = s.cores ∧
        t.remotes.get? request = some { r with arrived := true, queued := true } ∧
        ∀ j ∈ r.left, .remote request j ∈ (t.sidePort r.cell ((r.offset + 64 * j) / 64 % 32)).lines) ∧
  (∀ (request j : Nat) (r : RemoteStore) (s : State), s.remotes.get? request = some r → r.turn = some j → r.queued = true →
    (∀ x ∈ s.remotes, x.1 = request → x.2 = r) →
      let at' := r.offset + 64 * j
      let n := min 64 (r.len - 64 * j)
      let no : Prop := s.turnsAway r.cell = true ∨ (s.core r.cell).run = .contained ∨ s.regionHit r.cell at' n ≠ none
      ∃ t, exec (.remoteStoreArrival request) s = .next t ∧ t.cores = s.cores ∧
        (no → t.mem = s.mem ∧ t.remotes.get? request = some { r with left := r.left.erase j, turn := none, refused := true }) ∧
        (¬no → t.mem = s.mem.putNum (coreStoreBase r.cell + at') n (r.data / 2 ^ (512 * j) % 2 ^ (8 * n)) ∧
          t.remotes.get? request = some { r with left := r.left.erase j, turn := none }) ∧
        (r.left.erase j = [] → ∃ p : Packet, t.packets.get? s.nextId = some p ∧ p.dest = routerOf r.source ∧
          p.item = .op (.remoteStoreAck request))) ∧
  ∀ (request : Nat) (r : RemoteStore) (s : State), s.remotes.get? request = some r →
    let s1 : State := { s with remotes := s.remotes.erase request }
    let lower (k : ClockEngine) : ClockEngine :=
      { k with counts := k.counts.setIfInBounds (r.cls - 1) (k.counts[r.cls - 1]?.getD 0 - 1) }
    (r.counted = false → exec (.remoteStoreAck request) s = .next s1) ∧
    (r.counted = true → r.refused = false → exec (.remoteStoreAck request) s = .next (s1.updClock r.source lower)) ∧
    (r.counted = true → r.refused = true → ∃ t, exec (.remoteStoreAck request) s = .next t ∧ t.mem = s.mem ∧
      (t.core r.source).clock = { lower (s.core r.source).clock with
        refused := (s.core r.source).clock.refused.setIfInBounds (r.cls - 1) true
        refusedAt := if (s.core r.source).clock.refused[r.cls - 1]?.getD false = true then (s.core r.source).clock.refusedAt
          else (s.core r.source).clock.refusedAt.setIfInBounds (r.cls - 1) (BitVec.ofNat 64 (r.cell * 2 ^ 22 + r.offset)) })

/-- R139 to R141, R97, R101, R103: loads, stores and posted remote stores that fault in no way complete, and what becomes of a remote store
when it comes in, at its turns and when its acknowledgement returns. -/
def Obligations.LoadsAndStoresComplete : Prop := Claims.loads ∧ Claims.stores ∧ Claims.remoteStores ∧ Claims.remoteArrivals

/-- R139, R103: a load, store or posted store that waits on no refused class and names a space legal for it traps with
misaligned-access when the address of its first line is not a multiple of the line's alignment, whatever else is wrong with it. -/
def Obligations.MisalignedAccessesTrap : Prop :=
  ∀ (i : Gate → FormC → Instr), i ∈ [Instr.lds, .ldv, .ldvs, .ldvx, .ldvb, .ldk, .sts, .stv, .stvm, .stvx, .stk, .strs, .strv] →
    ∀ (g : Gate) (f : FormC) (s : State), s.issues g = true → s.cur.clock.refusal f.wcls.toNat = none →
      legalSpace (i g f) f.space.toNat = true → ∀ a, (Claims.addresses s.cur (i g f)).head? = some a →
        let align := if i g f matches .ldk .. | .stk .. then 32
          else if i g f matches .lds .. | .ldvb .. | .sts .. | .strs .. then typeBytes f.type.toNat else 64
        a % align ≠ 0 →
          exec (i g f) s = .next (s.takeTrap s.curT.cell
            { cause := 50, slot := s.curT.slot, lane := 0, pc := s.curT.pc, val := BitVec.ofNat 64 a } s.curT.pc)

/-! ## The vector units -/

/-- Width in bytes of the lanes of an instruction's type. -/
def Claims.width (f : FormA) : Nat := typeBytes f.type.toNat
/-- Lane `j`, of the instruction's width, of the vector register or latch that a field names. -/
def Claims.at (c : Core) (f : FormA) (n : BitVec 6) (j : Nat) : Nat := lane (c.v' n.toNat) (Claims.width f) j
/-- The number that lane `j` holds, signed or unsigned as the type says. -/
def Claims.num (c : Core) (f : FormA) (n : BitVec 6) (j : Nat) : Int := intOf f.type.toNat (Claims.at c f n j)
/-- Whether the guard enables lane `j` of width `w` (R154, R164). -/
def Claims.enabled (s : State) (g : Gate) (w j : Nat) : Bool := (s.cur.pv' g.guard.toNat).getLsbD (w * j)

/-- A result of lanes of width `w`: where the guard enables a lane its value is `value` and all its bits are written, every other lane is
left alone, and the flags of the enabled lanes, and only these, are raised with the result (R154, R156, R157). -/
def Claims.lanes (s t : State) (g : Gate) (d : BitVec 6) (w offset opcode : Nat) (value : Nat → Nat) (flags : Nat → Flags) : Prop :=
  ∃ (x bits : VReg) (fl : List (Nat × Flags)),
    t = s.flight (vOffset offset d.toNat) opcode [.v d.toNat x bits] (unitGroup s.curT.slot) fl none ∧
    (∀ j < 256 / w, if Claims.enabled s g w j = true then lane x w j = value j ∧ lane bits w j = 2 ^ (8 * w) - 1 else lane bits w j = 0) ∧
    ∀ j u, (j, u) ∈ fl ↔ j < 256 / w ∧ Claims.enabled s g w j = true ∧ u = flags j ∧ u ≠ 0

/-- A vector instruction whose iteration condition holds completes with such a result. -/
def Claims.vector (i : Gate → FormA → Instr) (offset opcode : Nat) (value : Core → FormA → Nat → Nat)
    (flags : Core → FormA → Nat → Flags := fun _ _ _ => 0) : Prop :=
  ∀ (g : Gate) (f : FormA) (s : State), s.iterates g = true →
    ∃ t, exec (i g f) s = .next t ∧
      Claims.lanes s t g f.d (Claims.width f) offset opcode (value s.cur f) (flags s.cur f)

/-- 2 to the bits of a lane. -/
def Claims.range (f : FormA) : Nat := 2 ^ (8 * Claims.width f)

/-- An exact integer result outside the type's range raises sa (R34, R161). -/
def Claims.clamped (f : FormA) (n : Int) : Flags := if n < minInt f.type.toNat ∨ maxInt f.type.toNat < n then fSa else 0
/-- The pattern of an integer clamped into the type's range. -/
def Claims.clamp (f : FormA) (n : Int) : Nat := wrapBits (8 * Claims.width f) (max (minInt f.type.toNat) (min n (maxInt f.type.toNat)))

/-- R161: lane-wise sums, differences and products wrap; MULH gives the high half; minima and maxima order by the type; ADDS and SUBS
clamp and raise sa. -/
def Obligations.VectorIntegersComplete : Prop :=
  Claims.vector .vadd 2 0x01 (fun c f j => (Claims.at c f f.a j + Claims.at c f f.b j) % Claims.range f) ∧
  Claims.vector .vsub 2 0x02 (fun c f j => (Claims.at c f f.a j + Claims.range f - Claims.at c f f.b j) % Claims.range f) ∧
  Claims.vector .vmul 4 0x03 (fun c f j => Claims.at c f f.a j * Claims.at c f f.b j % Claims.range f) ∧
  Claims.vector .vmulh 4 0x04 (fun c f j => (Claims.num c f f.a j * Claims.num c f f.b j / (Claims.range f : Int) % (Claims.range f : Int)).toNat) ∧
  Claims.vector .vmin 2 0x05 (fun c f j => if Claims.num c f f.a j ≤ Claims.num c f f.b j then Claims.at c f f.a j else Claims.at c f f.b j) ∧
  Claims.vector .vmax 2 0x06 (fun c f j => if Claims.num c f f.a j ≤ Claims.num c f f.b j then Claims.at c f f.b j else Claims.at c f f.a j) ∧
  Claims.vector .vadds 2 0x10 (fun c f j => Claims.clamp f (Claims.num c f f.a j + Claims.num c f f.b j))
    (fun c f j => Claims.clamped f (Claims.num c f f.a j + Claims.num c f f.b j)) ∧
  Claims.vector .vsubs 2 0x11 (fun c f j => Claims.clamp f (Claims.num c f f.a j - Claims.num c f f.b j))
    (fun c f j => Claims.clamped f (Claims.num c f f.a j - Claims.num c f f.b j))

/-- R161: bit-wise lanes, negation, magnitude, and shifts by an unsigned count, from the width on 0 or copies of the sign. -/
def Obligations.VectorBitsComplete : Prop :=
  Claims.vector .vand 2 0x09 (fun c f j => Claims.at c f f.a j &&& Claims.at c f f.b j) ∧
  Claims.vector .vor 2 0x0A (fun c f j => Claims.at c f f.a j ||| Claims.at c f f.b j) ∧
  Claims.vector .vxor 2 0x0B (fun c f j => Claims.at c f f.a j ^^^ Claims.at c f f.b j) ∧
  Claims.vector .vnot 2 0x0C (fun c f j => Claims.range f - 1 - Claims.at c f f.a j) ∧
  Claims.vector .vmov 2 0x37 (fun c f j => Claims.at c f f.a j) ∧
  Claims.vector .vneg 2 0x08
    (fun c f j => if f.sat = 1 then Claims.clamp f (-Claims.num c f f.a j) else (Claims.range f - Claims.at c f f.a j) % Claims.range f)
    (fun c f j => if f.sat = 1 then Claims.clamped f (-Claims.num c f f.a j) else 0) ∧
  Claims.vector .vabs 2 0x07
    (fun c f j => if Claims.num c f f.a j < 0 then (if f.sat = 1 then Claims.clamp f (-Claims.num c f f.a j)
      else (Claims.range f - Claims.at c f f.a j) % Claims.range f) else Claims.at c f f.a j)
    (fun c f j => if f.sat = 1 ∧ Claims.num c f f.a j < 0 then Claims.clamped f (-Claims.num c f f.a j) else 0) ∧
  Claims.vector .vshl 2 0x0D (fun c f j => if 8 * Claims.width f ≤ Claims.at c f f.b j then 0 else Claims.at c f f.a j * 2 ^ Claims.at c f f.b j % Claims.range f) ∧
  Claims.vector .vshr 2 0x0E (fun c f j => if 8 * Claims.width f ≤ Claims.at c f f.b j then 0 else Claims.at c f f.a j / 2 ^ Claims.at c f f.b j) ∧
  Claims.vector .vsar 2 0x0F (fun c f j => sarLane f.type.toNat (Claims.at c f f.a j) (Claims.at c f f.b j)) ∧
  Claims.vector .vshlImm 2 0x0D (fun c f j => Claims.at c f f.a j * 2 ^ (f.func.toNat % 128) % Claims.range f) ∧
  Claims.vector .vshrImm 2 0x0E (fun c f j => Claims.at c f f.a j / 2 ^ (f.func.toNat % 128)) ∧
  Claims.vector .vsarImm 2 0x0F (fun c f j => sarLane f.type.toNat (Claims.at c f f.a j) (f.func.toNat % 128)) ∧
  ∀ t a n : Nat, 0 < typeBits t → a < 2 ^ typeBits t → ∃ y : Int, (a : Int) - (if 2 ^ (typeBits t - 1) ≤ a then 2 ^ typeBits t else 0) = y ∧
    (n < typeBits t → sarLane t a n = (y / 2 ^ n % (2 ^ typeBits t : Nat)).toNat) ∧
    (typeBits t ≤ n → sarLane t a n = if y < 0 then 2 ^ typeBits t - 1 else 0)

/-- The value that lane `j` holds as a number of the instruction's floating-point type. -/
def Claims.val (c : Core) (f : FormA) (n : BitVec 6) (j : Nat) : Val := fpToVal f.type.toNat (Claims.at c f n j)
/-- The rounding mode in force: `dyn` reads FMODE (R40). -/
def Claims.mode (c : Core) (f : FormA) : Nat := if f.rnd.toNat = 6 then c.ctl.rnd else f.rnd.toNat
/-- A value rounded into the instruction's type, with its flags (R42). -/
def Claims.rounded (c : Core) (f : FormA) (v : Val) : Nat × Flags := roundToFp v f.type.toNat (Claims.mode c f) (f.sat == 1) 0

/-- Claims.vector for an instruction that rounds once: `op` gives the exact value and flags of its own. -/
def Claims.rounds (i : Gate → FormA → Instr) (offset : FormA → Nat) (opcode : Nat) (op : Core → FormA → Nat → Val × Flags) : Prop :=
  ∀ (g : Gate) (f : FormA) (s : State), s.iterates g = true → ∃ t, exec (i g f) s = .next t ∧
    Claims.lanes s t g f.d (Claims.width f) (offset f) opcode (fun j => (Claims.rounded s.cur f (op s.cur f j).1).1 % Claims.range f)
      (fun j => (Claims.rounded s.cur f (op s.cur f j).1).2 ||| (op s.cur f j).2)

/-- R162, R155: floating-point lanes compute exactly and round once; divisions and roots take 12 ticks, in f64 20. -/
def Obligations.VectorFloatsComplete : Prop :=
  Claims.rounds .vfadd (fun _ => 4) 0x12 (fun c f j => (addVal (Claims.val c f f.a j) (Claims.val c f f.b j) (Claims.mode c f), 0)) ∧
  Claims.rounds .vfsub (fun _ => 4) 0x13 (fun c f j => (subVal (Claims.val c f f.a j) (Claims.val c f f.b j) (Claims.mode c f), 0)) ∧
  Claims.rounds .vfmul (fun _ => 4) 0x14 (fun c f j => (mulVal (Claims.val c f f.a j) (Claims.val c f f.b j), 0)) ∧
  Claims.rounds .vfma (fun _ => 4) 0x15 (fun c f j =>
    (fmaVal (Claims.val c f f.a j) (Claims.val c f f.b j) (Claims.val c f f.c j) (Claims.mode c f), 0)) ∧
  Claims.rounds .vfms (fun _ => 4) 0x16 (fun c f j =>
    (fmaVal (Claims.val c f f.a j) (Claims.val c f f.b j) (Claims.val c f f.c j).negate (Claims.mode c f), 0)) ∧
  Claims.rounds .vfdiv (fun f => if f.type = 11 then 20 else 12) 0x17 (fun c f j => divVal (Claims.val c f f.a j) (Claims.val c f f.b j)) ∧
  Claims.rounds .vfsqrt (fun f => if f.type = 11 then 20 else 12) 0x18 (fun c f j => (sqrtVal (Claims.val c f f.a j), 0))

/-- Sign bit of a lane of the type. -/
def Claims.top (f : FormA) : Nat := 2 ^ (8 * Claims.width f - 1)

/-- R162, R163, R164: magnitude and negation touch the sign alone; minima, maxima and classes; the comparisons write every bit of a lane
of the predicate. -/
def Obligations.VectorSignsAndTestsComplete : Prop :=
  Claims.vector .vfabs 2 0x1B (fun c f j => Claims.at c f f.a j % Claims.top f) ∧
  Claims.vector .vfneg 2 0x1C (fun c f j => (Claims.at c f f.a j + Claims.top f) % Claims.range f) ∧
  Claims.vector .vfmin 4 0x19 (fun c f j => (minMaxBits f.type.toNat false (fbit f.func 0) (Claims.at c f f.a j) (Claims.at c f f.b j)).1 % Claims.range f)
    (fun c f j => (minMaxBits f.type.toNat false (fbit f.func 0) (Claims.at c f f.a j) (Claims.at c f f.b j)).2) ∧
  Claims.vector .vfmax 4 0x1A (fun c f j => (minMaxBits f.type.toNat true (fbit f.func 0) (Claims.at c f f.a j) (Claims.at c f f.b j)).1 % Claims.range f)
    (fun c f j => (minMaxBits f.type.toNat true (fbit f.func 0) (Claims.at c f f.a j) (Claims.at c f f.b j)).2) ∧
  Claims.vector .vfcls 2 0x1D (fun c f j => classMask f.type.toNat (Claims.at c f f.a j) % Claims.range f) ∧
  (∀ (i : Gate → FormA → Instr) (offset opcode : Nat) (cond : Core → FormA → Nat → Bool × Flags),
    (i, offset, opcode, cond) ∈ ([
      (Instr.vcmp, 2, 0x1E, fun c f j => (condOf (f.func.toNat % 8) (intOrd (Claims.num c f f.a j) (Claims.num c f f.b j)), 0)),
      (.vtest, 2, 0x22, fun c f j => (Claims.at c f f.a j &&& Claims.at c f f.b j != 0, 0)),
      (.vfcmp, 4, 0x1F, fun c f j => fpCompare (f.func.toNat % 8) f.type.toNat (Claims.at c f f.a j) (Claims.at c f f.b j))] :
        List ((Gate → FormA → Instr) × Nat × Nat × (Core → FormA → Nat → Bool × Flags))) →
    ∀ (g : Gate) (f : FormA) (s : State), s.iterates g = true → 0 < Claims.width f →
      ∃ (x bits : Mask) (fl : List (Nat × Flags)),
        exec (i g f) s = .next (s.flight offset opcode [.pv f.d.toNat x bits] (unitGroup s.curT.slot) fl none) ∧
        (∀ k < 256, bits.getLsbD k = Claims.enabled s g (Claims.width f) (k / Claims.width f) ∧
          (bits.getLsbD k = true → x.getLsbD k = (cond s.cur f (k / Claims.width f)).1)) ∧
        ∀ j u, (j, u) ∈ fl ↔ j < 256 / Claims.width f ∧ Claims.enabled s g (Claims.width f) j = true ∧
          u = (cond s.cur f j).2 ∧ u ≠ 0)

/-- R165, R168: selection by a predicate, permutation over two sources, broadcast, rotation and slide. -/
def Obligations.VectorPermutesComplete : Prop :=
  Claims.vector .vsel 2 0x20 (fun c f j => if (c.pv' f.c.toNat).getLsbD (Claims.width f * j) then Claims.at c f f.a j else Claims.at c f f.b j) ∧
  Claims.vector .vperm 3 0x23 (fun c f j =>
    let k := Claims.at c f f.b j
    if k < 256 / Claims.width f then Claims.at c f f.a k
    else if k < 2 * (256 / Claims.width f) then Claims.at c f f.c (k - 256 / Claims.width f) else 0) ∧
  Claims.vector .vbcast 2 0x24 (fun c f _ => Claims.at c f f.a (f.func.toNat % 256)) ∧
  Claims.vector .vrot 3 0x25 (fun c f j =>
    Claims.at c f f.a ((j + 256 / Claims.width f - f.func.toNat % 256) % (256 / Claims.width f))) ∧
  Claims.vector .vslide 3 0x26 (fun c f j =>
    let k := j + f.func.toNat % 512
    if k < 256 / Claims.width f then Claims.at c f f.a k else Claims.at c f f.c (k - 256 / Claims.width f))

/-- R166, R155: VCAS lands the pair that ranks higher by key, then by lower index, in d and the other in c; lanes are pairs of the key's
type, key above index. -/
def Obligations.VectorPairsComplete : Prop :=
  ∀ (g : Gate) (f : FormA) (s : State), s.iterates g = true →
    let w := 2 * Claims.width f
    let key (n : BitVec 6) (j : Nat) : Nat := lane (s.cur.v' n.toNat) w j / 2 ^ (8 * Claims.width f)
    let idx (n : BitVec 6) (j : Nat) : Nat := lane (s.cur.v' n.toNat) w j % 2 ^ (8 * Claims.width f)
    ∃ x y bits : VReg,
      exec (.vcas g f) s = .next (s.flight2 3 0x21 f.d.toNat f.c.toNat (.v f.d.toNat x bits) (.v f.c.toNat y bits) .none []) ∧
      ∀ j < 256 / w, if Claims.enabled s g w j = true then
          lane bits w j = 2 ^ (8 * w) - 1 ∧
          (if keyOrd f.type.toNat (key f.a j) (key f.b j) = .gt ∨
              (keyOrd f.type.toNat (key f.a j) (key f.b j) = .eq ∧ idx f.a j ≤ idx f.b j)
            then lane x w j = lane (s.cur.v' f.a.toNat) w j ∧ lane y w j = lane (s.cur.v' f.b.toNat) w j
            else lane x w j = lane (s.cur.v' f.b.toNat) w j ∧ lane y w j = lane (s.cur.v' f.a.toNat) w j)
        else lane bits w j = 0

/-- Sum of the enabled lanes among the `n` lanes from `first` on. -/
def Claims.total (s : State) (g : Gate) (f : FormA) (first n : Nat) : Nat :=
  ((List.range n).map fun k => if Claims.enabled s g (Claims.width f) (first + k) then Claims.at s.cur f f.a (first + k) else 0).sum

/-- A value of a group with its lane's index, or nothing (R169). -/
abbrev Claims.Elem := Option (Nat × Nat)

/-- Lane `j` of the group that begins at lane `first`: absent unless the guard enables it. -/
def Claims.member (s : State) (g : Gate) (f : FormA) (first j : Nat) : Claims.Elem :=
  if Claims.enabled s g (Claims.width f) (first + j) = true then some (Claims.at s.cur f f.a (first + j), j) else none

/-- Op on two values (R169): 0 the wrapping sum, 1 the rounded sum, 2 and 3 the extremes, floats by R38 under func[4], 6 to 8 bit by bit. -/
def Claims.folded (c : Core) (f : FormA) (x y : Nat) : Nat × Flags :=
  let t := f.type.toNat
  match f.func.toNat % 16 with
  | 0 => ((x + y) % Claims.range f, 0)
  | 1 => roundToFp (addVal (fpToVal t x) (fpToVal t y) (if f.rnd.toNat = 6 then c.ctl.rnd else f.rnd.toNat)) t
      (if f.rnd.toNat = 6 then c.ctl.rnd else f.rnd.toNat) (f.sat == 1) 0
  | 2 => if isIntType t = true then (if intOf t x ≤ intOf t y then x else y, 0) else minMaxBits t false (fbit f.func 4) x y
  | 3 => if isIntType t = true then (if intOf t x ≤ intOf t y then y else x, 0) else minMaxBits t true (fbit f.func 4) x y
  | 6 => (x &&& y, 0)
  | 7 => (x ||| y, 0)
  | _ => (x ^^^ y, 0)

/-- Op of R169 on items: an absent one gives the other; argmax (4) and argmin (5) keep the pair that ranks higher, the lower index of equals. -/
def Claims.joined (c : Core) (f : FormA) (x y : Claims.Elem) : Claims.Elem × Flags :=
  match x, y with
  | none, y => (y, 0)
  | some a, none => (some a, 0)
  | some a, some b =>
    if f.func.toNat % 16 = 4 ∨ f.func.toNat % 16 = 5 then
      (match (if f.func.toNat % 16 = 5 then keyOrdRev f.type.toNat a.1 b.1 else keyOrd f.type.toNat a.1 b.1) with
        | .gt => some a
        | .lt => some b
        | .eq => some (if a.2 ≤ b.2 then a else b), 0)
    else (some ((Claims.folded c f a.1 b.1).1, a.2), (Claims.folded c f a.1 b.1).2)

/-- The fixed tree of R169 over 2^e items: the tree of the lower half joined with that of the upper half, with the flags of all its steps. -/
def Claims.tree (c : Core) (f : FormA) : Nat → (Nat → Claims.Elem) → Claims.Elem × Flags
  | 0, x => (x 0, 0)
  | e + 1, x =>
    let l := Claims.tree c f e x
    let r := Claims.tree c f e fun j => x (2 ^ e + j)
    ((Claims.joined c f l.1 r.1).1, l.2 ||| r.2 ||| (Claims.joined c f l.1 r.1).2)

/-- The running value of R170 after the first `n` lanes of a group, with the flags of the last step. -/
def Claims.running (c : Core) (f : FormA) (x : Nat → Claims.Elem) : Nat → Claims.Elem × Flags
  | 0 => (none, 0)
  | n + 1 => Claims.joined c f (Claims.running c f x n).1 (x n)

/-- Empty(op) of R169. -/
def Claims.empty (f : FormA) : Nat :=
  let t := f.type.toNat
  match f.func.toNat % 16 with
  | 2 => if isIntType t = true then wrapBits (typeBits t) (maxInt t) else infBits t
  | 3 => if isIntType t = true then wrapBits (typeBits t) (minInt t) else infBits t + 2 ^ (typeBits t - 1)
  | 6 => 2 ^ typeBits t - 1
  | _ => 0

/-- What lane `k` of a reduced group holds (R169): the first the value, or for argmax and argmin the first the key and the second the index,
with their values of an empty group, the others zero. -/
def Claims.reduced (f : FormA) (x : Claims.Elem) (k : Nat) : Nat :=
  if f.func.toNat % 16 = 4 ∨ f.func.toNat % 16 = 5 then
    match x, k with
    | some a, 0 => a.1
    | some a, 1 => a.2
    | none, 0 => if isIntType f.type.toNat = true then Claims.range f - 1 else canonNan f.type.toNat
    | none, 1 => Claims.range f - 1
    | _, _ => 0
  else if k = 0 then (match x with | some a => a.1 | none => Claims.empty f) else 0

/-- R169, R170: reductions and scans write all of d eight ticks later. The lanes of a group of 2^e lanes reduce by the fixed tree, whose
value, or key and index, stands in the first lanes with 0 in the others, and the flags of all its steps are raised; a scan's lane holds the running
value up to it, without itself in the exclusive form, with the flags of its own step. Integer sums are the wrapped sums of the enabled lanes. -/
def Obligations.VectorFoldsComplete : Prop :=
  ∀ (g : Gate) (f : FormA) (s : State), s.iterates g = true →
    let n := 256 / Claims.width f
    let op := f.func.toNat % 16
    let gs := if f.func.toNat / 32 % 16 = 0 then n else 2 ^ (f.func.toNat / 32 % 16)
    (∃ (x : VReg) (fl : List (Nat × Flags)),
      exec (.vred g f) s = .next (s.flight (vOffset 8 f.d.toNat) 0x27 [.v f.d.toNat x (BitVec.allOnes 2048)] (unitGroup s.curT.slot) fl none) ∧
      (op = 0 → isIntType f.type.toNat = true → fl = [] ∧ ∀ q < n / gs, ∀ k < gs,
        lane x (Claims.width f) (q * gs + k) = if k = 0 then Claims.total s g f (q * gs) gs % Claims.range f else 0) ∧
      ∀ e, gs = 2 ^ e → gs ≤ n → 2 ≤ gs → op ≤ 8 →
        (∀ q < n / gs, ∀ k < gs, lane x (Claims.width f) (q * gs + k) =
          Claims.reduced f (Claims.tree s.cur f e (Claims.member s g f (q * gs))).1 k % Claims.range f) ∧
        ∀ u, (∃ j, (j, u) ∈ fl) ↔ u ≠ 0 ∧ ∃ q < n / gs, u = (Claims.tree s.cur f e (Claims.member s g f (q * gs))).2) ∧
    ∃ (x : VReg) (fl : List (Nat × Flags)),
      exec (.vscan g f) s = .next (s.flight (vOffset 8 f.d.toNat) 0x28 [.v f.d.toNat x (BitVec.allOnes 2048)] (unitGroup s.curT.slot) fl none) ∧
      (op = 0 → isIntType f.type.toNat = true → fl = [] ∧ ∀ q < n / gs, ∀ k < gs,
        lane x (Claims.width f) (q * gs + k) = Claims.total s g f (q * gs) (if fbit f.func 9 then k else k + 1) % Claims.range f) ∧
      (gs ≤ n → op ≤ 8 → op ≠ 4 → op ≠ 5 →
        let run (q k : Nat) : Claims.Elem × Flags := Claims.running s.cur f (Claims.member s g f (q * gs)) k
        (∀ q < n / gs, ∀ k < gs, lane x (Claims.width f) (q * gs + k) =
          (match (run q (if fbit f.func 9 then k else k + 1)).1 with | some a => a.1 | none => Claims.empty f) % Claims.range f) ∧
        ∀ j u, (j, u) ∈ fl ↔ u ≠ 0 ∧ ∃ q < n / gs, ∃ k < gs, j = q * gs + k ∧ u = (run q (k + 1)).2)

/-- The state a stochastic instruction works from, with the draws of its lanes: rsr alone moves the unit's stream (R44, R158, R159). -/
def Claims.drawn (s : State) (f : FormA) (n : Nat) : List Nat × State := if f.rnd.toNat = 5 then s.draw n else ([], s)

/-- Flags in flight: those of the enabled lanes among the first `n` of width `w`, and only these (R157). -/
def Claims.flagged (s : State) (g : Gate) (w n : Nat) (fl : List (Nat × Flags)) (flags : Nat → Flags) : Prop :=
  ∀ j u, (j, u) ∈ fl ↔ j < n ∧ Claims.enabled s g w j = true ∧ u = flags j ∧ u ≠ 0

/-- A landing of lanes of width `wt` from source lane `i` of width `ws` into target lane `first + i`: where the guard enables the source lane
the target lane is `value i` and all its bits are written; every other lane of the register is left alone (R156, R171). -/
def Claims.parts (s : State) (g : Gate) (ws wt first n : Nat) (x bits : VReg) (value : Nat → Nat) : Prop :=
  ∀ j < 256 / wt, if first ≤ j ∧ j < first + n ∧ Claims.enabled s g ws (j - first) = true
    then lane x wt j = value (j - first) ∧ lane bits wt j = 2 ^ (8 * wt) - 1 else lane bits wt j = 0

/-- R171: VCVT and VWID complete whenever the iteration condition holds, with the converted lane and its flags in every enabled lane; VNRW
and VNRWF whenever their part lies in d: the part's enabled lanes, and the residual's, and no other, are written, with the flags of the
enabled lanes. -/
def Obligations.VectorConversionsComplete : Prop :=
  ∀ (g : Gate) (f : FormA) (s : State), s.iterates g = true →
    let ts := f.type.toNat
    let tt := f.func.toNat % 32
    let wt := typeBytes tt
    let ws := Claims.width f
    let n := 256 / ws
    let part := f.func.toNat / 32 % 8
    let d := Claims.drawn s f n
    let out (j : Nat) : Nat × Flags := convertAny ts tt (Claims.at s.cur f f.a j) (Claims.mode s.cur f) (f.sat == 1) (d.1[j]?.getD 0)
    let fed (j : Nat) : Nat × Nat × Flags :=
      narrowFeedback ts tt (Claims.at s.cur f f.a j) (Claims.mode s.cur f) (f.sat == 1) (d.1[j]?.getD 0)
    let wide (j : Nat) : Nat × Flags := convert ts tt (Claims.at s.cur f f.a (part * (256 / wt) + j)) 0 false 0
    (∃ t, exec (.vcvt g f) s = .next t ∧ Claims.lanes d.2 t g f.d ws 4 0x29 (fun j => (out j).1 % Claims.range f) (fun j => (out j).2)) ∧
    (∃ t, exec (.vwid g f) s = .next t ∧ Claims.lanes s t g f.d wt 4 0x2C (fun j => (wide j).1 % 2 ^ (8 * wt)) (fun j => (wide j).2)) ∧
    ((part + 1) * n ≤ 256 / wt →
      (∃ (x bits : VReg) (fl : List (Nat × Flags)),
        exec (.vnrw g f) s = .next (d.2.flight (vOffset 4 f.d.toNat) 0x2A [.v f.d.toNat x bits] (unitGroup s.curT.slot) fl none) ∧
        Claims.parts s g ws wt (part * n) n x bits (fun j => (out j).1 % 2 ^ (8 * wt)) ∧ Claims.flagged s g ws n fl fun j => (out j).2) ∧
      ∃ (x bits y ybits : VReg) (fl : List (Nat × Flags)),
        exec (.vnrwf g f) s = .next (d.2.flight2 4 0x2B f.d.toNat f.c.toNat (.v f.d.toNat x bits) (.v f.c.toNat y ybits)
          (unitGroup s.curT.slot) fl) ∧
        Claims.parts s g ws wt (part * n) n x bits (fun j => (fed j).1 % 2 ^ (8 * wt)) ∧
        Claims.parts s g ws ws 0 n y ybits (fun j => (fed j).2.1 % Claims.range f) ∧ Claims.flagged s g ws n fl fun j => (fed j).2.2)

/-- A block instruction that a block code stops leaves a park at the lane with the value for TVAL, and no landing (R175). -/
def Claims.parks (s : State) (f : FormA) (opcode : Nat) (p : Nat × Word) : State :=
  s.flight (vOffset 4 f.d.toNat) opcode [] (unitGroup s.curT.slot) [] (some p)

/-- The mantissa of R173 for a value under a shared exponent, with its flags: the rounded quotient held to 2^(m-1) - 1 in magnitude. -/
def Claims.mantissa (v : Val) (m e rnd w : Nat) : Int × Flags :=
  let unit : Int := (e : Int) - 127 - ((m : Int) - 1)
  let k := roundInt (v.num.scale unit) rnd w
  let held := max (-(2 ^ (m - 1) - 1)) (min (2 ^ (m - 1) - 1) k)
  if v.isNan = true ∨ v.isInf = true then (0, fNv)
  else (held, (if held = k then 0 else fNx ||| fSa) ||| (if (Q.dyadic held unit).eq v.num = true then 0 else fNx) |||
    (if held = 0 ∧ v.num.isZero = false then fUf else 0))

/-- R172 to R175: the shared exponent of a row fills d, NaN and infinite lanes raise nv; quantising packs the m-bit mantissas of the enabled lanes into
their fields of a part of d, writes no other bit and raises the flags of R173, and back; a reserved scale of 255 (lane 0), or the lowest enabled lane with
a reserved mantissa, makes the core park. -/
def Obligations.VectorBlocksComplete : Prop :=
  ∀ (g : Gate) (f : FormA) (s : State), s.iterates g = true →
    let w := Claims.width f
    let n := 256 / w
    let m := blockBits (f.func.toNat % 32)
    let part := f.func.toNat / 32
    let e := lane (s.cur.v' f.b.toNat) 1 0
    let d := Claims.drawn s f n
    let live := (List.range n).filter fun j => Claims.enabled s g w j
    let val (j : Nat) : Val := Claims.val s.cur f f.a j
    let code (j : Nat) : Nat := (s.cur.v' f.a.toNat).toNat / 2 ^ (part * n * m + j * m) % 2 ^ m
    let mant (j : Nat) : Int × Flags := Claims.mantissa (val j) m e (Claims.mode s.cur f) (d.1[j]?.getD 0)
    let back (j : Nat) : Nat × Flags := roundToFp (blockVal m (code j) e) f.type.toNat (Claims.mode s.cur f) (f.sat == 1) (d.1[j]?.getD 0)
    (∃ (x : VReg) (fl : List (Nat × Flags)),
      exec (.vbexp g f) s = .next (s.flight (vOffset 4 f.d.toNat) 0x2D [.v f.d.toNat x (BitVec.allOnes 2048)] (unitGroup s.curT.slot) fl none) ∧
      (∀ j < 256, (lane x 1 j : Int) =
        if (maxAbs (live.map fun j => (val j).num)).isZero = true then 0
        else max 0 (min 254 ((maxAbs (live.map fun j => (val j).num)).log2 + 128))) ∧
      Claims.flagged s g w n fl fun j => if (val j).isNan = true ∨ (val j).isInf = true then fNv else 0) ∧
    (e = 255 → exec (.vqb g f) s = .next (Claims.parks d.2 f 0x2E (0, BitVec.ofNat 64 (255 + 2 ^ 16))) ∧
      exec (.vdqb g f) s = .next (Claims.parks d.2 f 0x2F (0, BitVec.ofNat 64 (255 + 2 ^ 16)))) ∧
    (e ≠ 255 → 0 < m → (part + 1) * n * m ≤ 2048 →
      (∃ (x bits : VReg) (fl : List (Nat × Flags)),
        exec (.vqb g f) s = .next (d.2.flight (vOffset 4 f.d.toNat) 0x2E [.v f.d.toNat x bits] (unitGroup s.curT.slot) fl none) ∧
        (∀ j < n, if Claims.enabled s g w j = true
          then x.toNat / 2 ^ ((part * n + j) * m) % 2 ^ m = ((mant j).1 % (2 ^ m : Nat)).toNat ∧
            bits.toNat / 2 ^ ((part * n + j) * m) % 2 ^ m = 2 ^ m - 1
          else bits.toNat / 2 ^ ((part * n + j) * m) % 2 ^ m = 0) ∧
        (∀ k < 2048, k < part * n * m ∨ (part + 1) * n * m ≤ k → bits.getLsbD k = false) ∧
        Claims.flagged s g w n fl fun j => (mant j).2) ∧
      ((∀ j ∈ live, code j ≠ 2 ^ (m - 1)) →
        ∃ t, exec (.vdqb g f) s = .next t ∧ Claims.lanes d.2 t g f.d w 4 0x2F (fun j => (back j).1 % Claims.range f) (fun j => (back j).2)) ∧
      ∀ j ∈ live, code j = 2 ^ (m - 1) → (∀ i ∈ live, i < j → code i ≠ 2 ^ (m - 1)) →
        exec (.vdqb g f) s = .next (Claims.parks d.2 f 0x2F (j, BitVec.ofNat 64 (e + code j * 2 ^ 8))))

/-- R176: the MX forms. The fit fills d with the greater of lane 0 of c and the least exponent that fits the largest magnitude, held to 0 .. 254;
each element becomes a bq8 code of the exponent in lane 0 of c; both raise the flags of the enabled elements. -/
def Obligations.VectorMicroscalingComplete : Prop :=
  ∀ (g : Gate) (f : FormA) (s : State), s.iterates g = true →
    let el (j : Nat) : Q × Flags := vmxElement f (s.cur.v' f.a.toNat) (s.cur.v' f.b.toNat) j
    let amax := maxAbs (((List.range 256).filter fun j => Claims.enabled s g 1 j).map fun j => (el j).1)
    let e := lane (s.cur.v' f.c.toNat) 1 0
    (∃ (x : VReg) (fl : List (Nat × Flags)) (fit : Int),
      exec (.vmxFit g f) s = .next (s.flight (vOffset 4 f.d.toNat) 0x30 [.v f.d.toNat x (BitVec.allOnes 2048)] (unitGroup s.curT.slot) fl none) ∧
      (amax.isZero = true → fit = 0) ∧
      (amax.isZero = false → amax.le (Q.dyadic 127 (fit - 134)) = true ∧ amax.le (Q.dyadic 127 (fit - 1 - 134)) = false) ∧
      (∀ j < 256, (lane x 1 j : Int) = max 0 (min 254 (max (e : Int) fit))) ∧ Claims.flagged s g 1 256 fl fun j => (el j).2) ∧
    ∃ t, exec (.vmxCvt g f) s = .next t ∧ Claims.lanes s t g f.d 1 4 0x30
      (fun j => ((mxMant (el j).1 e).1 % 256).toNat)
      (fun j => (el j).2 ||| (mxMant (el j).1 e).2)

/-- R177 to R179: the functions of f32 lanes, the bias row, and random lanes, which always draw one block per four lanes. -/
def Obligations.VectorFunctionsComplete : Prop :=
  (∀ x ∈ ([(Instr.vexp2, 0x31, 0), (.vlog2, 0x32, 1), (.vrcp, 0x33, 2), (.vrsq, 0x34, 3)] : List ((Gate → FormA → Instr) × Nat × Nat)),
    ∀ (g : Gate) (f : FormA) (s : State), s.iterates g = true → ∃ t, exec (x.1 g f) s = .next t ∧ Claims.lanes s t g f.d 4 8 x.2.1
      (fun j => (special x.2.2 10 (lane (s.cur.v' f.a.toNat) 4 j) (Claims.mode s.cur f) (f.sat == 1)).1 % 2 ^ 32)
      (fun j => (special x.2.2 10 (lane (s.cur.v' f.a.toNat) 4 j) (Claims.mode s.cur f) (f.sat == 1)).2)) ∧
  (∀ (g : Gate) (f : FormA) (s : State), s.iterates g = true →
    let bias (j : Nat) : Val := fpToVal 8 (lane (s.cur.v' f.b.toNat) 2 ((if f.type = 10 then 64 * (f.func.toNat % 2) else 0) + j))
    ∃ t, exec (.vbias g f) s = .next t ∧ Claims.lanes s t g f.d (Claims.width f) 4 0x35
      (fun j => (if bias j = .inf true then signBit f.type.toNat true + infBits f.type.toNat
        else (Claims.rounded s.cur f (addVal (Claims.val s.cur f f.a j) (bias j) (Claims.mode s.cur f))).1) % Claims.range f)
      (fun j => if bias j = .inf true then 0
        else (Claims.rounded s.cur f (addVal (Claims.val s.cur f f.a j) (bias j) (Claims.mode s.cur f))).2)) ∧
  ∀ (g : Gate) (f : FormA) (s : State), s.iterates g = true →
    let drawn (j : Nat) : Nat := (s.draw 64).1[j]?.getD 0
    let part (j : Nat) : Nat × Flags := roundToFp (Val.ofQ (Q.dyadic (drawn j / 2 ^ 8 : Nat) (-24)) false) 10 0 false 0
    ∃ t, exec (.vrng g f) s = .next t ∧ Claims.lanes (s.draw 64).2 t g f.d 4 4 0x36
      (fun j => (if f.type = 6 then drawn j else (part j).1) % 2 ^ 32) (fun j => if f.type = 6 then 0 else (part j).2)

/-- The mask that a field names: a k register or a predicate (R181). -/
def Claims.mask (c : Core) (isK : Bool) (n : BitVec 6) : Mask := if isK then c.k' n.toNat else c.pv' n.toNat
/-- A mask instruction writes the bits that its guard enables, two ticks later. -/
def Claims.masks (i : Gate → FormA → Instr) (op : Mask → Mask → Mask) : Prop :=
  ∀ (g : Gate) (f : FormA) (s : State), s.iterates g = true →
    let x := op (Claims.mask s.cur (fbit f.func 1) f.a) (Claims.mask s.cur (fbit f.func 0) f.b)
    exec (i g f) s = .next (s.fly 2 [if fbit f.func 2 then .k f.d.toNat x (s.cur.pv' g.guard.toNat)
      else .pv f.d.toNat x (s.cur.pv' g.guard.toNat)])

/-- R181: logic of lane masks bit by bit; KPOP and KFIRST count and find the set bits that the guard enables. -/
def Obligations.MasksComplete : Prop :=
  Claims.masks .kand (· &&& ·) ∧ Claims.masks .kor (· ||| ·) ∧ Claims.masks .kxor (· ^^^ ·) ∧ Claims.masks .knot (fun a _ => ~~~a) ∧
  ∀ (g : Gate) (f : FormA) (s : State), s.iterates g = true →
    let m := Claims.mask s.cur (fbit f.func 1) f.a &&& s.cur.pv' g.guard.toNat
    exec (.kpop g f) s = .next (s.fly (vOffset 3 f.d.toNat) [.v f.d.toNat
      (BitVec.ofNat 2048 ((List.range 256).filter fun j => m.getLsbD j).length) (BitVec.allOnes 2048)]) ∧
    ∃ x : Nat, exec (.kfirst g f) s = .next (s.fly (vOffset 3 f.d.toNat) [.v f.d.toNat (BitVec.ofNat 2048 x) (BitVec.allOnes 2048)]) ∧
      x ≤ 256 ∧ (∀ j < x, m.getLsbD j = false) ∧ (x < 256 → m.getLsbD x = true)

/-! ## The matrix engine -/

/-- A pair of lines of the core store read for a command: its period, its address and its index (R193). -/
def Claims.readsPair (s t : State) (scale : Bool) (offset a u : Nat) : Prop :=
  ∃ x ∈ t.accesses, x.due = s.clk + offset ∧ x.cell = s.curT.cell ∧ x.space = 0 ∧ x.kind = .matrix s.nextId scale ∧
    x.lines = [{ address := a, len := 64, lane := u }, { address := a + 64, len := 64, lane := u }]

/-- A command that has begun on the executing core: what it is and when it ends; registers and memory stay as they are. -/
def Claims.began (s t : State) (k : MatrixCommand → Prop) : Prop :=
  (∃ x, (Claims.core s t).mtx.cmds = s.cur.mtx.cmds ++ [x] ∧ k x) ∧ (Claims.core s t).regs = s.cur.regs ∧ t.mem = s.mem

/-- R193, R194, R199, R205, R206: a load that passes its checks keeps the shadow busy until its end, reads its pairs one per tick, charges
one unit per pair and class, and ends with the plane of its record. -/
def Claims.matrixLoads : Prop :=
  (∀ (g : Gate) (f : FormE) (s : State), s.issues g = true → s.matrixFault (.mlds g f) = none →
    let r := s.cur.mtx.record f
    let block := if isBlockType (recStype r) then 1 else 0
    let pairs := if isBlockType (recStype r) then 16 * blockBits (recStype r) else 128
    let a := (s.cur.s' f.f1.toNat).toNat
    ∃ t, exec (.mlds g f) s = .next t ∧
      Claims.began s t (fun k => k.ends = s.clk + (2 + block + pairs + 4) ∧ k.kind = .load false (fbit f.func 2) ∧ k.record = r) ∧
      (Claims.core s t).mtx.clears[4]?.getD 0 = s.clk + (2 + block + pairs + 4) ∧
      (Claims.core s t).mtx.bucket = s.cur.mtx.bucket - BitVec.ofNat 64 ((f.func.toNat % 4 + 1) * pairs) ∧
      ∀ u < pairs, Claims.readsPair s t false (2 + block + u) (a + 128 * u) u) ∧
  ∀ (g : Gate) (f : FormE) (s : State), s.issues g = true → s.matrixFault (.mldst g f) = none →
    let r := s.cur.mtx.record f
    let pairs := if recMx r = 0 then 64 else 128
    let a := (s.cur.s' f.f1.toNat).toNat
    let b := (s.cur.s' f.f2.toNat).toNat
    ∃ t, exec (.mldst g f) s = .next t ∧
      Claims.began s t (fun k => k.ends = s.clk + (6 + pairs + 8) ∧ k.kind = .load true (fbit f.func 2) ∧ k.record = r) ∧
      (Claims.core s t).mtx.clears[4]?.getD 0 = s.clk + (6 + pairs + 8) ∧
      (Claims.core s t).mtx.bucket = s.cur.mtx.bucket - BitVec.ofNat 64 ((f.func.toNat % 4 + 1) * pairs) ∧
      (∀ u < pairs, Claims.readsPair s t false (6 + u) (a + 128 * u) u) ∧ ∀ u < 4, Claims.readsPair s t true (2 + u) (b + 128 * u) u

/-- R193, R194, R199, R202, R208, R209: a product that passes its checks keeps the array busy for its ticks and its tile for 24 or 32 more, on every
member of a gang product alike, and streams its pairs. -/
def Claims.product (i : Gate → FormE → Instr) (tail : Nat) (kind : State → FormE → MatrixKind) : Prop :=
  ∀ (g : Gate) (f : FormE) (s : State), s.issues g = true → s.matrixFault (i g f) = none → f.f1.toNat < 4 →
    let r := s.cur.mtx.record f
    let xt := recXtype r
    let n := (s.cur.s' f.f3.toNat).toNat
    let block := if isBlockType xt then 1 else 0
    let array := 2 + block + productTicks xt n + (if fbit f.func 2 then 2 else 0)
    let cells := s.curT.cell :: (if fbit f.func 2 then (s.gangPeers s.curT.cell).map (·.1) else [])
    let a := (s.cur.s' f.f2.toNat).toNat
    ∃ t, exec (i g f) s = .next t ∧
      Claims.began s t (fun k => k.ends = s.clk + (array + tail) ∧ k.kind = kind s f ∧ k.record = r ∧
        k.planes = cells.map fun x => (x, (s.core x).mtx.active)) ∧
      (∀ x ∈ cells, (t.core x).mtx.clears[5]?.getD 0 = s.clk + array) ∧
      (∀ x ∈ cells, (t.core x).mtx.clears[f.f1.toNat]?.getD 0 = s.clk + (array + tail)) ∧
      (Claims.core s t).mtx.bucket = s.cur.mtx.bucket -
        BitVec.ofNat 64 ((max (f.func.toNat % 4) (minClass xt) + 1) * productTicks xt n * cells.length) ∧
      ∀ u < productPairs xt n, Claims.readsPair s t false (2 + block + u) (a + 128 * u) u

def Claims.matrixProducts : Prop :=
  Claims.product .mmul 24 (fun s f => .product f.f1.toNat (s.cur.s' f.f3.toNat).toNat (fbit f.func 3)) ∧
  Claims.product .mmul64 32 (fun s f => .product64 f.f1.toNat (s.cur.s' f.f3.toNat).toNat
    (if f.func.toNat / 16 % 8 = 6 then s.cur.ctl.rnd else f.func.toNat / 16 % 8) (fbit f.func 3))

/-- The command `k` alone of its core ends now, and no fault has abandoned it (R194). -/
def Claims.endsNow (s : State) (cell : Nat) (k : MatrixCommand) : Prop :=
  (s.core cell).mtx.cmds.filter (fun k => decide (k.ends ≤ s.clk)) = [k] ∧ k.abandoned = false

/-- The step that ends the commands of a core changes neither memory nor the registers of any core. -/
def Claims.commandEnd (s : State) (cell : Nat) (p : State → Prop) : Prop :=
  ∃ t, exec (.matrixCommandEnd cell) s = .next t ∧ t.mem = s.mem ∧ (∀ c, (t.core c).regs = (s.core c).regs) ∧ p t

/-- The flags of a command (R39, R196, R218): raised over those of the matrix engine, and when one of them is enabled the trap of cause 19
follows, with the flags and the opcode. Its lane is the model's choice (log entry 55). -/
def Claims.raises (s t : State) (cell : Nat) (k : MatrixCommand) (raised : Nat → Prop) : Prop :=
  ∃ u : Flags, (∀ b < 8, u.getLsbD b = true ↔ raised b) ∧ (t.core cell).ctl.mx = (s.core cell).ctl.mx ||| u ∧
    (t.core cell).faults = (s.core cell).faults ++ (if u &&& (s.core cell).ctl.mxe = 0 then [] else
      [{ issued := k.issued, act := .trap,
         info := { cause := 19, slot := 1, lane := 0, pc := k.pc, val := BitVec.ofNat 64 (u.toNat + k.opcode % 128 * 2 ^ 8) } }])

/-- A reserved block code parks the core (R197): its fault is noted and no plane or tile changes. -/
def Claims.codeParks (s t : State) (cell : Nat) (k : MatrixCommand) : Prop :=
  (∀ c, (t.core c).mtx.z = (s.core c).mtx.z ∧ (t.core c).mtx.active = (s.core c).mtx.active ∧ (t.core c).mtx.shadow = (s.core c).mtx.shadow) ∧
  ∃ i : FaultInfo, (t.core cell).faults = (s.core cell).faults ++ [{ issued := k.issued, act := .park, info := i }] ∧ i.cause = 240 ∧
    i.slot = 1 ∧ i.pc = k.pc

/-- Element `k` of a row of elements of `w` bytes, a row taking 128 bytes (R184, R186). -/
def Claims.element (x : Memory) (w row k : Nat) : Nat := x.num (128 * row) 128 / 2 ^ (8 * w * k) % 2 ^ (8 * w)

/-- Code `k` of a row of a block tensor of 128 columns: `m`-bit codes, row by row in square tiles of edge `t` (R47, R184, R186). -/
def Claims.code (x : Memory) (m t row k : Nat) : Nat :=
  x.num (((row / t * (128 / t) + k / t) * t * t + row % t * t) * m / 8) (t * m / 8) / 2 ^ (k % t * m) % 2 ^ m

/-- The partial of a block of products whose exponent is `e` (R56): special, or the integer P with P × 2^e their sum. -/
def Claims.blockSum (e : Int) (xs : List (Val × Val)) : Partial × Flags :=
  let ps := xs.map fun x => mulVal x.1 x.2
  let up := ps.any fun p => p.isInf && !p.sign
  let down := ps.any fun p => p.isInf && p.sign
  let sum := (ps.foldl (fun (a : Q) p => a.add p.num) ⟨0, 1⟩).scale e
  if ps.any Val.isNan = true ∨ (up = true ∧ down = true) then (.nan, fNv)
  else if up = true ∨ down = true then (.inf down, 0)
  else (.num (sum.num / sum.den), 0)

/-- The partials of output element (i, j) in ascending k, with their exponents and flags: in block mode those of R55, else those of R56. -/
def Claims.partials (p : Plane) (k : MatrixCommand) (i j : Nat) : List (Partial × Int × Flags) :=
  let st := recStype k.record
  let xt := recXtype k.record
  if isBlockType st = true then
    let t := blockEdge st
    let n := 128 / t
    let ma := blockBits st
    let mb := blockBits xt
    (List.range n).map fun q =>
      let ea : Int := (p.scales.get (i / t * n + q)).toNat
      let eb : Int := (k.scales.get (j / t * n + q)).toNat
      let products := (List.range t).map fun r =>
        mantOf ma (Claims.code p.elems ma t i (q * t + r)) * mantOf mb (Claims.code k.elems mb t j (q * t + r))
      (.num (products.foldl (· + ·) 0), ea + eb - 254 - (ma - 1) - (mb - 1), 0)
  else
    let w := typeBytes st
    let b := if st = 12 ∨ st = 13 then 16 else 8
    let e : Int := if st = 8 then -48 else if st = 9 then -266 else if st = 12 ∧ xt = 12 then -18 else if st = 13 ∧ xt = 13 then -32 else -25
    (List.range (128 / w / b)).map fun q =>
      let r := Claims.blockSum e ((List.range b).map fun r =>
        (fpToVal st (Claims.element p.elems w i (q * b + r)), fpToVal xt (Claims.element k.elems w j (q * b + r))))
      (r.1, e, r.2)

/-- Output element (i, j) of MMUL over what its container held, with its flags (R57, R208). -/
def Claims.accumulated (ovr : Bool) (p : Plane) (k : MatrixCommand) (old : Word) (i j : Nat) : Word × Flags :=
  let start := if ovr then Acc.zero false else Acc.ofBits old.toNat
  let r := (Claims.partials p k i j).foldl (fun (x : Acc × Flags) q =>
    let y := accAdd x.1 q.1 q.2.1
    (y.1, x.2 ||| y.2 ||| q.2.2)) (start, 0)
  (BitVec.ofNat 64 r.1.toBits, r.2)

/-- Output element (i, j) of MMUL64 over what its container held, with its flags (R58, R209). -/
def Claims.chained (ovr : Bool) (rnd : Nat) (p : Plane) (k : MatrixCommand) (old : Word) (i j : Nat) : Word × Flags :=
  let a (q : Nat) : Val := fpToVal 11 (Claims.element p.elems 8 i q)
  let b (q : Nat) : Val := fpToVal 11 (Claims.element k.elems 8 j q)
  let step (x : Nat × Flags) (q : Nat) : Nat × Flags :=
    let y := roundTo (fmaVal (a q) (b q) (fpToVal 11 x.1) rnd) 11 rnd false 0
    (y.1, x.2 ||| y.2)
  let r := if ovr then (List.range' 1 15).foldl step (roundTo (mulVal (a 0) (b 0)) 11 rnd false 0)
    else (List.range 16).foldl step (old.toNat, 0)
  (BitVec.ofNat 64 r.1, r.2)

/-- A product's rows in the tile of each of its members: the first `n` take their values, the others and the other tiles stay. -/
def Claims.rowsTake (s t : State) (k : MatrixCommand) (tile n : Nat) (v : Plane → Word → Nat → Nat → Word × Flags) : Prop :=
  ∀ p ∈ k.planes,
    let old := (s.core p.1).mtx.tile tile
    let new := (t.core p.1).mtx.tile tile
    new.f64 = old.f64 ∧ (∀ j < n, ∀ i < 128, new.at' j i = (v p.2 (old.at' j i) i j).1) ∧ (∀ j i, n ≤ j → i < 128 → new.at' j i = old.at' j i) ∧
    ∀ x, x ≠ tile → (t.core p.1).mtx.tile x = (s.core p.1).mtx.tile x

/-- The end of a product of a kind (R202, R208, R209): every member's rows take their values, and the issuing core the flags of all. -/
def Claims.productEnds (s : State) (cell : Nat) (k : MatrixCommand) (tile n : Nat) (v : Plane → Word → Nat → Nat → Word × Flags) : Prop :=
  Claims.commandEnd s cell fun t => Claims.rowsTake s t k tile n v ∧ Claims.raises s t cell k fun b =>
    ∃ p ∈ k.planes, ∃ j < n, ∃ i < 128, (v p.2 (((s.core p.1).mtx.tile tile).at' j i) i j).2.getLsbD b = true

/-- R46, R48: no scale of the first `tiles` tiles and no code of the first `rows` rows of a block tensor is reserved. -/
def Claims.unreserved (k : MatrixCommand) (type tiles rows : Nat) : Prop :=
  (∀ x < tiles, (k.scales.get x).toNat ≠ 255) ∧
  ∀ j < rows, ∀ r < 128, Claims.code k.elems (blockBits type) (blockEdge type) j r ≠ 2 ^ (blockBits type - 1)

/-- R55 to R58, R194, R196 to R198, R202, R208, R209: the end of a product of planes of its record's stationary type whose residue checks
hold. A block product that read a reserved code parks its core and writes nothing. -/
def Claims.productsEnd : Prop :=
  ∀ (cell tile n : Nat) (ovr : Bool) (k : MatrixCommand) (s : State), Claims.endsNow s cell k → recordOk k.record = true → tile < 4 →
    (k.planes.map (·.1)).Nodup → (∀ p ∈ k.planes, p.2.stype = recStype k.record ∧ (s.core p.1).mtx.badCols = 0) →
      let xt := recXtype k.record
      let tiles := (n + blockEdge xt - 1) / blockEdge xt * (128 / blockEdge xt)
      (k.kind = .product tile n ovr → recStype k.record ≠ 11 → (isBlockType xt = true → Claims.unreserved k xt tiles n) →
        Claims.productEnds s cell k tile n fun p => Claims.accumulated ovr p k) ∧
      (k.kind = .product tile n ovr → isBlockType xt = true → ¬Claims.unreserved k xt tiles n →
        Claims.commandEnd s cell fun t => Claims.codeParks s t cell k) ∧
      ∀ rnd, k.kind = .product64 tile n rnd ovr → recStype k.record = 11 → Claims.productEnds s cell k tile n fun p => Claims.chained ovr rnd p k

/-- The shadow plane holds what a load brought, valid under its type; tiles and the active plane stay. -/
def Claims.fillsShadow (s t : State) (cell st : Nat) (p : Plane → Prop) : Prop :=
  (t.core cell).mtx.z = (s.core cell).mtx.z ∧ (t.core cell).mtx.active = (s.core cell).mtx.active ∧
    (t.core cell).mtx.shadow.valid = true ∧ (t.core cell).mtx.shadow.stype = st ∧ p (t.core cell).mtx.shadow

/-- The MX element at a source row and column with its flags (R50, R206): E2M1 codes two to a byte, the low one first, four scales a row. -/
def Claims.mxSource (k : MatrixCommand) (row col : Nat) : Q × Flags :=
  let j := 128 * row + col
  let code := if recMx k.record = 0 then (k.elems.get (j / 2)).toNat / (if j % 2 = 0 then 1 else 16) % 16 else (k.elems.get j).toNat
  mxValue (recMx k.record) code (k.scales.get (4 * row + col / 32)).toNat

/-- R184, R194, R196, R197, R205, R206: the end of a load. Without tr the shadow plane holds the source as read; with tr, element (i, k) is
source element (k, i), and a block tile keeps its scale. MX data become a bq8 plane, each tile under the exponent that R50 gives it. A
reserved code of a block source parks the core. -/
def Claims.loadsEnd : Prop :=
  ∀ (cell : Nat) (tr : Bool) (k : MatrixCommand) (s : State), Claims.endsNow s cell k → recordOk k.record = true →
    let st := recStype k.record
    let w := typeBytes st
    let e := blockEdge st
    let n := 128 / e
    let m := blockBits st
    (k.kind = .load false tr → isBlockType st = false → Claims.commandEnd s cell fun t => Claims.fillsShadow s t cell st fun p =>
      ∀ i < 128, ∀ r < 128 / w, Claims.element p.elems w i r =
        if tr then k.elems.num ((128 * r + i) * w) w % 2 ^ (8 * w) else Claims.element k.elems w i r) ∧
    (k.kind = .load false tr → isBlockType st = true → Claims.unreserved k st (n * n) 128 → Claims.commandEnd s cell fun t =>
      Claims.fillsShadow s t cell st fun p =>
        (∀ i < 128, ∀ r < 128, Claims.code p.elems m e i r = if tr then Claims.code k.elems m e r i else Claims.code k.elems m e i r) ∧
        ∀ a < n, ∀ b < n, p.scales.get (a * n + b) = if tr then k.scales.get (b * n + a) else k.scales.get (a * n + b)) ∧
    (k.kind = .load false tr → isBlockType st = true → ¬Claims.unreserved k st (n * n) 128 →
      Claims.commandEnd s cell fun t => Claims.codeParks s t cell k) ∧
    (k.kind = .load true tr → st = 22 ∨ st = 30 →
      let source (i r : Nat) : Q × Flags := if tr then Claims.mxSource k r i else Claims.mxSource k i r
      let exponent (a b : Nat) : Nat := mxExp ((List.range (e * e)).map fun x => (source (a * e + x / e) (b * e + x % e)).1)
      Claims.commandEnd s cell fun t => (Claims.fillsShadow s t cell st fun p =>
        (∀ i < 128, ∀ r < 128, Claims.code p.elems 8 e i r = ((mxMant (source i r).1 (exponent (i / e) (r / e))).1 % 256).toNat) ∧
        ∀ a < n, ∀ b < n, p.scales.get (a * n + b) = BitVec.ofNat 8 (exponent a b)) ∧
        Claims.raises s t cell k fun b => ∃ i < 128, ∃ r < 128,
          ((source i r).2 ||| (mxMant (source i r).1 (exponent (i / e) (r / e))).2).getLsbD b = true)

/-- One container scaled by 2^n, with its flags (R214). -/
def Claims.scaled (f64 : Bool) (n : Int) (rnd : Nat) (x : Word) : Word × Flags :=
  let a := Acc.ofBits x.toNat
  let e := (a.e : Int) + n
  let low := roundShift a.s (-e).toNat
  let sticky := a.sticky || decide (low * 2 ^ (-e).toNat ≠ a.s)
  if f64 = true then
    let r := roundTo (match fpToVal 11 x.toNat with | .fin q => .fin (q.mul (Q.dyadic 1 n)) | v => v) 11 rnd false 0
    (BitVec.ofNat 64 r.1, r.2)
  else if a.cls ≠ 0 ∨ a.s = 0 then (x, 0)
  else if 4095 < e then (BitVec.ofNat 64 (Acc.inf (decide (a.s < 0)) true).toBits, fOf ||| fNx)
  else if e < 0 then (BitVec.ofNat 64 (if low = 0 then Acc.zero sticky else ⟨low, 0, 0, sticky⟩).toBits, 0)
  else (BitVec.ofNat 64 ({ a with e := e.toNat } : Acc).toBits, 0)

/-- R210, R214: the ends of MZERO, which leaves its tile in the mode it names with every container zero, and of MSCL, which scales every
container. -/
def Claims.tileEnds : Prop :=
  (∀ (cell tile : Nat) (f64 : Bool) (k : MatrixCommand) (s : State), Claims.endsNow s cell k → k.kind = .zero tile f64 →
    Claims.commandEnd s cell fun t => (t.core cell).mtx =
      { (s.core cell).mtx with cmds := (s.core cell).mtx.cmds.filter fun k => !decide (k.ends ≤ s.clk) }.setTile tile
        { f64, fill := if f64 then 0 else 1, cells := [] }) ∧
  ∀ (cell tile : Nat) (n : Int) (rnd : Nat) (k : MatrixCommand) (s : State), Claims.endsNow s cell k → k.kind = .scale tile n rnd → tile < 4 →
    let old := (s.core cell).mtx.tile tile
    Claims.commandEnd s cell fun t =>
      ((t.core cell).mtx.tile tile).f64 = old.f64 ∧
      (∀ r < 256, ∀ c < 128, ((t.core cell).mtx.tile tile).at' r c = (Claims.scaled old.f64 n rnd (old.at' r c)).1) ∧
      (∀ x, x ≠ tile → (t.core cell).mtx.tile x = (s.core cell).mtx.tile x) ∧
      Claims.raises s t cell k fun b => ∃ r < 256, ∃ c < 128, (Claims.scaled old.f64 n rnd (old.at' r c)).2.getLsbD b = true

/-- R190 to R209: loads of the stationary planes and products complete when no check of theirs fails, and what they leave at their ends. -/
def Obligations.MatrixProductsComplete : Prop :=
  Claims.matrixLoads ∧ Claims.matrixProducts ∧ Claims.productsEnd ∧ Claims.loadsEnd

/-- R190, R207, R210 to R216: the other commands, when no check of theirs fails: the exchange of the planes, zeroing and scaling of a tile in
16 ticks with what they leave in it, its rows read into lanes and written from lanes, its check in 130 ticks, the gang mask, the energy rate
with its cap, and the refill of the budget. -/
def Obligations.MatrixCommandsComplete : Prop :=
  (∀ (g : Gate) (f : FormE) (s : State), s.issues g = true → s.matrixFault (.mswap g f) = none →
    exec (.mswap g f) s = .next ((s.setBusy s.curT.cell [(5, 1)]).fly 1 [.swapPlanes])) ∧
  (∀ (g : Gate) (f : FormE) (s : State), s.issues g = true → s.matrixFault (.mzero g f) = none → f.f1.toNat < 4 →
    ∃ t, exec (.mzero g f) s = .next t ∧ (Claims.core s t).mtx.clears[f.f1.toNat]?.getD 0 = s.clk + 16 ∧
      Claims.began s t (fun k => k.ends = s.clk + 16 ∧ k.kind = .zero f.f1.toNat (f.tag == 11))) ∧
  (∀ (g : Gate) (f : FormE) (s : State), s.issues g = true → s.matrixFault (.mscl g f) = none → f.f1.toNat < 4 →
    ∃ t, exec (.mscl g f) s = .next t ∧ (Claims.core s t).mtx.clears[f.f1.toNat]?.getD 0 = s.clk + 16 ∧
      Claims.began s t (fun k => k.ends = s.clk + 16 ∧ ∃ n rnd, k.kind = .scale f.f1.toNat n rnd ∧
        n = max (-8192) (min 8192 (s.cur.s' f.f2.toNat).toInt))) ∧
  (∀ (g : Gate) (f : FormE) (s : State), s.issues g = true → s.matrixFault (.mchk g f) = none →
    exec (.mchk g f) s = .next ((s.setBusy s.curT.cell [(f.f1.toNat, 130)]).fly 130
      [.s f.f2.toNat (tileCheck (s.cur.mtx.tile f.f1.toNat))])) ∧
  (∀ (g : Gate) (f : FormE) (s : State), s.issues g = true → s.matrixFault (.mgang g f) = none →
    exec (.mgang g f) s = .next (s.fly 1 [.matrixGang (f.func.toNat / 4 % 16)])) ∧
  (∀ (g : Gate) (f : FormE) (s : State), s.issues g = true →
    exec (.mec g f) s = .next (s.fly 1 (.s f.f1.toNat (s.cur.mtx.rate.setWidth 64) :: (if fbit f.func 2 then
      [.energy (BitVec.ofNat 32 (min (s.cur.s' f.f2.toNat).toNat s.cur.mtx.cap.toNat))] else [])))) ∧
  (∀ (g : Gate) (f : FormE) (s : State), s.issues g = true → s.matrixFault (.mrdz g f) = none →
    let z := s.cur.mtx.tile f.f1.toNat
    let w := typeBytes f.tag.toNat
    let n := min (256 / w) 128
    let base := if w = 1 then 128 * (f.func.toNat / 2 ^ 8 % 2) else 0
    let rnd := if f.func.toNat / 4 % 8 = 6 then s.cur.ctl.rnd else f.func.toNat / 4 % 8
    f.func.toNat / 4 % 8 ≠ 5 →
      ∃ (x bits : VReg) (fl : List (Nat × Flags)),
        exec (.mrdz g f) s = .next (s.flight 6 0x07 [.v f.f2.toNat x bits] .mx fl none) ∧
        ∀ j < 256 / w, if base ≤ j ∧ j < base + n
          then lane bits w j = 2 ^ (8 * w) - 1 ∧ lane x w j = (readContainer z.f64 f.tag.toNat rnd (fbit f.func 5)
            (z.at' (s.cur.s' f.f3.toNat).toNat (f.func.toNat / 64 % 4 * n + (j - base))) 0).1 % 2 ^ (8 * w)
          else lane bits w j = 0) ∧
  (∀ (g : Gate) (f : FormE) (s : State), s.issues g = true → s.matrixFault (.mwrz g f) = none →
    ∃ fl, exec (.mwrz g f) s = .next ((s.setBusy s.curT.cell [(f.f1.toNat, 3)]).flight 2 0x08 [.zrow f.f1.toNat
      (128 * (s.cur.s' f.f3.toNat).toNat + (if f.tag = 10 then 64 else 32) * (f.func.toNat / 4 % 4))
      (if f.tag = 10 then (List.range 64).map fun j => BitVec.ofNat 64 (writeContainer (s.cur.mtx.tile f.f1.toNat).f64 (lane (s.cur.v' f.f2.toNat) 4 j)).1
        else (List.range 32).map fun j => (s.cur.v' f.f2.toNat).extractLsb' (64 * j) 64)] .mx fl none)) ∧
  Claims.tileEnds ∧
  ∀ s : State, exec .energyRefill s = .next (s.cores.keys.foldl (fun s x => s.updMtx x fun m =>
    { m with bucket := BitVec.ofInt 64 (min (m.bucket.toInt + m.rate.toNat) (16 * m.rate.toNat)) }) s)

/-! ## The copy engine -/

/-- R222 to R225: a timed copy that passes its checks takes a channel, reads line u at its read offset and writes it at its write offset, u
ticks after the first. -/
def Claims.copies (i : Gate → FormE → Instr) (src : FormE → Nat) : Prop :=
  ∀ (g : Gate) (f : FormE) (s : State), s.issues g = true → s.copyFault (i g f) = none →
    let dst := f.func.toNat % 4
    let n := (s.cur.s' f.f3.toNat).toNat
    let a := (s.cur.s' f.f1.toNat).toNat
    let b := (s.cur.s' f.f2.toNat).toNat
    let hs (u : Nat) := hops (clusterOf s.curT.cell) (spaceCluster s.curT.cell (src f) (b + 64 * u))
    let hd (u : Nat) := hops (clusterOf s.curT.cell) (spaceCluster s.curT.cell dst (a + 64 * u))
    let read (u : Nat) : Nat := (if src f = 0 then 2 else 10 + 2 * hs u) + u
    let write (u : Nat) : Nat := (if src f = 0 then (if dst = 0 then 5 else 15 + 2 * hd u)
      else if dst = 0 then 20 + 4 * hs u else 30 + 4 * hs u + 2 * hd u) + u
    ∃ t, exec (i g f) s = .next t ∧ t.mem = s.mem ∧ (Claims.core s t).regs = s.cur.regs ∧
      (∃ x ∈ (Claims.core s t).cpy.timed, x.id = s.nextId ∧ x.issued = s.clk ∧ ∀ u < n, s.clk + write u < x.frees) ∧
      ∀ u < n, (∃ x ∈ t.accesses, x.due = s.clk + read u ∧ x.kind = .copyRead s.nextId u ∧ x.space = src f ∧
          x.lines = [{ address := b + 64 * u, len := 64, lane := u }]) ∧
        ∃ x ∈ t.accesses, x.due = s.clk + write u ∧ x.kind = .copyWrite s.nextId u ∧ x.space = dst ∧
          x.lines = [{ address := a + 64 * u, len := 64, lane := u }]

def Obligations.TimedCopiesComplete : Prop :=
  Claims.copies .cpt (fun f => f.func.toNat / 4 % 4) ∧ Claims.copies .cptx (fun _ => 2)

/-- The tagged copy `id` of the executing core, with its tag and the ends of its lines. -/
def Claims.tagged (s t : State) (tag : Nat) (lines : List (LineEnd × List LineEnd)) : Prop :=
  t.mem = s.mem ∧ (Claims.core s t).regs = s.cur.regs ∧ ∃ x ∈ (Claims.core s t).cpy.tagged, x.id = s.nextId ∧ x.tag = tag ∧ x.issued = s.clk ∧
    x.lines.map (fun l => (l.src, l.dsts)) = lines ∧ ∀ l ∈ x.lines, l.read = false ∧ l.stage = 0

/-- R220, R237 to R241: a tagged copy that passes its checks stands in the engine with its lines: global memory to the core store and back, every line to
every target, blocks dealt to the targets in turn, and discards. -/
def Claims.taggedCopies : Prop :=
  ∀ (g : Gate) (f : FormE) (s : State), s.issues g = true →
    let a := (s.cur.s' f.f1.toNat).toNat
    let b := (s.cur.s' f.f2.toNat).toNat
    let n := (s.cur.s' f.f3.toNat).toNat / 64
    let cell := s.curT.cell
    let ts := (List.range 80).filter fun p => s.cur.cpy.cmask.getLsbD p
    let block := 2 ^ (f.func.toNat % 16)
    (s.copyFault (.cph g f) = none → ∃ t, exec (.cph g f) s = .next t ∧ Claims.tagged s t f.f4.toNat
      ((List.range n).map fun u => (.global (b + 64 * u), [.core cell (a + 64 * u) notTarget]))) ∧
    (s.copyFault (.cpw g f) = none → ∃ t, exec (.cpw g f) s = .next t ∧ Claims.tagged s t f.f4.toNat
      ((List.range n).map fun u => (.core cell (b + 64 * u) notTarget, [.global (a + 64 * u)]))) ∧
    (s.copyFault (.cpm g f) = none → ∃ t, exec (.cpm g f) s = .next t ∧ Claims.tagged s t f.f4.toNat
      ((List.range n).map fun u => (.global (b + 64 * u), ts.map fun p => .core ((s.members cell)[p]?.getD cell) (a + 64 * u) p))) ∧
    (s.copyFault (.cpd g f) = none → ∃ t, exec (.cpd g f) s = .next t ∧ Claims.tagged s t f.f4.toNat
      ((List.range n).map fun u =>
        let p := ts[u / block % ts.length]?.getD 0
        (.global (b + 64 * u), [.core ((s.members cell)[p]?.getD cell) (a + u / block / ts.length * block * 64 + u % block * 64) p]))) ∧
    (s.copyFault (.cdisc g f) = none → ∃ t, exec (.cdisc g f) s = .next t ∧ Claims.tagged s t f.f4.toNat
      ((List.range (b / 64)).map fun u => (.zeros, [.global (a + 64 * u)]))) ∧
    (s.copyFault (.cpf g f) = none → ∃ t, exec (.cpf g f) s = .next t ∧ t.mem = s.mem ∧
      ∃ x ∈ (Claims.core s t).cpy.ahead, x.id = s.nextId ∧ x.address = a ∧ x.lines = b / 64)

/-- R233, R234, R238: a gather or scatter that passes its checks reads its page list a line per tick from offset 2 on. -/
def Claims.pages (s t : State) (tag list entries : Nat) (p : PageList → Prop) : Prop :=
  t.mem = s.mem ∧ (Claims.core s t).regs = s.cur.regs ∧
    (∃ x ∈ (Claims.core s t).cpy.tagged, x.id = s.nextId ∧ x.tag = tag ∧ x.lines = [] ∧ ∃ q, x.list = some q ∧ q.address = list ∧ q.entries = entries ∧ p q) ∧
    ∀ v < (list % 64 + 8 * entries + 63) / 64, ∃ x ∈ t.accesses, x.due = s.clk + (2 + v) ∧ x.kind = .pageList s.nextId ∧
      x.lines = [{ address := list / 64 * 64 + 64 * v, len := 64, lane := v }]

def Claims.pageCopies : Prop :=
  ∀ (g : Gate) (f : FormE) (s : State), s.issues g = true →
    let a := (s.cur.s' f.f1.toNat).toNat
    let b := (s.cur.s' f.f2.toNat).toNat
    let n := (s.cur.s' f.f3.toNat).toNat
    (s.copyFault (.cpg g f) = none → ∃ t, exec (.cpg g f) s = .next t ∧
      Claims.pages s t f.f4.toNat b n (fun q => q.core = a ∧ q.gather = true ∧ q.g = f.func.toNat % 16 ∧ q.zf = fbit f.func 4)) ∧
    (s.copyFault (.cps g f) = none → ∃ t, exec (.cps g f) s = .next t ∧
      Claims.pages s t f.f4.toNat a n (fun q => q.core = b ∧ q.gather = false ∧ q.g = f.func.toNat % 16))

/-- A line of a tagged copy of a core, whose tag exists, under numbers already given out. -/
def Claims.lineOf (s : State) (cell : Nat) (c : TaggedCopy) (l : CopyLine) : Prop :=
  (s.core cell).cpy.copyOfLine l.id = some c ∧ c.lines.find? (fun x => x.id == l.id) = some l ∧ c.tag < 64 ∧
    ∀ x ∈ (s.core cell).cpy.tagged, ∀ y ∈ x.lines, y.id < s.nextId

/-- One action of a line, which leaves the registers of its core as they are. -/
def Claims.acts (s : State) (cell : Nat) (l : CopyLine) (p : State → Prop) : Prop :=
  ∃ t, exec (.taggedCopyLine cell l.id) s = .next t ∧ (t.core cell).regs = (s.core cell).regs ∧ p t

/-- The line has gone from its copy. -/
def Claims.lineGone (t : State) (cell : Nat) (c : TaggedCopy) (l : CopyLine) : Prop :=
  ∀ x ∈ (t.core cell).cpy.tagged, x.id = c.id → ∀ y ∈ x.lines, y.id ≠ l.id

/-- The line stands in its copy as `f` says. -/
def Claims.lineIs (t : State) (cell : Nat) (c : TaggedCopy) (l : CopyLine) : Prop :=
  ∃ x ∈ (t.core cell).cpy.tagged, x.id = c.id ∧ l ∈ x.lines

/-- The source has been read: for every destination a line of the copy holds its data (R226, R229). -/
def Claims.lineHas (s t : State) (cell : Nat) (c : TaggedCopy) (l : CopyLine) (data : BitVec 512) : Prop :=
  t.mem = s.mem ∧ ∃ x ∈ (t.core cell).cpy.tagged, x.id = c.id ∧ ∀ d ∈ l.dsts, ∃ y ∈ x.lines, y.read = true ∧ y.data = data ∧ y.dsts = [d]

/-- The line fails (R230, R232): nothing is written, its tag takes the error, CFERR the first error and CFMASK the targets it would have filled. -/
def Claims.lineFailed (s t : State) (cell : Nat) (c : TaggedCopy) (l : CopyLine) (cause address : Nat) : Prop :=
  let e := (s.core cell).cpy
  let e' := (t.core cell).cpy
  t.mem = s.mem ∧ Claims.lineGone t cell c l ∧ (e'.tags[c.tag]?.getD Tag.reset).err = true ∧ e'.eValid = true ∧
    (e.eValid = true → e'.eMore = true ∧ e'.eTag = e.eTag ∧ e'.eCause = e.eCause ∧ e'.errA = e.errA) ∧
    (e.eValid = false → e'.eTag = c.tag ∧ e'.eCause = cause ∧ e'.errPc = c.pc.setWidth 64 ∧ e'.errA = BitVec.ofNat 64 address) ∧
    ∀ p < 80, e'.cfmask.getLsbD p = (e.cfmask.getLsbD p || l.dsts.any fun d => match d with | .core _ _ q => q == p | _ => false)

/-- R226, R228 to R230, R232, R241: what one action does for a line, at each place that it can be at. The places and the stages between
them are the model's (log entry 44). -/
def Claims.copyLines : Prop :=
  ∀ (cell : Nat) (c : TaggedCopy) (l : CopyLine) (s : State), Claims.lineOf s cell c l → l.dsts ≠ [] →
    let pa := l.physical
    let line := pa / 64 * 64
    -- zeros are there at once
    (l.read = false → l.src = .zeros → Claims.acts s cell l fun t => Claims.lineHas s t cell c l 0) ∧
    -- a source in core store waits at its side port, and is read there
    (∀ store offset position, l.read = false → l.src = .core store offset position →
      (l.stage = 0 → Claims.acts s cell l fun t => t.mem = s.mem ∧ Claims.lineIs t cell c { l with stage := 2 } ∧
        .copy cell l.id ∈ (t.sidePort store (offset / 64 % 32)).lines) ∧
      (l.stage = 2 → s.pkg.poison.contains (coreStoreBase store + offset) = true →
        Claims.acts s cell l fun t => Claims.lineFailed s t cell c l 380 offset) ∧
      (l.stage = 2 → s.pkg.poison.contains (coreStoreBase store + offset) = false → Claims.acts s cell l fun t =>
        Claims.lineHas s t cell c l (BitVec.ofNat 512 (s.mem.num (coreStoreBase store + offset) 64)))) ∧
    -- a destination in core store, alike: a multicast target may refuse the line
    (∀ store offset position rest, l.read = true → l.dsts = .core store offset position :: rest →
      (l.stage = 0 ∨ l.stage = 4 → Claims.acts s cell l fun t => t.mem = s.mem ∧ Claims.lineIs t cell c { l with stage := 3 } ∧
        .copy cell l.id ∈ (t.sidePort store (offset / 64 % 32)).lines) ∧
      (l.stage = 3 → position < 80 → s.refusesLine store offset = true →
        Claims.acts s cell l fun t => Claims.lineFailed s t cell c l 278 offset) ∧
      (l.stage = 3 → (80 ≤ position ∨ s.refusesLine store offset = false) → Claims.acts s cell l fun t =>
        t.mem = s.mem.putNum (coreStoreBase store + offset) l.bytes l.data.toNat ∧ Claims.lineGone t cell c l)) ∧
    -- a global address is translated, then the line sets out for its point
    ∀ va, (if l.read then l.dsts.head? else some l.src) = some (.global va) →
      let known := s.translateNow (plateOf cell) (s.core cell).ctx va l.read false
      (l.stage = 0 → ∀ cause, known = some (.error cause) → Claims.acts s cell l fun t => Claims.lineFailed s t cell c l cause va) ∧
      (l.stage = 0 → known = none → Claims.acts s cell l fun t => t.mem = s.mem ∧ ∃ w, t.walks.get? s.nextId = some w ∧
        w.plate = plateOf cell ∧ w.ctx = (s.core cell).ctx ∧ w.va = va ∧ w.write = l.read ∧ w.user = .line cell l.id) ∧
      (l.stage = 0 → ∀ a, known = some (.ok a) →
        (l.discard = true ∨ inHbm a = false ∨ stackPlate a ≠ plateOf cell → Claims.acts s cell l fun t => t.mem = s.mem ∧
          Claims.lineIs t cell c { l with stage := 4, physical := a } ∧ ∃ p : Packet, t.packets.get? s.nextId = some p ∧
          p.dest = pointRouter a ∧ p.item = .op (.taggedCopyLine cell l.id)) ∧
        (l.discard = false → inHbm a = true → stackPlate a = plateOf cell → stackPlate a < 4 → Claims.acts s cell l fun t =>
          t.mem = s.mem ∧ Claims.lineIs t cell c { l with stage := 1, physical := a } ∧ (a, cell, l.id) ∈ (t.plate (stackPlate a)).bursts)) ∧
      (l.stage = 4 → Claims.acts s cell l fun t => t.mem = s.mem ∧ Claims.lineIs t cell c { l with stage := 1 } ∧
        (inHbm pa = true → l.discard = false → stackPlate pa < 4 → (pa, cell, l.id) ∈ (t.plate (stackPlate pa)).bursts) ∧
        (inStoreStep pa = true → .copy cell l.id ∈ (t.sidePort (storeCell pa) (pa / 64 % 32)).lines)) ∧
      -- there it performs, at a slice in its turn
      (l.stage = 1 →
        let k := sliceOf line
        let slice := inHbm line || inHost line
        let dirties := l.read && l.discard && s.discardWrites c.id line (c.fallen.contains k)
        let waits := slice && s.sliceHolds k (.line cell l.id) line l.read dirties
        (waits = true → Claims.acts s cell l fun t => t.mem = s.mem ∧ (t.core cell).cpy = (s.core cell).cpy ∧
          .line cell l.id ∈ (t.slice k).waiting) ∧
        (waits = false → l.read = false → s.linePoisoned line = true → Claims.acts s cell l fun t => Claims.lineFailed s t cell c l 380 va) ∧
        (waits = false → l.read = false → s.linePoisoned line = false →
          Claims.acts s cell l fun t => Claims.lineHas s t cell c l (BitVec.ofNat 512 (s.mem.num line 64))) ∧
        (waits = false → l.read = true → Claims.acts s cell l fun t => Claims.lineGone t cell c l ∧
          t.mem = s.mem.putNum line 64 (if l.discard then 0 else l.data.toNat)))

/-- R226, R229 to R241: tagged copies, prefetches, discards, gathers and scatters that pass their checks complete, and the actions of
their lines. -/
def Obligations.TaggedCopiesComplete : Prop := Claims.taggedCopies ∧ Claims.pageCopies ∧ Claims.copyLines

/-- The tags of a set are observed: they are no longer armed and hold no slot; the result lands one tick later in an s register. -/
def Claims.observed (s t : State) (set : Word) (d : BitVec 6) (result : Word) : Prop :=
  t.mem = s.mem ∧ (Claims.core s t).regs = s.cur.regs ∧
    (∀ n < 64, set.getLsbD n = true → ((Claims.core s t).cpy.tags[n]?.getD Tag.reset).armed = false ∧
      ((Claims.core s t).cpy.tags[n]?.getD Tag.reset).slots = 0) ∧
    (∀ n < 64, set.getLsbD n = false → (Claims.core s t).cpy.tags[n]? = s.cur.cpy.tags[n]?) ∧
    ∃ x ∈ (Claims.core s t).flights, x.due = s.clk + 1 ∧ x.landings = [.s d.toNat result]

/-- R242 to R245: a tag wait whose wait is over, and which observes no error while ETRAP is set, frees the slots of the tags it observes and
lands its result; CTAGS reads one of the four vectors; CCANCEL marks every tag of the mask that has copies in flight, and leaves of a copy only
lines in flight at a slice or a side port. -/
def Obligations.TagWaitsComplete : Prop :=
  (∀ (g : Gate) (f : FormE) (s : State), s.issues g = true →
    let mask := s.cur.s' f.f2.toNat
    (s.tagFault (.cwany g f) mask = none → ∃ t, exec (.cwany g f) s = .next t ∧
      Claims.observed s t (s.observedSet (.cwany g f) mask) f.f1 (s.observedSet (.cwany g f) mask)) ∧
    (s.tagFault (.cwall g f) mask = none → ∃ t, exec (.cwall g f) s = .next t ∧
      Claims.observed s t (s.observedSet (.cwall g f) mask) f.f1 (packTags s.cur.cpy.tags (·.err) &&& mask)) ∧
    (s.tagFault (.cfirst g f) mask = none → ∃ t, exec (.cfirst g f) s = .next t ∧
      Claims.observed s t (s.observedSet (.cfirst g f) mask) f.f1
        (BitVec.ofNat 64 (((List.range 64).find? fun t => (s.observedSet (.cfirst g f) mask).getLsbD t).getD 64)))) ∧
  (∀ (g : Gate) (f : FormE) (s : State), s.issues g = true →
    let v := packTags s.cur.cpy.tags fun t => match f.func.toNat % 4 with
      | 0 => t.done
      | 1 => t.armed
      | 2 => t.err
      | _ => t.cxl
    exec (.ctags g f) s = .next (s.fly 1 (.s f.f1.toNat (v &&& s.cur.s' f.f2.toNat) ::
      (if fbit f.func 2 then [.tagClear (f.func.toNat % 4) (s.cur.s' f.f2.toNat)] else [])))) ∧
  ∀ (g : Gate) (f : FormE) (s : State), s.issues g = true → ∃ t, exec (.ccancel g f) s = .next t ∧ t.mem = s.mem ∧
    (Claims.core s t).regs = s.cur.regs ∧
    (∀ x ∈ (Claims.core s t).cpy.tagged, (s.cur.s' f.f2.toNat).getLsbD x.tag = true →
      x.coll = true ∨ (x.lines ≠ [] ∧ ∀ l ∈ x.lines, l.stage ≠ 0 ∧ l.stage ≠ 4 ∧ l.discard = false)) ∧
    ∀ n < 64, (s.cur.s' f.f2.toNat).getLsbD n = true → (s.cur.cpy.tags[n]?.getD Tag.reset).count ≠ 0 →
      ((Claims.core s t).cpy.tags[n]?.getD Tag.reset).cxl = true

/-! ## Barrel threads -/

/-- A thread instruction completes as a simple one: its value lands in d seven periods later and the thread goes on at the next word, ready one
period after that (R287, R305). -/
def Claims.lands (i : Instr) (v : State → Word) : Prop := ∀ s : State, exec i s = .next (s.simple [.reg s.curB.word.d.toNat (v s)])

/-- A result at both widths: func[0] makes it a 32-bit one, extended by its sign or with zeros. -/
def Claims.sized (zext : Bool) (op : (n : Nat) → BitVec n → BitVec n → BitVec n) (s : State) : Word :=
  if fbit s.curB.word.imm 0 then
    (if zext then (op 32 (s.xa.setWidth 32) (s.xb.setWidth 32)).setWidth 64 else (op 32 (s.xa.setWidth 32) (s.xb.setWidth 32)).signExtend 64)
  else op 64 s.xa s.xb

/-- R305: sums, products, logic, shifts by the operand modulo the width, comparisons, counts, extensions and constants of a thread. -/
def Obligations.BarrelIntegersComplete : Prop :=
  Claims.lands .barrelAdd (Claims.sized false fun _ a b => a + b) ∧ Claims.lands .barrelSub (Claims.sized false fun _ a b => a - b) ∧
  Claims.lands .barrelMul (Claims.sized false fun _ a b => a * b) ∧
  Claims.lands .barrelMulh (Claims.sized false fun n a b => BitVec.ofInt n (a.toInt * b.toInt / 2 ^ n)) ∧
  Claims.lands .barrelMulhn (Claims.sized true fun n a b => BitVec.ofNat n (a.toNat * b.toNat / 2 ^ n)) ∧
  Claims.lands .barrelShl (Claims.sized false fun n a b => a <<< (b.toNat % n)) ∧
  Claims.lands .barrelShr (Claims.sized true fun n a b => a >>> (b.toNat % n)) ∧
  Claims.lands .barrelSar (Claims.sized false fun n a b => a.sshiftRight (b.toNat % n)) ∧
  Claims.lands .barrelClz (Claims.sized false fun n a _ => BitVec.ofNat n (if a = 0 then n else n - 1 - Nat.log2 a.toNat)) ∧
  Claims.lands .barrelPopc (Claims.sized false fun n a _ => BitVec.ofNat n (((List.range n).filter fun j => a.getLsbD j).length)) ∧
  Claims.lands .barrelAnd (fun s => s.xa &&& s.xb) ∧ Claims.lands .barrelOr (fun s => s.xa ||| s.xb) ∧
  Claims.lands .barrelXor (fun s => s.xa ^^^ s.xb) ∧ Claims.lands .slt (fun s => if s.xa.toInt < s.xb.toInt then 1 else 0) ∧
  Claims.lands .sltn (fun s => if s.xa.toNat < s.xb.toNat then 1 else 0) ∧
  Claims.lands .barrelAddi (fun s => s.xa + s.curB.word.imm.signExtend 64) ∧ Claims.lands .andi (fun s => s.xa &&& s.curB.word.imm.signExtend 64) ∧
  Claims.lands .ori (fun s => s.xa ||| s.curB.word.imm.signExtend 64) ∧ Claims.lands .xori (fun s => s.xa ^^^ s.curB.word.imm.signExtend 64) ∧
  Claims.lands .slti (fun s => if s.xa.toInt < s.curB.word.imm.toInt then 1 else 0) ∧
  Claims.lands .shli (fun s => s.xa <<< (s.curB.word.imm.toNat % 64)) ∧ Claims.lands .shri (fun s => s.xa >>> (s.curB.word.imm.toNat % 64)) ∧
  Claims.lands .sari (fun s => s.xa.sshiftRight (s.curB.word.imm.toNat % 64)) ∧
  Claims.lands .barrelLih (fun s => s.curB.word.imm ++ s.xd.setWidth 32) ∧
  Claims.lands .sext (fun s => match s.curB.word.imm.toNat % 4 with
    | 0 => (s.xa.setWidth 8).signExtend 64
    | 1 => (s.xa.setWidth 16).signExtend 64
    | 2 => (s.xa.setWidth 32).signExtend 64
    | _ => s.xa) ∧
  Claims.lands .zext (fun s => match s.curB.word.imm.toNat % 4 with
    | 0 => (s.xa.setWidth 8).setWidth 64
    | 1 => (s.xa.setWidth 16).setWidth 64
    | 2 => (s.xa.setWidth 32).setWidth 64
    | _ => s.xa)

/-- R306, R287: a division writes its result 23 periods later, in the 32-bit form 15; a divisor of zero traps with cause 20 and TVAL x[a]. -/
def Obligations.BarrelDivisionsComplete : Prop :=
  ∀ (i : Instr) (zext : Bool) (op : (n : Nat) → BitVec n → BitVec n → BitVec n),
    (i = .barrelDiv ∧ zext = false ∧ op = fun _ a b => a.sdiv b) ∨ (i = .barrelDivn ∧ zext = true ∧ op = fun _ a b => a / b) ∨
    (i = .barrelRem ∧ zext = false ∧ op = fun _ a b => a.srem b) ∨ (i = .barrelRemn ∧ zext = true ∧ op = fun _ a b => a % b) →
    ∀ s : State,
      ((if fbit s.curB.word.imm 0 then s.xb.setWidth 32 = (0 : BitVec 32) else s.xb = 0) → exec i s = .next (s.bTrapAt 1 20 s.xa)) ∧
      (¬(if fbit s.curB.word.imm 0 then s.xb.setWidth 32 = (0 : BitVec 32) else s.xb = 0) →
        exec i s = .next (s.finishAt (if fbit s.curB.word.imm 0 then 15 else 23) [.reg s.curB.word.d.toNat (Claims.sized zext op s)]))

/-- The fmt field: 0 names f64, else f32. -/
def Claims.fmt (s : State) : Nat := if fld s.curB.word.imm 4 2 = 0 then 11 else 10
/-- The low bits of a register as a pattern of that type, and the number it stands for. -/
def Claims.pattern (s : State) (w : Word) : Nat := w.toNat % 2 ^ (if Claims.fmt s = 11 then 64 else 32)
def Claims.fval (s : State) (w : Word) : Val := fpToVal (Claims.fmt s) (Claims.pattern s w)
/-- The rounding mode in force: dyn reads FSTAT.rnd (R303, R40). -/
def Claims.frnd (s : State) : Nat := if fld s.curB.word.imm 0 3 = 6 then s.th.rnd else fld s.curB.word.imm 0 3

/-- R307: a floating-point result with its flags lands at the offset; when one of its flags is enabled the thread traps with cause 21 at that
period instead, TVAL the flags and the opcode, and d is not written. -/
def Claims.floats (i : Instr) (offset : State → Nat) (opcode : Nat) (r : State → Nat × Flags) : Prop :=
  ∀ s : State,
    (s.th.en &&& (r s).2 = 0 → exec i s = .next (s.finishAt (offset s) (.reg s.curB.word.d.toNat (BitVec.ofNat 64 (r s).1) ::
      (if (r s).2 = 0 then [] else [.flags (r s).2])))) ∧
    (s.th.en &&& (r s).2 ≠ 0 → exec i s = .next
      ((s.landAt s.curB.cell s.curB.thread (s.clk + offset s) s.clk [.flags (r s).2]).bTrapAt (offset s) 21
        (BitVec.ofNat 64 ((r s).2.toNat + opcode * 256))))

/-- Rounding into the type, with flags of the operation's own. -/
def Claims.fround (s : State) (v : Val × Flags) : Nat × Flags :=
  let r := roundToFp v.1 (Claims.fmt s) (Claims.frnd s) (fbit s.curB.word.imm 3) 0
  (r.1, r.2 ||| v.2)

def Obligations.BarrelFloatsComplete : Prop :=
  let divides (s : State) : Nat := if Claims.fmt s = 10 then 15 else 27
  Claims.floats .fadd (fun _ => 7) 0x20 (fun s => Claims.fround s (addVal (Claims.fval s s.xa) (Claims.fval s s.xb) (Claims.frnd s), 0)) ∧
  Claims.floats .fsub (fun _ => 7) 0x21 (fun s => Claims.fround s (subVal (Claims.fval s s.xa) (Claims.fval s s.xb) (Claims.frnd s), 0)) ∧
  Claims.floats .fmul (fun _ => 7) 0x22 (fun s => Claims.fround s (mulVal (Claims.fval s s.xa) (Claims.fval s s.xb), 0)) ∧
  Claims.floats .fdiv divides 0x23 (fun s => Claims.fround s (divVal (Claims.fval s s.xa) (Claims.fval s s.xb))) ∧
  Claims.floats .fsqrt divides 0x24 (fun s => Claims.fround s (sqrtVal (Claims.fval s s.xa), 0)) ∧
  Claims.floats .fma (fun _ => 7) 0x25 (fun s => Claims.fround s
    (fmaVal (Claims.fval s s.xa) (Claims.fval s s.xb) (Claims.fval s s.xd) (Claims.frnd s), 0)) ∧
  Claims.floats .fms (fun _ => 7) 0x26 (fun s => Claims.fround s
    (fmaVal (Claims.fval s s.xa) (Claims.fval s s.xb) (Claims.fval s s.xd).negate (Claims.frnd s), 0)) ∧
  Claims.floats .fnma (fun _ => 7) 0x27 (fun s => Claims.fround s
    (fmaVal (Claims.fval s s.xa).negate (Claims.fval s s.xb) (Claims.fval s s.xd) (Claims.frnd s), 0)) ∧
  Claims.floats .fmin (fun _ => 7) 0x28 (fun s => minMaxBits (Claims.fmt s) false (fbit s.curB.word.imm 6) (Claims.pattern s s.xa) (Claims.pattern s s.xb)) ∧
  Claims.floats .fmax (fun _ => 7) 0x29 (fun s => minMaxBits (Claims.fmt s) true (fbit s.curB.word.imm 6) (Claims.pattern s s.xa) (Claims.pattern s s.xb)) ∧
  Claims.floats .fcmp (fun _ => 7) 0x2A (fun s =>
    let r := fpCompare (fld s.curB.word.imm 8 3) (Claims.fmt s) (Claims.pattern s s.xa) (Claims.pattern s s.xb)
    (if r.1 then 1 else 0, r.2)) ∧
  Claims.floats .fcls (fun _ => 7) 0x2B (fun s => (classMask (Claims.fmt s) (Claims.pattern s s.xa), 0)) ∧
  Claims.floats .fsgn (fun _ => 7) 0x2D (fun s => (signOp (fld s.curB.word.imm 8 2) (Claims.fmt s) (Claims.pattern s s.xa) (Claims.pattern s s.xb), 0)) ∧
  Claims.floats .frnd (fun _ => 7) 0x2E (fun s => integral (Claims.fmt s) (Claims.pattern s s.xa) (Claims.frnd s) (fbit s.curB.word.imm 6))

/-- R308, R327, R328, R303, R307: FCVT, which under rsr draws from the thread's stream; a special function enters the queue at offset 1 and its thread goes on; RNGPX writes two registers
at offset 11; FGETF and FSETF read and write FSTAT. -/
def Obligations.BarrelUnitsComplete : Prop :=
  (∀ s : State,
    let tt := fld s.curB.word.imm 16 5
    let ts := fld s.curB.word.imm 8 5
    let drawn : State := if Claims.frnd s = 5 then s.updTh fun t => { t with src := t.src + 1 } else s
    let word := if Claims.frnd s = 5 then (philox s.th.src.toNat s.th.srk.toNat).head?.getD 0 else 0
    let r := convert ts tt (s.xa.toNat % 2 ^ typeBits ts) (Claims.frnd s) (fbit s.curB.word.imm 3) word
    (drawn.th.en &&& r.2 = 0 →
      ∃ v : Word, exec .fcvt s = .next (drawn.finishAt 7 (.reg s.curB.word.d.toNat v :: (if r.2 = 0 then [] else [.flags r.2]))) ∧
        (4 ≤ tt → v = BitVec.ofNat 64 r.1) ∧ (tt < 4 → v = (BitVec.ofNat (typeBits tt) r.1).signExtend 64)) ∧
    (drawn.th.en &&& r.2 ≠ 0 → exec .fcvt s = .next
      ((drawn.landAt s.curB.cell s.curB.thread (s.clk + 7) s.clk [.flags r.2]).bTrapAt 7 21 (BitVec.ofNat 64 (r.2.toNat + 0x2C * 256))))) ∧
  (∀ s : State, ∃ t, exec .sfn s = .next t ∧ t.mem = s.mem ∧ ∃ q, (t.barrel s.curB.cell).sfn = (s.barrel s.curB.cell).sfn ++ [q] ∧
    q.thread = s.curB.thread ∧ q.dest = s.curB.word.d.toNat ∧ q.entered = s.clk + 1 ∧ q.lands = none ∧
    q.value = BitVec.ofNat 64 (special (fld s.curB.word.imm 8 4) (Claims.fmt s) (Claims.pattern s s.xa) (Claims.frnd s) (fbit s.curB.word.imm 3)).1) ∧
  (∀ s : State,
    let ws := philox ((s.rd (s.curB.word.a.toNat + 1)).toNat * 2 ^ 64 + s.xa.toNat) s.xb.toNat
    exec .rngpx s = .next (s.finishAt 11
      [.reg s.curB.word.d.toNat (BitVec.ofNat 64 ((ws[1]?.getD 0) * 2 ^ 32 + ws[0]?.getD 0)),
       .reg (s.curB.word.d.toNat + 1) (BitVec.ofNat 64 ((ws[3]?.getD 0) * 2 ^ 32 + ws[2]?.getD 0))])) ∧
  (∀ s : State, exec .fsetf s = .next (s.simple [.fstat s.xa])) ∧
  ∀ s : State, exec .fgetf s = .next ((if fbit s.curB.word.imm 6 then s.updTh fun t => { t with flags := 0 } else s).simple
    [.reg s.curB.word.d.toNat (BitVec.ofNat 64 (s.th.rnd * 2 ^ 16 + s.th.en.toNat * 2 ^ 8 + s.th.flags.toNat))])

/-- The thread that executes. -/
def Claims.thread (s : State) : Option Thread := s.thread? s.curB.cell s.curB.thread
/-- The target of a displacement: the instruction's address plus eight times imm32 (R81). -/
def Claims.target (s : State) : BitVec 48 := s.th.pc + (s.curB.word.imm.signExtend 48 <<< 3)

/-- R315, R316, R81: branches compare and jump or go on; a jump through a register lands its return address; calls push and returns pop. That a
target in a register is truncated to 48 bits is the model's reading (log entry 27). -/
def Obligations.BarrelJumpsComplete : Prop :=
  (∀ x ∈ ([(.beq, fun a b => decide (a = b)), (.bne, fun a b => decide (a ≠ b)), (.blt, fun a b => decide (a.toInt < b.toInt)),
      (.bge, fun a b => decide (b.toInt ≤ a.toInt)), (.bltn, fun a b => decide (a.toNat < b.toNat)),
      (.bgen, fun a b => decide (b.toNat ≤ a.toNat))] : List (Instr × (Word → Word → Bool))),
    ∀ s : State, exec x.1 s = .next (s.jumpTo (if x.2 s.xa s.xb then Claims.target s else s.th.pc + 8))) ∧
  (∀ s : State, exec .jmp s = .next (s.jumpTo (Claims.target s))) ∧
  (∀ s : State, s.xa.toNat % 8 = 0 → exec .jmpr s = .next
    ((s.landAt s.curB.cell s.curB.thread (s.clk + 7) s.clk [.reg s.curB.word.d.toNat ((s.th.pc + 8).setWidth 64)]).jumpTo (s.xa.setWidth 48))) ∧
  (∀ s : State, s.xa.toNat % 8 ≠ 0 → exec .jmpr s = .next (s.bTrapAt 1 50 s.xa) ∧ exec .callr s = .next (s.bTrapAt 1 50 s.xa)) ∧
  (∀ s : State, s.th.returns.length < 16 →
    exec .barrelCall s = .next ((s.updTh fun t => { t with returns := (s.th.pc + 8) :: s.th.returns }).jumpTo (Claims.target s)) ∧
    (s.xa.toNat % 8 = 0 →
      exec .callr s = .next ((s.updTh fun t => { t with returns := (s.th.pc + 8) :: s.th.returns }).jumpTo (s.xa.setWidth 48)))) ∧
  (∀ (s : State) (a : BitVec 48) (rest : List (BitVec 48)), s.th.returns = a :: rest →
    exec .barrelRet s = .next ((s.updTh fun t => { t with returns := rest }).jumpTo a)) ∧
  ∀ s : State, s.th.returns = [] → s.th.spcnt = 0 → exec .barrelRet s = .next (s.bTrapAt 1 6 0)

/-! ## Requests of a thread -/

/-- The current instruction has made a request, under the next number, and its thread waits for it at the next word; registers and memory
are as before. -/
def Claims.asks (s t : State) (kind : RequestKind) (va len : Nat) : Prop :=
  t.mem = s.mem ∧ (t.barrel s.curB.cell).file = (s.barrel s.curB.cell).file ∧
  (∃ r, t.requests.get? s.nextId = some r ∧ r.kind = kind ∧ r.va = va ∧ r.len = len ∧ r.cell = s.curB.cell ∧ r.thread = s.curB.thread) ∧
  ∃ y, t.thread? s.curB.cell s.curB.thread = some y ∧ y.state = .blocked ∧ y.wait = .request s.nextId ∧ y.pc = s.th.pc + 8

/-- No fault of the address: no translation of it that is known faults, and it names no scratchpad of the core itself; a full-empty access names a
scratchpad (R309, R311). -/
def Claims.reachable (s : State) (kind : RequestKind) (va : Nat) : Prop :=
  (∀ c, s.translateNow (plateOf s.curB.cell) s.th.ctx va kind.writes false ≠ some (.error c)) ∧
  ∀ pa, s.translateNow (plateOf s.curB.cell) s.th.ctx va kind.writes false = some (.ok pa) →
    ¬(inScratch pa = true ∧ scratchCell pa = s.curB.cell) ∧
    (kind matches .lde .. | .ste .. | .ldp .. → inScratch pa = true)

/-- An access instruction: aligned, and inside the scratchpad if local, else with no fault known, it makes its request. -/
def Claims.accesses (i : Instr) (isLocal : State → Bool) (align : State → Nat) (kind : State → RequestKind) (va len : State → Nat) : Prop :=
  ∀ (s : State) (x : Thread), Claims.thread s = some x → va s % align s = 0 →
    (if isLocal s then va s + len s ≤ 0x80000 else Claims.reachable s (kind s) (va s)) →
      ∃ t, exec i s = .next t ∧ Claims.asks s t (kind s) (va s) (len s)

/-- The address of the mem form, and option bits of its byte. -/
def Claims.address (s : State) : Nat := (s.xa + s.curB.word.imm.signExtend 64).toNat
def Claims.option (s : State) (lo n : Nat) : Nat := fld s.curB.word.b lo n
def Claims.isLocal (s : State) : Bool := Claims.option s 3 1 == 1

/-- R309 to R312, R314: the memory and window instructions make requests of their own size and kind. -/
def Claims.barrelAccesses : Prop :=
  let size (s : State) : Nat := 2 ^ Claims.option s 0 2
  let d (s : State) : Nat := s.curB.word.d.toNat
  let wide (s : State) : Nat := if fld s.curB.word.imm 4 2 = 2 then 4 else 8
  let never (_ : State) : Bool := false
  Claims.accesses .ld Claims.isLocal size (fun s => .load (d s) (size s) (Claims.option s 2 1 == 1)) Claims.address size ∧
  Claims.accesses .st Claims.isLocal size (fun s => .store (size s) s.xd) Claims.address size ∧
  Claims.accesses .lde Claims.isLocal (fun _ => 8) (fun s => .lde (d s) (Claims.option s 0 1 == 1)) Claims.address (fun _ => 8) ∧
  Claims.accesses .ste Claims.isLocal (fun _ => 8) (fun s => .ste s.xd (Claims.option s 0 1 == 1)) Claims.address (fun _ => 8) ∧
  Claims.accesses .ldp Claims.isLocal (fun _ => 8) (fun s => .ldp (d s)) Claims.address (fun _ => 8) ∧
  Claims.accesses .amo (fun s => fbit s.curB.word.imm 6) wide
    (fun s => .amo (d s) (fld s.curB.word.imm 0 4) (wide s) (fbit s.curB.word.imm 12) s.xb) (fun s => s.xa.toNat) wide ∧
  Claims.accesses .cas (fun s => fbit s.curB.word.imm 6) wide
    (fun s => .cas (d s) (wide s) (fbit s.curB.word.imm 12) s.xd s.xb) (fun s => s.xa.toNat) wide ∧
  Claims.accesses .wld never (fun _ => 8) (fun s => .wld (d s) (Claims.option s 0 4)) Claims.address (fun _ => 8) ∧
  Claims.accesses .wst never (fun _ => 8) (fun s => .wst (Claims.option s 0 4) s.xd) Claims.address (fun _ => 8) ∧
  Claims.accesses .wpost never (fun _ => 1) (fun s => .wpost (Claims.option s 0 4) (Claims.option s 4 2) s.xd) Claims.address (fun _ => 1)

/-- R309: a misaligned address of a mem-form access traps before any other check, with cause 50 and TVAL the address. -/
def Claims.misaligned : Prop :=
  (∀ i ∈ [Instr.ld, .st], ∀ s : State, Claims.address s % 2 ^ Claims.option s 0 2 ≠ 0 →
    exec i s = .next (s.bTrapAt 1 50 (s.xa + s.curB.word.imm.signExtend 64))) ∧
  ∀ i ∈ [Instr.lde, .ste, .ldp, .wld, .wst], ∀ s : State, Claims.address s % 8 ≠ 0 →
    exec i s = .next (s.bTrapAt 1 50 (s.xa + s.curB.word.imm.signExtend 64))

/-- R309 to R314: a thread's loads, stores, atomics and window accesses with sound operands complete; misaligned ones trap. -/
def Obligations.BarrelAccessesComplete : Prop := Claims.barrelAccesses ∧ Claims.misaligned

/-- What a thread's slot holds after an instruction that waits: the next word's address and the wait. -/
def Claims.waits (s t : State) (st : ThreadState) (w : Wait) : Prop :=
  t.mem = s.mem ∧ ∃ y, t.thread? s.curB.cell s.curB.thread = some y ∧ y.state = st ∧ y.wait = w ∧ y.pc = s.th.pc + 8

/-- R313, R317 to R319, R290, R321, R335, R340: fences, forks, joins, yields, parking, migration and exits. That JOIN, PARK and EMIGR without a
wait complete as simple instructions is the model's reading (log entry 27), as is EMIGR's answer 0 with live children (log entry 28); what a
FENCE leaves for later reads is log entry 48. -/
def Obligations.BarrelThreadsComplete : Prop :=
  ∀ (s : State) (x : Thread), Claims.thread s = some x →
    (let kind := fld s.curB.word.imm 0 2
     let scope := fld s.curB.word.imm 2 3
     ((s.outstanding x.uid) = [] ∨ kind = 2 →
       exec .barrelFence s = .next ((s.fences s.curB.cell s.curB.thread kind scope).simple [])) ∧
     ((s.outstanding x.uid) ≠ [] → kind ≠ 2 → ∃ t, exec .barrelFence s = .next t ∧ Claims.waits s t .blocked (.fence kind scope))) ∧
    (x.pair = none → (s.barrel s.curB.cell).deque.length < 256 → x.live ≠ 65535 →
      ∃ t y e, exec .fork s = .next t ∧ Claims.thread t = some y ∧ y.live = x.live + 1 ∧ y.pc = x.pc + 8 ∧
        (t.barrel s.curB.cell).deque = e :: (s.barrel s.curB.cell).deque ∧ e.ctx = x.ctx ∧ e.entry = Claims.target s ∧ e.count = x.count ∧
        e.args = (s.xd, s.xa) ∧ e.parent = (s.curB.cell, s.curB.thread, x.uid)) ∧
    (x.pair = none → x.live = 0 → exec .join s = .next ((s.updTh fun t => { t with killed := 0 }).simple
      [.reg s.curB.word.d.toNat (BitVec.ofNat 64 x.killed)])) ∧
    (x.pair = none → x.live ≠ 0 → ∃ t, exec .join s = .next t ∧ Claims.waits s t .blocked (.join s.curB.word.d.toNat)) ∧
    (let couldIssue (y : Thread) : Bool := y.canIssue s.clk && !s.sfnHolds s.curB.cell y
     ∃ t y, exec .yld s = .next t ∧ t.mem = s.mem ∧ Claims.thread t = some y ∧ y.pc = x.pc + 8 ∧
      ((∀ p ∈ (s.barrel s.curB.cell).threads, p.1 ≠ s.curB.thread → couldIssue p.2 = false) → y.ready = s.clk + 8) ∧
      ((∃ p ∈ (s.barrel s.curB.cell).threads, p.1 ≠ s.curB.thread ∧ couldIssue p.2 = true) → y.ready = s.clk + 64 ∧
        ∀ n, n ∈ y.yields ↔ ∃ p ∈ (s.barrel s.curB.cell).threads, p.1 = n ∧ n ≠ s.curB.thread ∧ couldIssue p.2 = true)) ∧
    (x.wake = true → exec .park s =
      .next (((s.catchUp (threadAgent x.uid) s.nextId).updTh fun t => { t with wake := false }).simple [])) ∧
    (x.wake = false → ∃ t, exec .park s = .next t ∧ Claims.waits s t .parked .park) ∧
    (x.pair = none → (s.xa = BitVec.allOnes 64 ∨ (s.xa.toNat < 320 ∧ clusterOf s.xa.toNat = clusterOf s.curB.cell ∧
        s.holds x.ctx s.xa.toNat = true ∧ s.retired s.xa.toNat = false)) → (x.level ≠ 0 ∨ x.live ≠ 0) →
      exec .emigr s = .next (s.simple [.reg s.curB.word.d.toNat 0])) ∧
    (let c := s.xa.toNat
     let named : Prop := c < 320 ∧ clusterOf c = clusterOf s.curB.cell ∧ s.holds x.ctx c = true ∧ s.retired c = false
     x.pair = none → (s.xa = BitVec.allOnes 64 ∨ named) → x.level = 0 → x.live = 0 →
      ∃ t, exec .emigr s = .next t ∧ Claims.waits s t (if (s.barrel s.curB.cell).queued x.uid then .blocked else .migrating)
        (.migrate s.curB.word.d.toNat (if s.xa = BitVec.allOnes 64 then 8 else posOf c))) ∧
    (s.outstanding x.uid ≠ [] → ∃ t, exec .exit s = .next t ∧ Claims.waits s t .blocked .exit) ∧
    (s.outstanding x.uid = [] → (s.barrel s.curB.cell).queued x.uid = false → x.parent = none → (∀ n, (s.group n).holder = none) →
      x.senders = [] → ∃ t, exec .exit s = .next t ∧ t.mem = s.mem ∧ Claims.thread t = none)

/-- R319 to R325: wakes, task queues and messages: what each request asks for, and a queue or a message at hand. When TQGET takes the head is the
model's reading (log entry 28), as is that it and RECV without a wait complete as simple instructions (log entry 27); what RECV's scope makes
later reads see is log entry 48. -/
def Obligations.BarrelMessagesComplete : Prop :=
  ∀ (s : State) (x : Thread), Claims.thread s = some x →
    let a := s.xa.toNat
    let d := s.curB.word.d.toNat
    let n := fld s.curB.word.imm 0 4
    let scope := fld s.curB.word.imm 4 3
    let ws := (List.range n).map fun i => s.rd (s.curB.word.b.toNat + i)
    let sp := fbit s.curB.word.imm 3
    let target := if s.xb = BitVec.allOnes 64 then s.curB.cell else s.xb.toNat % 512
    (a / 2 ^ 9 % 2 ^ 7 = 0 → a / 2 ^ 22 = 0 → s.mayName x.ctx (a % 512) = true →
      ∃ t, exec .wake s = .next t ∧ Claims.asks s t (.wake d (a % 512) (a / 2 ^ 16 % 64)) a 8) ∧
    (a / 2 ^ 9 % 2 ^ 7 = 0 → a / 2 ^ 22 = 0 → s.mayName x.ctx (a % 512) = true →
      ∃ t, exec .send s = .next t ∧ Claims.asks s t (.send d (a % 512) (a / 2 ^ 16 % 64) ws [] 0 false) a 8) ∧
    (a % 64 = 0 → s.mayName x.ctx target = true → (if sp then a + 64 ≤ 0x80000 else Claims.reachable s (.packet d target s.xb) a) →
      ∃ t, exec .tqput s = .next t ∧ Claims.asks s t (.packet d target s.xb) a 64) ∧
    (a % 64 = 0 → (sp = true → a + 64 ≤ 0x80000) → (s.barrel s.curB.cell).tasks = [] →
      exec .tqget s = .next (s.simple [.reg d 0])) ∧
    (∀ p ps, a % 64 = 0 → a + 64 ≤ 0x80000 → sp = true → (s.barrel s.curB.cell).tasks = p :: ps →
      ∃ t, exec .tqget s = .next t ∧ Claims.asks s t (.taskGet d p.ctx p.words) a 64 ∧ (t.barrel s.curB.cell).tasks = ps) ∧
    (a % 64 = 0 → sp = false → (s.barrel s.curB.cell).tasks ≠ [] → Claims.reachable s (.taskGet d 0 []) a →
      ∃ t, exec .tqget s = .next t ∧ Claims.asks s t (.taskGet d 0 []) a 64 ∧ (t.barrel s.curB.cell).tasks = (s.barrel s.curB.cell).tasks) ∧
    (a / 2 ^ 9 % 2 ^ 7 = 0 → a / 2 ^ 22 % 2 ^ 10 = 0 → a / 2 ^ 38 = 1 →
      ∃ t, exec .send s = .next t ∧ Claims.asks s t (.remoteSend d (a / 2 ^ 32 % 64) s.xa ws) a 8) ∧
    (x.inbox = [] → ∃ t, exec .recv s = .next t ∧ Claims.waits s t .blocked (.recv d s.curB.word.a.toNat n scope)) ∧
    (∀ m rest, x.inbox = m :: rest → x.senders = [] →
      exec .recv s = .next (((s.updTh fun t => { t with inbox := rest }).acquireMessage s.curB.cell s.curB.thread m scope).simple
        ((List.range n).map (fun i => .reg (d + i) (m.words[i]?.getD 0)) ++ [.reg s.curB.word.a.toNat
          (m.sender ||| BitVec.ofNat 64 (m.words.length * 2 ^ 40 + (if n < m.words.length then 1 else 0) * 2 ^ 44))]))) ∧
    (a % 8 = 0 → a + 48 ≤ 0x80000 → ∃ t, exec .mcast s = .next t ∧ Claims.asks s t (.record d 0 ws) a 48)

/-- R336, R337, R339: control registers are read, one tick after the issue, and written by number; TRAP, SETC and RTE; RTE at level 0 traps. -/
def Obligations.BarrelControlComplete : Prop :=
  (∀ s : State, exec .getc s = .next ((s.simple []).after 1 phLand (2048 + s.curB.cell)
    (.getc s.curB.cell s.curB.thread s.th.uid s.curB.word.d.toNat (fld s.curB.word.imm 0 10)))) ∧
  (∀ (s : State) (cell t uid d n : Nat) (x : Thread), s.named cell t uid = some x →
    runItem (.getc cell t uid d n) s = .next (s.landAt cell t (s.clk + 6) (s.clk - 1) [.reg d (s.readBarrelCreg cell t x n)])) ∧
  (∀ s : State, exec .setc s = .next (s.simple [.creg (fld s.curB.word.imm 0 10) s.xa])) ∧
  (∀ (s : State) (x : Thread), Claims.thread s = some x → ∃ t y, exec .barrelTrap s = .next t ∧ t.mem = s.mem ∧ Claims.thread t = some y ∧
    y.fault = some { cause := 9, val := s.curB.word.imm.setWidth 64, epc := x.pc + 8, issued := s.clk, detected := s.clk + 1 } ∧
    { due := s.clk + 1, phase := phNet, key := s.curB.cell * 64 + s.curB.thread, item := .op (.barrelTrapEntry s.curB.cell s.curB.thread) } ∈ t.events) ∧
  (∀ s : State, s.th.level = 0 → exec .rte s = .next (s.bTrapAt 1 10 0)) ∧
  (∀ (s : State) (x : Thread), Claims.thread s = some x → x.level ≠ 0 → ∃ t, exec .rte s = .next t ∧ t.mem = s.mem ∧ t.cores = s.cores ∧
    (t.barrel s.curB.cell).file = (s.barrel s.curB.cell).file ∧ (t.barrel s.curB.cell).common = (s.barrel s.curB.cell).common ∧
    Claims.thread t = some { x with level := x.level - 1, pc := (x.lev (x.level - 1)).epc, ready := s.clk + 8 } ∧
    { due := s.clk + 8, phase := phBarrel, key := s.curB.cell * 2, item := .op (.barrelIssue s.curB.cell) } ∈ t.events) ∧
  ∀ (x : Thread) (v : Word), ((x.setCreg 0x14 v).lev 0).epc = v.extractLsb' 3 45 ++ 0#3 ∧ ((x.setCreg 0x18 v).lev 1).epc = v.extractLsb' 3 45 ++ 0#3

/-- R380 to R386: a suffix-index instruction with sound operands asks the unit of its handle, and a draw names its record; the generation token is taken by a
thread that waits at its cell while nobody holds it, and waits otherwise. -/
def Obligations.BarrelServingComplete : Prop :=
  ∀ (s : State) (x : Thread), Claims.thread s = some x →
    let d := s.curB.word.d.toNat
    let ask (op : Nat) : RequestKind := .suffix op d s.xa s.xb s.xd s.curB.word.imm.toNat
    let handle : Prop := s.xa.toNat / 2 ^ 32 = 0 ∧ s.xa.toNat / 2 ^ 14 % 4 = 0 ∧ s.xa.toNat / 2 ^ 8 % 64 ≤ 39
    let cluster := if s.xb = BitVec.allOnes 64 then clusterOf s.curB.cell else s.xb.toNat
    (s.xa.toNat % 8 = 0 → s.sxMayUse x.ctx cluster = true → ∃ t, exec .sxopen s = .next t ∧ Claims.asks s t (ask 0x70) s.xa.toNat 0) ∧
    (s.xa.toNat % 64 = 0 → s.sxMayUse x.ctx cluster = true → ∃ t, exec .sxload s = .next t ∧ Claims.asks s t (ask 0x75) s.xa.toNat 0) ∧
    (handle → (s.xb.toNat % 4 = 0 → (∃ t, exec .sxapp s = .next t ∧ Claims.asks s t (ask 0x71) s.xa.toNat 0) ∧
        ∃ t, exec .sxqry s = .next t ∧ Claims.asks s t (ask 0x72) s.xa.toNat 0) ∧
      (∃ t, exec .sxrep s = .next t ∧ Claims.asks s t (ask 0x73) s.xa.toNat 0) ∧
      (s.xb.toNat % 64 = 0 → ∃ t, exec .sxsave s = .next t ∧ Claims.asks s t (ask 0x74) s.xa.toNat 0) ∧
      ∃ t, exec .sxclose s = .next t ∧ Claims.asks s t (ask 0x76) s.xa.toNat 0) ∧
    (s.xa.toNat % 8 = 0 → s.xa.toNat + 32 ≤ 0x80000 →
      ∃ t, exec .smpd s = .next t ∧ Claims.asks s t (.sample d s.xb (fbit s.curB.word.imm 0)) s.xa.toNat 32) ∧
    (∀ g, s.xa = BitVec.ofNat 64 g → g < 16 → (s.group g).en = true → (s.group g).ctx = x.ctx →
      ((s.group g).mask.getLsbD s.curB.cell = true → (s.group g).holder ≠ none →
        ∃ t, exec .tokwait s = .next t ∧ Claims.waits s t .parked (.token d g)) ∧
      ((s.group g).mask.getLsbD s.curB.cell = true → (s.group g).holder = none → (s.group g).waiters = [] → (s.group g).cell = s.curB.cell →
        ∃ t, exec .tokwait s = .next t ∧ (t.group g).holder = some (s.curB.cell, s.curB.thread, x.uid) ∧ t.mem = s.mem) ∧
      ((s.group g).holder = some (s.curB.cell, s.curB.thread, x.uid) → s.outstanding x.uid ≠ [] →
        ∃ t, exec .tokpass s = .next t ∧ Claims.waits s t .blocked (.pass d g)) ∧
      ((s.group g).holder = some (s.curB.cell, s.curB.thread, x.uid) → s.outstanding x.uid = [] →
        ∃ t, exec .tokpass s = .next t ∧ (t.group g).round = ((s.group g).round + 1) % 2 ^ 63 ∧ t.mem = s.mem))

/-- R396, R411 to R414: with the context's proof domain enabled, the proof instructions of a thread ask the keeper; a release takes the thread's
next number. -/
def Obligations.BarrelProofComplete : Prop :=
  ∀ (s : State) (x : Thread), Claims.thread s = some x →
    let ask (op func : Nat) : RequestKind := .proof op s.curB.word.d.toNat s.xa s.xb func
    ((s.ctx x.ctx).pen = true →
      (s.xb.toNat % 8 = 0 → ∃ t, exec .propen s = .next t ∧ Claims.asks s t (ask 0x78 s.curB.word.imm.toNat) s.xa.toNat 0) ∧
      ((fbit s.curB.word.imm 0 = true → (s.ctx x.ctx).mirror = true) → ∃ t y, exec .barrelPrel s = .next t ∧
        Claims.asks s t (ask 0x79 s.curB.word.imm.toNat) s.xa.toNat 0 ∧ Claims.thread t = some y ∧ y.prIssued = x.prIssued + 1) ∧
      (∃ t, exec .barrelPseal s = .next t ∧ Claims.asks s t (ask 0x7A 0) s.xa.toNat 0) ∧
      (s.xa.toNat % 64 = 0 → ∃ t, exec .prpt s = .next t ∧ Claims.asks s t (ask 0x7D s.curB.word.imm.toNat) s.xa.toNat 0)) ∧
    (s.xa.toNat / 2 ^ 17 = 0 → x.ctx = 0 → (∃ t, exec .pcheck s = .next t ∧ Claims.asks s t (ask 0x7B 0) s.xa.toNat 0) ∧
      ∃ t, exec .prest s = .next t ∧ Claims.asks s t (ask 0x7C 0) s.xa.toNat 0)

/-! ## Steps that no program word names: the timed cores -/

/-- An item that waits, due in this period. -/
def Claims.due (s : State) (i : Item) : Prop := ∃ e ∈ s.events, e.due = s.clk ∧ e.item = i

/-- A state that differs from another in nothing that a program can see, or only in what waits. -/
def Claims.onlyWaits (s t : State) : Prop :=
  t.cores = s.cores ∧ t.mem = s.mem ∧ t.pkg = s.pkg ∧ t.barrels = s.barrels ∧ t.tick = s.tick ∧ t.clk = s.clk

/-- A result that a register takes as it lands, a stride add among them. -/
def Claims.toRegister (l : Landing) : Bool :=
  match l with
  | .s .. | .a .. | .p .. | .v .. | .pv .. | .k .. | .stride .. => true
  | _ => false

/-- The registers after such a landing (R118, R129). -/
def Claims.landed (r : TimedRegs) (l : Landing) : TimedRegs :=
  match l with
  | .s n v => r.setS n v
  | .a n v => r.setA n v
  | .p n v => r.setP n v
  | .v n x bits => r.setV n x bits
  | .pv n x bits => r.setPv n x bits
  | .k n x bits => r.setK n x bits
  | .stride n v => r.setA n (r.a[n]?.getD 0 + v)
  | _ => r

/-- R119, R121, R129, R157, R175, R182: the results due on a core land. Those of registers land in issue order, stride adds after all others,
and their flags are raised; a result that raises an enabled flag or has found a reserved code lands nothing and is noted as a fault. The
results of control registers, planes, tiles, the energy rate, tags and windows land in their own state. -/
def Claims.landings : Prop :=
  (∀ (cell : Nat) (s : State), let c := s.core cell
    let fs := sortBy Flight.seq (c.flights.filter fun f => decide (f.due ≤ s.clk))
    let ls := fs.flatMap fun f => f.landings
    let raised (g : FlagGroup) (old : Flags) : Flags := fs.foldl (fun u f => if f.group = g then u ||| unionFlags f.flags else u) old
    (∀ f ∈ fs, f.park = none ∧ unionFlags f.flags &&& c.ctl.enables f.group = 0 ∧ ∀ l ∈ f.landings, Claims.toRegister l = true) →
      ∃ t, exec (.resultLanding cell) s = .next t ∧ t.mem = s.mem ∧ (t.core cell).faults = c.faults ∧
        (t.core cell).flights = c.flights.filter (fun f => !decide (f.due ≤ s.clk)) ∧
        (t.core cell).regs = (ls.filter (fun l => l matches .stride ..)).foldl Claims.landed
          ((ls.filter (fun l => !(l matches .stride ..))).foldl Claims.landed c.regs) ∧
        (t.core cell).ctl = { c.ctl with va := raised .va c.ctl.va, vb := raised .vb c.ctl.vb, mx := raised .mx c.ctl.mx }) ∧
  (∀ (cell : Nat) (f : Flight) (s : State), let c := s.core cell
    let u := unionFlags f.flags
    c.flights = [f] → f.due ≤ s.clk → (∀ l ∈ f.landings, Claims.toRegister l = true) →
      (∀ p, f.park = some p → ∃ t, exec (.resultLanding cell) s = .next t ∧ t.mem = s.mem ∧ (t.core cell).regs = c.regs ∧
        (t.core cell).faults = c.faults ++
          [{ issued := f.issued, act := .park, info := { cause := 240, slot := f.slot, lane := p.1, pc := f.pc, val := p.2 } }]) ∧
      (f.park = none → u &&& c.ctl.enables f.group ≠ 0 → ∃ t lane, exec (.resultLanding cell) s = .next t ∧ t.mem = s.mem ∧
        (t.core cell).regs = c.regs ∧ (t.core cell).ctl = c.ctl.raise f.group u ∧
        (t.core cell).faults = c.faults ++
          [{ issued := f.issued, act := .trap,
             info := { cause := f.group.cause, slot := f.slot, lane, pc := f.pc, val := BitVec.ofNat 64 (u.toNat + f.opcode % 128 * 2 ^ 8) } }] ∧
        ∃ v, (lane, v) ∈ f.flags ∧ v &&& c.ctl.enables f.group ≠ 0)) ∧
  ∀ (cell : Nat) (f : Flight) (l : Landing) (s : State), let c := s.core cell
    c.flights = [f] → f.due ≤ s.clk → f.park = none → f.flags = [] → f.landings = [l] →
      let lands (p : Core → Prop) : Prop := ∃ t, exec (.resultLanding cell) s = .next t ∧ t.mem = s.mem ∧ (t.core cell).regs = c.regs ∧ p (t.core cell)
      (∀ n v, l = .creg n v → lands fun x => x = { c with flights := [] }.writeCreg n v) ∧
      (l = .swapPlanes → lands fun x => x.mtx = { c.mtx with active := c.mtx.shadow, shadow := c.mtx.active }) ∧
      (∀ rate, l = .energy rate → lands fun x =>
        let r := min rate.toNat c.mtx.cap.toNat
        x.mtx = { c.mtx with rate := BitVec.ofNat 32 r, bucket := BitVec.ofInt 64 (min c.mtx.bucket.toInt (16 * r)) }) ∧
      (∀ tile first xs, l = .zrow tile first xs → tile < 4 → lands fun x => (x.mtx.tile tile).f64 = (c.mtx.tile tile).f64 ∧
        (∀ n, x.mtx.tile n = c.mtx.tile n ∨ n = tile) ∧
        ∀ n, (x.mtx.tile tile).at' 0 n = if first ≤ n ∧ n < first + xs.length then xs[n - first]?.getD 0 else (c.mtx.tile tile).at' 0 n) ∧
      (∀ n base size close action expect posts, l = .openWindow n base size close action expect posts → n < 16 → c.run = .running → lands fun x =>
        x.window n = { base, size, openAt := s.tick, close, action, rcvd := 0, expect, stalling := false, absent := false, missed := false,
                       isOpen := true, target := (c.window n).target, pst := posts, owed := (c.window n).owed, opener := some f.issued })

/-- R73, R119, R145, R146, R138, R148, R149, R136, R96: the steps of a timed core's sequencer, its results and its accesses. The tick in which a
pre-emption lands beside a redirect is the model's reading (log entry 24); that every page of an image is translated before any is written is its
choice (log entry 54). -/
def Obligations.TimedCoreEventsComplete : Prop :=
  (∀ (cell : Nat) (g : Group) (b : Bundle) (bs : List Bundle) (s : State), (s.core cell).run = .running → (s.core cell).seq.drained = false →
    (s.core cell).seq.notBefore = s.clk → (s.core cell).seq.group = some g → g.bundles = b :: bs →
    (∀ l ∈ (s.core cell).seq.loops, l.last = bundlePc g.base g.index → (s.core cell).ctl.inh = true ∨ b.stop = true) →
    s.bundleFault cell (bundlePc g.base g.index) g b = none →
      ∃ t, exec (.groupIssue cell) s = .next t ∧ Claims.onlyWaits s t ∧
        (∀ x ∈ b.instrs, Claims.due t (.slot cell (bundlePc g.base g.index) x.1)) ∧ Claims.due t (.finish cell)) ∧
  Claims.landings ∧
  (∀ (cell : Nat) (s : State), (s.core cell).run = .running → (s.core cell).seq.drained = true →
    ∃ t, exec (.handlerStart cell) s = .next t ∧ (t.core cell).seq = { (s.core cell).seq with drained := false, notBefore := s.clk } ∧
      (t.core cell).regs = (s.core cell).regs ∧ (t.core cell).ctl = (s.core cell).ctl ∧ t.mem = s.mem ∧
      Claims.due t (.op (.groupIssue cell))) ∧
  (∀ (cell : Nat) (s : State), (s.core cell).run = .halting → (s.core cell).faults = [] → s.quiet cell = true →
    (s.core cell).clock.released = true → (s.core cell).clock.firstRefusal [1, 2, 3] = none →
      exec (.haltComplete cell) s = .next (s.endCore cell .halted)) ∧
  (∀ (cell : Nat) (s : State), let i := (s.core cell).seq.fault
    (s.core cell).faults = [] →
      ((s.core cell).run = .stopping → s.quiet cell = true → (s.core cell).clock.released = true →
        exec (.timedCoreStop cell) s = .next ((s.postCore cell 1 i.cause (i.pc.setWidth 64) i.val).endCore cell .stopped)) ∧
      ((s.core cell).run = .parking → s.drainedNow cell = true →
        exec (.timedCoreStop cell) s = .next ((s.postCore cell 3 i.cause (i.pc.setWidth 64) i.val).endCore cell .parked))) ∧
  (∀ (cell : Nat) (s : State), (s.core cell).run = .running → (s.core cell).clock.prq = true → (s.core cell).ctl.inh = false →
    (s.core cell).seq.realign = none →
      ((s.core cell).redirectsNow s.tick = true → exec (.preemptionLanding cell) s =
        .next (s.after 1 phIssue (cell * 32) (.op (.preemptionLanding cell)))) ∧
      ((s.core cell).redirectsNow s.tick = false → ∃ t, exec (.preemptionLanding cell) s = .next t ∧ (t.core cell).run = .preempting ∧ (t.core cell).seq.landed = s.tick ∧
        (t.core cell).regs = (s.core cell).regs ∧ t.mem = s.mem ∧
        ∃ e ∈ t.events, e.due = s.drainTick cell ∧ e.item = .op (.contextImageSave cell))) ∧
  (∀ (cell : Nat) (s : State), (s.core cell).run = .preempting → s.quiet cell = true → (s.core cell).mtx.busy s.clk = 0 →
    (s.core cell).clock.released = true →
      (∀ ps, (s.core cell).seq.drained = false →
        (s.asUnit (.image cell) false).imagePages (plateOf cell) (s.core cell).ctx (s.core cell).ctl.psav.toNat true (imageSize / 4096) = .ok (.ok ps) →
          exec (.contextImageSave cell) s = .next (s.beginImage cell ps)) ∧
      ((s.core cell).seq.drained = true → (s.unitJob (.image cell)).waits = none → (s.unitJob (.image cell)).left.getD [] = [] →
        (∀ x ∈ s.throughs, x.2.agent = timedAgent cell → x.2.order < (s.core cell).seq.saveFrom) →
        ∃ t, exec (.contextImageSave cell) s = .next t ∧ (t.core cell).run = .preempted ∧ (t.core cell).clock.prq = false ∧
          (t.core cell).idleAt = s.tick ∧ (t.core cell).regs = (s.core cell).regs ∧ t.mem = s.mem)) ∧
  (∀ (cell arrived : Nat) (r : Realign) (s : State), (s.core cell).seq.realign = some r → r.arrived = some arrived →
    arrived + r.timeout + 1 = s.clk → r.release = none → (∃ m ∈ s.realignMates cell, s.realignedAt m r.address = false) →
      exec (.realignTimeout cell) s = .next (s.updSeq cell fun q => { q with realign := some { r with release := some (r.timeout, true) } })) ∧
  (∀ (a : Access) (l : AccessLine) (s : State), s.accesses = [a] → a.due ≤ s.clk → a.lines = [l] →
    (a.space ≠ 1 → s.regionHit (a.store l) (a.storeOffset l) l.len = none) →
      (∀ data mask, a.kind = .store data mask →
        ∃ t, exec .timedAccessPerform s = .next t ∧ t.accesses = [] ∧ t.cores = s.cores ∧
          t.mem = s.mem.putMasked (spacePhys a.cell a.space l.address) l.len (data / 2 ^ (512 * l.lane)) (mask / 2 ^ (64 * l.lane))) ∧
      (∀ dest land, a.kind = .load dest land → s.pkg.poison.contains (lineOf (spacePhys a.cell a.space l.address)) = false →
        ∃ t, exec .timedAccessPerform s = .next t ∧ t.accesses = [] ∧ t.mem = s.mem ∧ (t.core a.cell).regs = (s.core a.cell).regs ∧
          ∃ f ∈ (t.core a.cell).flights, f.due = land ∧
            f.landings = [dest.landing l.lane (s.mem.num (spacePhys a.cell a.space l.address) l.len)]))

/-! ## Schedules, windows, barriers and the counter -/

/-- R253, R28, R27, R256, R254, R258: the steps of the schedule tables and of containment. That an argument block reaches every named cell whatever
becomes of the launch, and what a late copy reads at the tick, are the model's choice (log entry 5); when images are read is log entry 24. -/
def Obligations.ScheduleEventsComplete : Prop :=
  (∀ (plate index : Nat) (e : BitVec 512) (s : State), plate < 4 →
    (∃ t, exec (.scheduleEntryWrite plate index e) s = .next t ∧ t.cores = s.cores ∧ t.mem = s.mem ∧ t.entry plate index =
      if seArmed e = false then seWith e false (seResult (s.entry plate index)) else if s.entryRefused plate e = true then seWith e false 2
        else seWith e true 0) ∧
    (seArmed e = true → s.entryRefused plate e = false → seKind e = 0 → ∃ t, exec (.scheduleEntryWrite plate index e) s = .next t ∧
      ∃ x ∈ t.events, x.item = .op (.launchArgumentBlockCopy plate index) ∧ s.clk < x.due)) ∧
  (∀ (plate index : Nat) (bs : List Byte) (s : State), let e := s.entry plate index
    seArmed e = true → seKind e = 0 →
    (s.asUnit (.args plate index) false).readRange plate (seContext e) (seArgs e) 256 = .ok (.ok bs) →
      exec (.launchArgumentBlockCopy plate index) s = .next ((seCells e).foldl
        (fun s n => { s with mem := s.mem.put (coreStoreBase n + 0x2FFF00) bs }) (s.dropUnit (.args plate index)))) ∧
  (∀ (plate index : Nat) (s : State), let e := s.entry plate index
    let s1 := s.argsDue plate index
    ((∀ j ∈ s.units, j.user ≠ .args plate index) → s1 = s) ∧
    (seArmed e = true → seKind e = 0 → seTick e ≤ s.tick.toNat → plate < 4 → (∀ n ∈ seCells e, s1.launchOffends (seContext e) n = false) →
    s1.pkg.gangs.get? (gangKey plate (seGang e)) = none → (s1.plate plate).argFaults.get? index = none →
      ∃ t, exec (.scheduleLaunch plate index) s = .next t ∧ t.mem = s1.mem ∧ t.entry plate index = seWith e false 1 ∧
        ∀ i n, (seCells e)[i]? = some n → (t.core n).run = .running ∧ (t.core n).ctx = seContext e ∧ (t.core n).a' 0 = 0x2FFF00 ∧
          (t.core n).s' 1 = word (seGang e) ∧ (t.core n).s' 2 = word i ∧ (t.core n).s' 3 = word (seCells e).length ∧
          (t.core n).seq.pc = BitVec.ofNat 64 (seEntry e) ∧ (t.core n).ctl.plevel = seLevel e ∧ Claims.due t (.op (.groupIssue n)))) ∧
  (∀ (plate index : Nat) (imgs : List (Nat × Memory)) (s : State), let e := s.entry plate index
    seArmed e = true → seKind e = 1 → seTick e ≤ s.tick.toNat → plate < 4 → (∀ n ∈ seCells e, s.resumeOffends e n = false) →
    s.resumable plate e = true → s.imagesNow plate index e = some imgs →
      ∃ t, exec (.scheduleResume plate index) s = .next t ∧ t.entry plate index = seWith e false 1 ∧
        ∀ (i n : Nat) (x : Nat × Memory), (seCells e)[i]? = some n → imgs[i]? = some x → (t.core n).run = .running ∧ (t.core n).ctx = seContext e ∧
          (∀ k < 64, (t.core n).s' k = word (x.2.num (0x40 + 8 * k) 8)) ∧ (∀ k < 16, (t.core n).a' k = word (x.2.num (0x240 + 8 * k) 8)) ∧
          (∀ k < 16, 0 < k → (t.core n).p' k = (BitVec.ofNat 16 (x.2.num 0x2C0 8)).getLsbD k) ∧ Claims.due t (.op (.groupIssue n))) ∧
  (∀ (plate index : Nat) (s : State), let e := s.entry plate index
    seArmed e = true → seKind e = 2 → seTick e ≤ s.tick.toNat → plate < 4 → s.preemptOffends plate e = none →
      ∃ t, exec (.schedulePreempt plate index) s = .next t ∧ t.mem = s.mem ∧ t.entry plate index = seWith e false 0 ∧
        ∀ n ∈ seCells e, (t.core n).regs = (s.core n).regs ∧ ((s.core n).run.live = true → (t.core n).clock.prq = true)) ∧
  (∀ (g : Gang) (s : State), s.pkg.gangs.get? (gangKey s.pkg.kPlate s.pkg.kGang) = some g → g.ctx = s.pkg.kCtx → s.pkg.kBusy = true →
    exec .kcontContain s = .next ((g.members.foldl (fun s m => s.containCore m) s).updPkg fun k => { k with kBusy := false }))

/-- R262, R264, R111, R261, R267, R277, R268: the steps of windows and barriers. That a domain barrier records and releases each plate's gang by itself
is the model's choice (log entry 46). -/
def Obligations.WindowEventsComplete : Prop :=
  (∀ (cell n : Nat) (s : State), let w := (s.core cell).window n
    w.isOpen = true → w.close.toNat ≤ s.tick.toNat → w.stalling = false → ¬(w.action = 2 ∧ w.hit = false) →
      ∃ t, exec (.windowClose cell n) s = .next t ∧ (t.core cell).regs = (s.core cell).regs ∧ t.mem = s.mem ∧
        (t.core cell).window n = { w with isOpen := false, absent := false, missed := !w.hit, close := s.tick,
                                          owed := w.owed || (!w.hit && w.action == 1) }) ∧
  (∀ (cell n : Nat) (s : State), (List.range 16).find? (fun n => ((s.core cell).window n).owed) = some n →
    ∃ t, exec (.windowRedirect cell) s = .next t ∧ t.mem = s.mem ∧ (t.core cell).regs = (s.core cell).regs ∧
      (t.core cell).seq.pc = ((s.core cell).window n).target.setWidth 64 ∧
      (t.core cell).clock.wrpc = (s.core cell).seq.pc.setWidth 64 ∧ (t.core cell).window n = { (s.core cell).window n with owed := false } ∧
      ∃ e ∈ t.events, e.due = s.clk + 1 ∧ e.item = .op (.groupIssue cell)) ∧
  (∀ (id : Nat) (r : Request) (s : State), s.requests.get? id = some r →
    (∀ n k x, r.kind = .wpost n k x →
      exec (.windowAccessArrival id) s = .next (if s.windowAccepts r n false then (s.posts (storeCell r.pa) n k x).answered id [] none
        else s.answered id [] (some (177, word r.va)))) ∧
    (∀ n, (∃ d, r.kind = .wld d n) ∨ (∃ x, r.kind = .wst n x) →
      exec (.windowAccessArrival id) s = .next (if s.windowAccepts r n true then s.performs id r
        else s.answered id [] (some (177, word r.va))))) ∧
  (∀ (plate gang barrier : Nat) (s : State), s.allArrived (s.gangMembers plate gang) barrier = true →
    ∃ t, exec (.barrierRelease plate gang barrier) s = .next t ∧ t.mem = s.mem ∧ t.pkg = s.pkg ∧
      ∀ m ∈ s.gangMembers plate gang, (t.core m).regs = (s.core m).regs ∧ ∀ b, (s.core m).seq.bar = some b → b.barrier = barrier →
        b.release = none → (t.core m).seq.bar = some { b with release := some (s.clk + 8) }) ∧
  (∀ (cell : Nat) (b : BarWait) (bs : List Bundle) (m : Member) (g : Gate) (f : FormE) (s : State), (s.core cell).seq.bar = some b →
    b.release = none → (s.core cell).run = .running → s.checkedGroup cell (s.core cell).seq.pc = .ok bs →
    (((s.core cell).waiters bs).filter fun m => m.instr matches .bar ..)[(s.core cell).seq.barsDone]? = some m → m.instr = .bar g f →
    (∃ n, b.limit = some n ∧ n ≤ s.clk) →
      exec (.barrierTimeout cell) s = .next (s.takeTrap cell
        { cause := 182, slot := 7, lane := 0, pc := bundlePc (s.core cell).seq.pc m.bundle, val := word f.tag.toNat }
        (bundlePc (s.core cell).seq.pc m.bundle))) ∧
  (∀ (plate gang barrier t0 : Nat) (b : DomainBarrier) (s : State),
    s.pkg.domBars.find? (fun b => b.gang == gang && b.barrier == barrier && (b.plates.get? plate).isSome) = some b →
    b.release s.pkg.domPos s.pkg.domLat plate = some t0 → t0 ≤ s.tick.toNat →
      ∃ t, exec (.domainBarrierRelease plate gang barrier) s = .next t ∧ t.mem = s.mem ∧
        (∀ x ∈ t.pkg.domBars, x.gang = gang → x.barrier = barrier → x.plates.get? plate = none ∧ (x.plates = [] → x.ticks = [])) ∧
        ∀ m ∈ s.gangMembers plate gang, (t.core m).regs = (s.core m).regs ∧ ∀ b, (s.core m).seq.bar = some b → b.barrier = barrier →
          b.release = none → (t.core m).seq.bar = some { b with release := some s.clk }) ∧
  (∀ (plate gang barrier m : Nat) (ms : List Nat) (b : BarWait) (s : State),
    s.pkg.domBars.find? (fun b => b.gang == gang && b.barrier == barrier && (b.plates.get? plate).isSome) = none →
    s.allArrived (s.gangMembers plate gang) barrier = true → s.waitingAt (s.gangMembers plate gang) barrier = m :: ms →
    (s.core m).seq.bar = some b →
      ∃ t, exec (.domainBarrierRelease plate gang barrier) s = .next t ∧ t.mem = s.mem ∧ t.cores = s.cores ∧
        ∃ x ∈ t.pkg.domBars, x.gang = gang ∧ x.barrier = barrier ∧ x.plates.get? plate = some (b.mask, s.tick))

/-- R26, R249, R251, R269: TICK goes on by one in every clock period, by two or by nothing on a slew step; a neighbour's counter sets the
next slew; a timed slot gives each channel's waiting burst to its lines. Which sign of the offset advances the counter is the model's reading (log
entry 22), and which jobs a dynamic slot serves its choice (log entry 51). -/
def Obligations.CounterEventsComplete : Prop :=
  (∀ s : State, s.mgmt.released = true → ∃ t, exec .tickIncrement s = .next t ∧ t.clk = s.clk + 1 ∧
    t.tick = s.tick + BitVec.ofNat 64 s.stepBy ∧ t.stepBy = 1 ∧ t.cores = s.cores ∧ t.mem = s.mem ∧ t.barrels = s.barrels) ∧
  (∀ s : State, s.mgmt.released = false → exec .tickIncrement s = .next { s with clk := s.clk + 1 }) ∧
  (∀ (advance : Bool) (s : State), exec (.slewStep advance) s =
    .next (if s.tick.toNat % 4096 = 0 then { s with stepBy := if advance then 2 else 0 } else s)) ∧
  (∀ (x : BitVec 64) (s : State), ∃ t, exec (.counterExchange x) s = .next t ∧ t.cores = s.cores ∧ t.mem = s.mem ∧
    t.pkg.slew = (if x = 0 then none else some (decide (0 < x.toInt))) ∧ t.pkg.skew = (s.pkg.skew || decide (2 < x.toInt.natAbs))) ∧
  (∀ (plate : Nat) (s : State), let p := s.plate plate
    (s.resetting plate = true → exec (.hbmSlot plate) s = .next s) ∧
    (plate < 4 → s.resetting plate = false → ∃ t, exec (.hbmSlot plate) s = .next t ∧ t.cores = s.cores ∧ t.mem = s.mem ∧
      (s.tick.toNat / 64 % (p.frame.1 + p.frame.2) < p.frame.1 →
        (∀ b ∈ servedBursts p.bursts, Claims.due t (.op (.taggedCopyLine b.2.1 b.2.2)) ∧ b ∉ (t.plate plate).bursts) ∧
        (p.set = true → p.lend = false → (t.plate plate).dyn = p.dyn)) ∧
      (p.frame.1 ≤ s.tick.toNat / 64 % (p.frame.1 + p.frame.2) → (t.plate plate).bursts = p.bursts ∧
        ∀ j ∈ servedJobs (fun _ => true) p.dyn, j ∉ (t.plate plate).dyn)))

/-! ## Barrel cores between their instructions -/

/-- The thread slots of a core in the order in which it looks for the next to issue (R287). -/
def Claims.turn (s : State) (cell k : Nat) : Nat := ((s.barrel cell).last + 1 + k) % 64

/-- R287, R302, R301, R374, R376, R326, R327, R330, R344, R347: issue, dispatch, the sampler, the special functions, trap entry, kills and
messages. -/
def Obligations.BarrelEventsComplete : Prop :=
  (∀ (cell k : Nat) (x : Thread) (s : State), s.retired cell = false → s.mgmt.released = true → k < 64 →
    s.thread? cell (Claims.turn s cell k) = some x → x.canIssue s.clk = true → s.fetchAt cell x ≠ none →
    s.fetchHeld cell x = false → s.sfnHolds cell x = false → (∀ j < k, ∀ y, s.thread? cell (Claims.turn s cell j) = some y → y.canIssue s.clk = false) →
      ∃ t, exec (.barrelIssue cell) s = .next t ∧ (t.barrel cell).last = Claims.turn s cell k ∧ t.mem = s.mem ∧ t.cores = s.cores ∧
        Claims.due t (.thread cell (Claims.turn s cell k))) ∧
  (∀ (cell slot base : Nat) (p : TaskPacket) (ps : List TaskPacket) (s : State), s.retired cell = false → s.mgmt.released = true →
    (s.barrel cell).smpStart = false →
    (s.barrel cell).freeSlot = some slot → (s.barrel cell).tasks = p :: ps → (s.barrel cell).firstFit p.count = some base → p.paired = false →
      ∃ t x, exec (.taskDispatch cell) s = .next t ∧ t.mem = s.mem ∧ (t.barrel cell).tasks = ps ∧ t.thread? cell slot = some x ∧
        x.state = .runnable ∧ x.ctx = p.ctx ∧ x.pc = (p.word 0).setWidth 48 ∧ x.count = p.count ∧ x.base = base ∧
        ∀ n, 1 ≤ n → n ≤ 5 → n < p.count → (t.barrel cell).read base n = p.word (2 + n)) ∧
  (∀ (cell base : Nat) (s : State), let b := s.barrel cell
    s.retired cell = false → s.mgmt.released = true → b.smpStart = true → b.threads.get? 63 = none → (∀ r ∈ b.reserved, r.slot ≠ 63) →
    b.firstFit b.smpRegs = some base → (s.cellContext cell = none → exec (.samplerStart cell) s = .next s) ∧ ∀ ctx, s.cellContext cell = some ctx →
      ∃ t x, exec (.samplerStart cell) s = .next t ∧ t.mem = s.mem ∧ (t.barrel cell).smpStart = false ∧ t.thread? cell 63 = some x ∧
        x.sampler = true ∧ x.ctx = ctx ∧ x.pc = b.smpEnt ∧ x.count = b.smpRegs ∧ x.base = base) ∧
  (∀ (cell thread d id j : Nat) (x : Thread) (r : Request) (s : State), s.thread? cell thread = some x → x.wait = .mask d j id →
    s.requests.get? id = some r → r.issued + 3 + 2 ^ r.felim ≤ s.clk →
      exec (.samplerMaskTimeout cell thread) s = .next (s.answered id [] (some (309, word j)))) ∧
  (∀ (cell : Nat) (q : SfnRequest) (s : State), let b := s.barrel cell
    b.sfn.find? (fun q => q.lands.isNone) = some q → q.entered ≤ s.clk → (∀ x, b.sfnStart = some x → x + 4 ≤ s.clk) →
      let l := max (s.clk + if q.single then 16 else 32) (b.sfnLand + 1)
      ∃ t, exec (.sfnStart cell) s = .next t ∧ t.mem = s.mem ∧ (t.barrel cell).sfnStart = some s.clk ∧ (t.barrel cell).sfnLand = l ∧
        (t.barrel cell).threads = b.threads ∧ ∃ e ∈ t.events, e.due = l ∧ e.item = .op (.sfnResultLanding cell)) ∧
  (∀ (cell l : Nat) (q : SfnRequest) (qs : List SfnRequest) (s : State), (s.barrel cell).sfn = q :: qs → q.lands = some l → l ≤ s.clk →
    (∀ x, s.named cell q.thread q.uid = some x → x.wait = .none ∨ x.wait = .sfn →
      ∃ t, exec (.sfnResultLanding cell) s = .next t ∧ t.mem = s.mem ∧ (t.barrel cell).sfn = qs ∧
        ∃ f ∈ (t.barrel cell).flights, f.due = s.clk ∧ f.thread = q.thread ∧ f.uid = q.uid ∧
          f.writes = .reg q.dest q.value :: if q.flags = 0 then [] else [.flags q.flags]) ∧
    (s.named cell q.thread q.uid = none → ∃ t, exec (.sfnResultLanding cell) s = .next t ∧ t.mem = s.mem ∧
      (t.barrel cell).sfn = qs ∧ (t.barrel cell).flights = (s.barrel cell).flights)) ∧
  (∀ (cell thread : Nat) (x : Thread) (f : BarrelFault) (s : State), s.thread? cell thread = some x → x.fault = some f →
    (s.barrel cell).queued x.uid = false → (s.clk < f.detected → exec (.barrelTrapEntry cell thread) s = .next s) ∧ (f.detected ≤ s.clk →
      (x.level < 2 → x.tvec ≠ 0 → ∃ t y, exec (.barrelTrapEntry cell thread) s = .next t ∧ t.mem = s.mem ∧ t.cores = s.cores ∧
        t.thread? cell thread = some y ∧ y.fault = none ∧ y.level = x.level + 1 ∧ y.pc = x.tvec + BitVec.ofNat 48 (0x100 * x.level) ∧
        (y.lev x.level).cause = f.cause ∧ (y.lev x.level).epc = f.epc ∧ (y.lev x.level).val = f.val ∧
        (y.lev x.level).scr = (x.lev x.level).scr) ∧
      (x.level < 2 → x.tvec = 0 → exec (.barrelTrapEntry cell thread) s = .next (s.killThread cell thread f.cause f.epc f.val true)) ∧
      (x.level = 2 → exec (.barrelTrapEntry cell thread) s = .next (s.killContext x.ctx
        { kind := 8, cause := f.cause, cell, thread, ctx := x.ctx, pc := f.epc.setWidth 64, val := f.val })))) ∧
  (∀ (ctx : Nat) (m : Message) (s : State), s.kills.get? ctx = some m → s.hasThreads ctx = false →
    ∃ t, exec (.contextKillComplete ctx) s = .next t ∧ t.kills.get? ctx = none ∧ t.cores = s.cores ∧ t.mem = s.mem ∧
      t.barrels = s.barrels) ∧
  (∀ (plate : Nat) (m : Message) (ms : List Message) (s : State), let p := s.plate plate
    let e := scratchBase p.supCell + p.supBox + 32 * p.mbNext
    p.queue = m :: ms →
      (p.supEn = false → ∃ t, exec (.mailboxPost plate) s = .next t ∧ t.mem = s.mem ∧ t.cores = s.cores ∧ (t.plate plate).queue = ms ∧
        (t.plate plate).mbOff = p.mbOff + 1) ∧
      (p.supEn = true → e ∉ s.full → ∃ t, exec (.mailboxPost plate) s = .next t ∧ t.cores = s.cores ∧ (t.plate plate).queue = ms ∧
        (t.plate plate).mbNext = (p.mbNext + 1) % 64 ∧ e ∈ t.full ∧
        t.mem = (((s.mem.putNum (e + 8) 8 m.pc.toNat).putNum (e + 16) 8 m.val.toNat).putNum (e + 24) 8 s.tick.toNat).putNum e 8
          (m.word0 p.mbSeq).toNat))

/-- R295, R296, R299, R297: turns at the scratchpad banks, waiting full-empty accesses, the arbiter and returned answers. -/
def Obligations.BarrelAccessEventsComplete : Prop :=
  (∀ (cell bank : Nat) (q : Nat × Nat) (r : Request) (s : State), s.scratchPorts.getD (bankKey cell bank) [] = [q] →
    s.requests.get? q.2 = some r → r.stage = .away →
      exec (.scratchpadBankService cell bank) s =
        .next ({ s with scratchPorts := s.scratchPorts.erase (bankKey cell bank) }.bankTurn q.2 r bank q.1)) ∧
  (∀ (cell at' id : Nat) (s : State), (s.parked.getD at' []).find? s.canServe = some id →
    ∃ t, exec (.fullEmptyServe cell at') s = .next t ∧ t.mem = s.mem ∧ t.cores = s.cores ∧ t.barrels = s.barrels ∧
      t.parked.getD at' [] = (s.parked.getD at' []).erase id ∧ (0, id) ∈ t.scratchPorts.getD (bankKey cell (scratchBank at')) []) ∧
  (∀ (id : Nat) (r : Request) (s : State), s.requests.get? id = some r → r.stage = .parked → id ∈ s.parked.getD r.pa [] →
    ∃ s1 : State, s1.mem = s.mem ∧ s1.requests = s.requests ∧ s1.barrels = s.barrels ∧
      s1.parked.getD r.pa [] = (s.parked.getD r.pa []).erase id ∧
      exec (.fullEmptyTimeout id) s = .next (s1.answered id [] (some (57, word r.va)))) ∧
  (∀ (cell : Nat) (s : State), ∃ t, exec (.requestPromotion cell) s = .next t ∧ t.mem = s.mem ∧ t.barrels = s.barrels ∧ t.cores = s.cores ∧
    ∀ id ∈ (s.barrel cell).waiting, ∀ r, s.requests.get? id = some r →
      t.requests.get? id = some { r with promoted := r.promoted || decide (r.issued + 256 < s.clk) }) ∧
  (∀ (cell thread id : Nat) (x : Thread) (r : Request) (s : State), s.thread? cell thread = some x → x.wait = .request id →
    s.requests.get? id = some r → r.stage = .served →
      (∀ f, r.fault = some f → exec (.memoryRequestCompletion cell thread) s = .next (s.requestFaults id f.1 f.2)) ∧
      (∀ d n sx, r.fault = none → r.kind = .load d n sx → exec (.memoryRequestCompletion cell thread) s =
        .next ((s.dropRequest id).completes cell thread (r.results r.answer))))

/-- R350 to R352, R354, R355, R357: load samples, migration and the comparison of paired threads. What becomes of a migration whose target has been
retired is the model's choice (log entry 50). -/
def Obligations.MigrationEventsComplete : Prop :=
  (∀ s : State, ∃ t, exec .cloadSample s = .next t ∧ t.mem = s.mem ∧ t.barrels = s.barrels ∧ t.cores = s.cores ∧
    (∀ k < 40, t.cload.getD k 0 = word ((List.range 8).foldl (fun n p => n + s.loadByte (8 * k + p) * 2 ^ (8 * p)) 0)) ∧
    ∀ b ∈ s.barrels, b.2.migEn = true → ∃ e ∈ t.events, e.due = s.clk + 1 ∧ e.item = .op (.migrationChoice b.1)) ∧
  (∀ (cell c slot : Nat) (x : Thread) (s : State), let b := s.barrel cell
    let l := s.cloadByte cell % 128
    (b.threads.filter fun t => t.2.auto && s.eligible cell t.1 t.2).getLast? = some (slot, x) → b.threads.get? slot = some x →
    s.idlest x.ctx cell = some c → b.migEn = true → b.migHi < l → s.cloadByte c % 128 + b.migDiff ≤ l →
      ∃ t, exec (.migrationChoice cell) s = .next t ∧ t.mem = s.mem ∧ t.cores = s.cores ∧
        t.thread? cell slot = some { x with state := .migrating, wait := .migrate 0 (posOf c) } ∧
        ∃ e ∈ t.events, e.due = max (s.clk + 1) x.ready ∧ e.item = .op (.migrationReservation cell slot)) ∧
  (∀ (cell thread d p : Nat) (x : Thread) (s : State), let c := clusterOf cell * 8 + p
    s.thread? cell thread = some x → x.wait = .migrate d p → p < 8 →
      (s.retired c = true → exec (.migrationReservation cell thread) s = .next (s.completes cell thread [.reg d 0])) ∧
      (s.retired c = false → (s.barrel c).smpStart = false → ((s.barrel c).freeSlot = none ∨ (s.barrel c).firstFit x.count = none →
        exec (.migrationReservation cell thread) s = .next (s.completes cell thread [.reg d 0])) ∧
       (∀ slot base, (s.barrel c).freeSlot = some slot → (s.barrel c).firstFit x.count = some base →
        ∃ t, exec (.migrationReservation cell thread) s = .next t ∧ t.mem = s.mem ∧ t.cores = s.cores ∧
          { uid := x.uid, slot, base, count := x.count } ∈ (t.barrel c).reserved ∧ ∃ p : Packet, t.packets.get? s.nextId = some p ∧
          p.dest = routerOf c ∧ p.item = .op (.migrationArrival cell thread)))) ∧
  (∀ (cell thread d p : Nat) (x : Thread) (r : Reservation) (s : State), let c := clusterOf cell * 8 + p
    s.thread? cell thread = some x → x.wait = .migrate d p → c ≠ cell → x.count ≤ 128 →
    (s.barrel c).reserved.find? (fun r => r.uid == x.uid) = some r →
      (s.retired c = true → ∃ t y, exec (.migrationArrival cell thread) s = .next t ∧ t.mem = s.mem ∧ t.cores = s.cores ∧
        t.thread? cell thread = some y ∧ y.state = .runnable ∧ y.pc = x.pc ∧ ∀ q ∈ (t.barrel c).reserved, q.uid ≠ x.uid) ∧
      (s.retired c = false → ∃ t y, exec (.migrationArrival cell thread) s = .next t ∧ t.mem = s.mem ∧ t.cores = s.cores ∧ t.thread? cell thread = none ∧
        t.thread? c r.slot = some y ∧ y.uid = x.uid ∧ y.pc = x.pc ∧ y.ctx = x.ctx ∧ y.base = r.base ∧
        ∀ n < x.count, (t.barrel c).read y.base n = (s.barrel cell).read x.base n)) ∧
  (∀ (cell thread : Nat) (p q : Nat × Request) (s : State),
    (s.requests.findSome? fun (p : Nat × Request) => if p.2.cell == cell && p.2.thread == thread && p.2.compared.isSome then
      ((s.shadowOf p.2).filter fun q => q.2.compared.isSome).map fun q => (p, q) else none) = some (p, q) →
      (p.2.hash = q.2.hash → exec (.pairedComparison cell thread) s =
        .next ((s.updReq q.1 fun r => { r with stage := .away }).launch p.1 p.2 (routerOf p.2.cell))) ∧
      (p.2.hash ≠ q.2.hash → exec (.pairedComparison cell thread) s = .next (s.killPair cell thread 381 p.2.hash q.2.hash))) ∧
  (∀ (cell thread : Nat) (p : Nat × Request) (s : State),
    s.requests.find? (fun (p : Nat × Request) => p.2.cell == cell && p.2.thread == thread &&
      p.2.compared.any fun t => decide (t + 65536 ≤ s.clk)) = some p →
      exec (.pairedTimeout cell thread) s = .next (if p.2.index % 2 = 0 then s.killPair cell thread 382 p.2.hash 0
        else s.killPair cell thread 382 0 p.2.hash))

/-! ## The fabric, the proof engine and collectives -/

/-- R420 to R422, R437, R438, R424 to R427, R419, R432, R380, R434, R441, R372: packets, beats, slices, vault ports, table walks, suffix units
and messages from other packages. That a router output serves one packet in a period is the model's choice (log entry 5), as is the order of sweeps
and write-backs (log entry 51); the comparison of an exchanged counter is its reading (log entries 22 and 32). -/
def Obligations.FabricEventsComplete : Prop :=
  (∀ (id : Nat) (p : Packet) (s : State), s.packets.get? id = some p →
    let turn : Prop := (∀ o, s.outputOf p.here p.next = some o → o.servedAt ≠ s.clk) ∧ ∃ q, s.served p.here p.next = some (id, q)
    (turn → p.here = p.dest → ∃ t, exec (.packetForward id) s = .next t ∧ t.cores = s.cores ∧ t.mem = s.mem ∧
      t.packets = s.packets.erase id ∧ Claims.due t p.item) ∧
    (turn → p.here ≠ p.dest → ∃ t, exec (.packetForward id) s = .next t ∧ t.cores = s.cores ∧ t.mem = s.mem ∧
      t.packets = s.packets.set id { p.step with input := p.here, since := s.clk + 1 } ∧
      ∃ e ∈ t.events, e.due = s.clk + 1 ∧ e.item = .op (.packetForward id)) ∧
    (¬turn → exec (.packetForward id) s = .next (s.after 1 phNet 0 (.op (.packetForward id))))) ∧
  (∀ (here next id : Nat) (p : Packet) (s : State), s.served here next = some (id, p) →
    p.here = here ∧ p.next = next ∧ p.since ≤ s.clk ∧
    (∀ q ∈ s.atOutput here next, q.2.since + 256 ≤ s.clk → p.since + 256 ≤ s.clk ∧ p.since ≤ q.2.since) ∧
    ((∀ q ∈ s.atOutput here next, s.clk < q.2.since + 256) → ∀ q ∈ s.atOutput here next, classRank p.cls ≤ classRank q.2.cls)) ∧
  (∀ (port : Nat) (b : Beat) (s : State), port < 12 →
    let due := b.sent.toNat + (s.link port).lat
    (∀ good, good = false ∨ due < s.tick.toNat → ∃ t, exec (.linkBeatDelivery port good b) s = .next t ∧ t.cores = s.cores ∧
      t.mem = s.mem ∧ (t.link port).err = (s.link port).err + 1) ∧
    (∀ x, b.body = .counter x → s.tick.toNat ≤ due →
      exec (.linkBeatDelivery port true b) s = exec (.counterExchange (x + word (Config.linkLatency port) - s.tick)) s) ∧
    ((∀ x, b.body ≠ .counter x) →
      (s.tick.toNat < due → ∃ t, exec (.linkBeatDelivery port true b) s = .next t ∧ t.cores = s.cores ∧ t.mem = s.mem ∧
        (t.link port).arriving = (s.link port).arriving ++ [b]) ∧
      (s.tick.toNat = due → b.destination ≠ s.pkg.domPos →
        exec (.linkBeatDelivery port true b) s = .next (s.sendBeat (beatClass b.body) b.destination b.body)) ∧
      (∀ gang barrier position tick, s.tick.toNat = due → b.destination = s.pkg.domPos → b.body = .domainArrival gang barrier position tick →
        exec (.linkBeatDelivery port true b) s =
          .next (s.updPkg fun k => { k with domBars := noteArrival gang barrier position tick k.domBars })))) ∧
  (∀ (id : Nat) (r : Request) (s : State), let k := sliceOf r.pa
    let line := lineOf r.pa
    s.requests.get? id = some r → r.stage = .away → s.sliceHolds k (.request id) line r.kind.writes r.kind.writes = false →
      (s.lineReady k line = true ∨ (r.kind.writes = true ∧ r.len = 64) →
        exec (.sliceRequest id) s = .next ((s.performs id r).sliceServed k (.request id))) ∧
      (s.lineReady k line = false → ¬(r.kind.writes = true ∧ r.len = 64) → line ∉ (s.slice k).misses → (s.slice k).misses.length < 256 →
        ∃ t, exec (.sliceRequest id) s = .next t ∧ t.cores = s.cores ∧ t.mem = s.mem ∧ line ∈ (t.slice k).misses ∧
          .request id ∈ (t.slice k).waiting ∧ ∃ p : Packet, t.packets.get? s.nextId = some p ∧ p.item = .miss k line ∧
          p.dest = if inHbm line = true then sliceRouter (k / 16) (k % 16) else portDie)) ∧
  (∀ (k line : Nat) (s : State), inHbm line = true → stackPlate line < 4 → (runItem (.miss k line) s = .next (s.missArrives k line)) ∧
    (s.missArrives k line).mem = s.mem ∧ .fill k line ∈ ((s.missArrives k line).plate (stackPlate line)).dyn) ∧
  (∀ (k line : Nat) (s : State), (s.slice k).canTake line = true → ∃ t, exec (.sliceFill k line) s = .next t ∧ t.cores = s.cores ∧
    t.mem = s.mem ∧ t.barrels = s.barrels ∧ line ∈ (t.slice k).ways ∧
    ∀ id r, .request id ∈ (s.slice k).waiting → s.requests.get? id = some r → Claims.due t (.op (.sliceRequest id))) ∧
  (∀ (k line : Nat) (s : State), (s.slice k).granted = [line] → line ∈ (s.slice k).buffer →
    ∃ t, exec (.writeBackDrain k) s = .next t ∧ t.cores = s.cores ∧ t.mem = s.mem ∧ t.hbmOld = s.hbmOld.erase line ∧
      (t.slice k).buffer = (s.slice k).buffer.erase line ∧ (t.slice k).dirty = (s.slice k).dirty.erase line ∧ (t.slice k).granted = [] ∧
      (t.slice k).dead = (s.slice k).dead.map fun d => (d.1, d.2.erase line)) ∧
  (∀ (k : Nat) (s : State), let x := s.slice k
    let next := (s.nextSwept k).take (64 - x.buffer.length)
    ∃ t, exec (.deadRangeSweep k) s = .next t ∧ t.cores = s.cores ∧ t.mem = s.mem ∧ t.hbmOld = s.hbmOld ∧
      (t.slice k).dead = x.dead.filter (fun d => !(d.2.isEmpty && s.rangeWhole d.1)) ∧
      (∀ l, l ∈ (t.slice k).buffer ↔ l ∈ x.buffer ∨ l ∈ next) ∧
      ∀ l ∈ next, stackPlate l < 4 → .back k l ∈ (t.plate (stackPlate l)).dyn) ∧
  (∀ (id : Nat) (w : Walk) (s : State), s.walks.get? id = some w →
    let x := (s.asUnit (.walk id) false).walk w.plate w.ctx w.va w.write w.fetch
    (∀ r, x = .ok r → exec (.tableWalk id) s = .next (((s.dropUnit (.walk id)).endWalk id w r).walkDone id w r)) ∧
    (∀ pa n, x = .error (.piece pa n) → (s.unitJob (.walk id)).waits = none → ∃ t r, exec (.tableWalk id) s = .next t ∧
      t.cores = s.cores ∧ t.mem = s.mem ∧ t.walks = s.walks ∧ t.requests.get? s.nextId = some r ∧ r.kind = .unit (.walk id) none ∧
      r.pa = pa ∧ r.len = n)) ∧
  (∀ (cluster bank id : Nat) (r : Request) (s : State), s.vaultPorts.getD (cluster * 128 + bank) [] = [.request id] →
    s.requests.get? id = some r → r.stage = .away →
      let s1 : State := { s with vaultPorts := s.vaultPorts.erase (cluster * 128 + bank) }
      (r.kind.writes = false → exec (.vaultNetworkPortService cluster bank) s = .next (s1.performs id r)) ∧
      (r.kind.writes = true → s.poisonAt r = false → exec (.vaultNetworkPortService cluster bank) s =
        .next (s1.after 0 phNet (r.cell * 64 + r.thread) (.vaultPerform id (s.mem.num r.pa r.len))))) ∧
  (∀ (cluster id d func : Nat) (x y z : Word) (rest : List Nat) (q : Sequence) (r : Request) (s : State),
    (s.unit cluster).queue = id :: rest → s.requests.get? id = some r → r.kind = .suffix 0x76 d x y z func →
    (s.ctx r.ctx).killed = false → (s.unit cluster).open'.get? (x.toNat % 256) = some q → q.ctx = r.ctx →
    (s.unit cluster).gens.getD (x.toNat % 256) 0 = x.toNat / 2 ^ 16 % 2 ^ 16 → (s.unit cluster).after = none →
    (s.unitJob (.suffix cluster)).waits = none →
      ∃ t, exec (.suffixIndexRequestService cluster) s = .next t ∧ t.cores = s.cores ∧ t.mem = s.mem ∧
        (t.unit cluster).open' = (s.unit cluster).open'.erase (x.toNat % 256) ∧ (t.unit cluster).queue = rest) ∧
  (∀ s : State, ∃ t, exec .xinvcInvalidate s = .next t ∧ t.cores = s.cores ∧ t.mem = s.mem ∧ t.barrels = s.barrels ∧
    t.pkg.xinvBusy = false ∧ ∀ l ∈ t.pkg.cached, ¬(l.ctx = s.pkg.xinvCtx ∧
      (s.pkg.xinvCount = 0 ∨ meets l.base l.size s.pkg.xinva (s.pkg.xinvCount * 4096) = true))) ∧
  (∀ (m : RemoteMessage) (x : Thread) (s : State), s.thread? m.cell m.thread = some x → x.ctx = m.ctx → s.ownJob = some m.job →
    x.wait = .none → x.inbox.length < 8 →
      ∃ t y e, exec (.remoteMessageArrival m) s = .next t ∧ t.cores = s.cores ∧ t.mem = s.mem ∧ t.thread? m.cell m.thread = some y ∧
        y.inbox = x.inbox ++ [e] ∧ e.words = m.words) ∧
  (∀ (cell thread id d position : Nat) (target : Word) (ws : List Word) (x : Thread) (r : Request) (s : State),
    s.thread? cell thread = some x → x.wait = .request id → s.requests.get? id = some r → r.kind = .remoteSend d position target ws →
      exec (.deliveryContextFailure cell thread) s = .next (s.requestFaults id 372 target))

/-- R391, R392, R395, R400 to R405, R446 to R449: durable lines, the mirror, the keeper, seals and collectives. -/
def Obligations.ProofEventsComplete : Prop :=
  (∀ (id : Nat) (w : WriteThrough) (s : State), s.throughs.get? id = some w → (∀ x ∈ s.throughs, x.1 ≠ id → x.2.line ≠ w.line) →
    exec (.writeThroughAck id) s =
      .next (({ s with throughs := s.throughs.erase id, hbmOld := s.hbmOld.erase w.line }.mirrorLine w).keeperLooks)) ∧
  (∀ (id : Nat) (m : MirrorLine) (s : State), s.mirrors.get? id = some m → m.lost = false →
    (s.clk < m.since + 2 ^ (s.ctx m.ctx).mto → ∃ t, exec (.mirrorTimeout id) s = .next t ∧ t.mem = s.mem ∧ t.cores = s.cores ∧
      t.mirrors = s.mirrors ∧ ∃ e ∈ t.events, e.due = m.since + 2 ^ (s.ctx m.ctx).mto ∧ e.item = .op (.mirrorTimeout id)) ∧
    (m.since + 2 ^ (s.ctx m.ctx).mto ≤ s.clk → ∃ t, exec (.mirrorTimeout id) s = .next t ∧ t.mem = s.mem ∧ (t.ctx m.ctx).mlost = true ∧
      ∀ j x, t.mirrors.get? j = some x → x.ctx = m.ctx → id ≤ j → x.lost = true)) ∧
  (∀ (ctx : Nat) (i : Impression) (s : State), s.impressions.get? ctx = some i → i.stage = .writing →
    (∀ p < 4, s.resetting p = true → i.liesOn p = false) →
    (∀ w ∈ s.throughs, ¬(w.2.ctx = ctx ∧ w.2.agent = keeperAgent)) →
    (∀ m ∈ s.mirrors, ¬(m.2.ctx = ctx ∧ m.2.agent = keeperAgent ∧ i.start ≤ m.2.order)) →
      ∃ t, exec (.sealPages ctx) s = .next t ∧ t.mem = s.mem ∧ t.impressions = s.impressions.erase ctx ∧ (t.ctx ctx).prpi = i.n ∧
        (t.ctx ctx).prpState = 2 ∧ (t.ctx ctx).prpOpen = false) ∧
  (∀ (due id op d func : Nat) (x y : Word) (r : Request) (s : State), s.keeper = [(due, .request id)] → due < s.clk →
    s.requests.get? id = some r → r.kind = .proof op d x y func →
      exec .proofKeeperRequestService s = .next (({ s with keeper := [] }.proofServe id r op x y func).checkReleases)) ∧
  (∀ (cell job : Nat) (x : Collective) (p : Participant) (s : State),
    s.pkg.colls.find? (fun x => x.here.any fun p => p.copy == job) = some x → x.here.find? (fun p => p.copy == job) = some p →
      (∀ cause, p.phase = .abandoned cause → exec (.collectiveComplete cell job) s = .next (s.endsWith p cause)) ∧
      (p.phase = .delivering → (∀ t, (s.core cell).cpy.copy? job = some t → t.lines = []) →
        exec (.collectiveComplete cell job) s = .next (s.endsWith p 0)) ∧
      (∀ cause, p.phase = .served cause → ∃ t, exec (.collectiveComplete cell job) s = .next t ∧
        t.mem = s.mem.putNum (coreStoreBase p.cell + p.record + 56) 8 (statusWord cause (cause != 0) p.flags x.attempt).toNat) ∧
      (p.cell = cell → p.phase.live = true → exec (.collectiveTimeout cell job) s =
        .next ((s.abandonOne p (if p.issued + 2 ^ cTo p.words ≤ s.clk then 371 else 369)).abortToken x.ctx x.id (cMask p.words)))) ∧
  (∀ (ctx id : Nat) (attempt : BitVec 16) (s : State),
    (newer (s.attempt ctx id) attempt = true → exec (.collectivePacketIngress ctx id attempt) s =
      .next (s.updPkg fun k => { k with collDrop := k.collDrop + 1 })) ∧
    (newer attempt (s.attempt ctx id) = true →
      (∃ t, exec (.abortTokenArrival ctx id attempt) s = .next t ∧ t.mem = s.mem ∧ t.attempt ctx id = attempt) ∧
      (newer (s.attempt ctx id) attempt = false →
        exec (.collectivePacketIngress ctx id attempt) s = exec (.abortTokenArrival ctx id attempt) s)) ∧
    (newer attempt (s.attempt ctx id) = false → exec (.abortTokenArrival ctx id attempt) s = .next s))

/-! ## Management -/

/-- The mailbox engine serves a well-formed command at once: nothing waits before it, the package is ready and negotiated, and the ring has
room (R459 to R463). -/
def Claims.serving (s : State) (op : Nat) (c : MailboxCommand) : Prop :=
  s.mgmt.queue = [] ∧ s.mgmt.held = none ∧ s.mgmt.stopped = false ∧ s.mgmt.ready = true ∧ s.mgmt.neg = true ∧ s.mgmt.rec' = false ∧
  s.mgmt.room = true ∧ badCommand op c = false

/-- The response to a command: its words go into the ring. -/
def Claims.answers (s1 : State) (op : Nat) (c : MailboxCommand) (words : List Word) : State :=
  (s1.respond (({ status := 0, cause := 0, words } : Answer).response op c)).dropUnit .mailbox

/-- The command stands in the queue, as it does while the engine looks whether it must wait. -/
def Claims.queued (s : State) (op : Nat) (c : MailboxCommand) : State := s.updMgmt fun m => { m with queue := [(op, c)] }

/-- The report that ATTEST writes (R467): its contents in the spec's order, then the signature and the certificate; the layout is the
model's (log entry 4). -/
def Claims.report (s : State) (c : MailboxCommand) (draw : Nat) : List Byte :=
  let body := cmdBytes c ++ s.mgmt.staging.bytes 0 16 ++ s.mgmt.mrs.toList.flatMap (fun r => leBytes r.toNat 64) ++
    leBytes s.mgmt.agreed.toNat 8 ++ leBytes s.mgmt.running 8 ++
    [0, 1].flatMap (fun i => leBytes (imageVersion ((s.mgmt.slots[i]?.getD FirmwareSlot.reset).image)) 8) ++ leBytes s.pkg.retired.toNat 40
  body ++ Config.attestSignature body draw ++ Config.attestCertificate

/-- R459 to R468: the commands of the mailbox, each with its effect and its response, when their conditions hold; a full queue drops a command. What
READ and WRITE wait for is the model's choice (log entry 5), and the layout of ATTEST's report is log entry 4. -/
def Obligations.MailboxCommandsComplete : Prop :=
  (∀ (i : MailboxCommand → Instr) (op : Nat), (i, op) ∈ [(Instr.neg, 1), (.write, 2), (.read, 3), (.ctxnew, 4), (.ctxrel, 5), (.stage, 6),
      (.commitSystemImage, 7), (.commitFirmware, 7), (.attest, 8), (.evread, 9)] → ∀ (c : MailboxCommand) (s : State),
    (64 ≤ s.mgmt.queue.length → exec (i c) s = .next (s.updMgmt fun m => { m with ovf := true })) ∧
    (s.mgmt.queue ≠ [] → s.mgmt.queue.length < 64 → exec (i c) s = .next (s.updMgmt fun m => { m with queue := m.queue ++ [(op, c)] }))) ∧
  (∀ (c : MailboxCommand) (s : State), s.mgmt.queue = [] → s.mgmt.held = none → s.mgmt.ready = true → s.mgmt.rec' = false →
    s.mgmt.neg = false → s.mgmt.room = true → badCommand 1 c = false →
      ∃ t, exec (.neg c) s = .next t ∧ t.mgmt.neg = true ∧ t.mgmt.agreed = c.data.extractLsb' 0 64 &&& 0x7F ∧ t.cores = s.cores ∧
        t.mgmt.written = s.mgmt.written + 1) ∧
  (∀ (c : MailboxCommand) (ps : List Nat) (s : State), Claims.serving s 2 c → State.badLen c = false →
    (Claims.queued s 2 c).cmdWaits 2 c = none → s.cmdAddresses c true = .ok ps → (∀ pa ∈ ps, inControl pa = false) →
      exec (.write c) s = .next (Claims.answers (s.cmdWrite (ps.zip (cmdBytes c))) 2 c [])) ∧
  (∀ (c : MailboxCommand) (ps : List Nat) (s : State), Claims.serving s 3 c → s.feature 1 = true → State.badLen c = false →
    (Claims.queued s 3 c).cmdWaits 3 c = none → s.cmdAddresses c false = .ok ps → ps.any s.badByte = false →
      exec (.read c) s = .next (Claims.answers (s.bytesAt ps).2 3 c ((List.range ((c.len.toNat + 7) / 8)).map fun i =>
        word ((((s.bytesAt ps).1.drop (8 * i)).take 8).foldr (fun b x => x * 256 + b.toNat) 0)))) ∧
  (∀ (op : Nat) (c : MailboxCommand) (ps : List Nat) (s : State), op = 2 ∨ op = 3 → s.mgmt.stopped = false →
    s.engine = UnitJob.fresh .mailbox → (s.asUnit .mailbox false).cmdPhys c (op == 2) c.len.toNat = .ok (.ok ps) →
      ((∀ pa ∈ ps, s.atOnce (op == 2) pa = true) → s.cmdWaits op c = none) ∧
      (∀ pa ∈ ps, op = 3 → badCommand op c = false → s.cmdReady op (cmdWord c 0) = true → State.badLen c = false →
        s.atOnce false pa = false → ∃ t, s.cmdWaits op c = some t ∧ t.mem = s.mem ∧ t.cores = s.cores)) ∧
  (∀ (c : MailboxCommand) (s : State), Claims.serving s 4 c → (s.ctx c.ctx.toNat).live = false →
    (s.pkg.ctxs.filter fun x => x.2.live).foldl (fun n x => n + x.2.ceiling.toNat) (cmdWord c 0).toNat ≤ s.mgmt.policy →
      ∃ t, exec (.ctxnew c) s = .next t ∧ t.cores = s.cores ∧ t.mgmt.written = s.mgmt.written + 1 ∧
        t.ctx c.ctx.toNat = { Context.reset with live := true, ceiling := (cmdWord c 0).setWidth 32 }) ∧
  (∀ (c : MailboxCommand) (s : State), Claims.serving s 5 c → c.ctx ≠ 0 → (s.ctx c.ctx.toNat).live = true →
    s.contextLive c.ctx.toNat = false → exec (.ctxrel c) s = .next (Claims.answers (s.releaseContext c.ctx.toNat) 5 c [])) ∧
  (∀ (c : MailboxCommand) (s : State), Claims.serving s 6 c → c.word1.toNat + 48 ≤ 2 ^ 26 →
    ∃ t, exec (.stage c) s = .next t ∧ t.cores = s.cores ∧ t.mgmt.staging = s.mgmt.staging.put c.word1.toNat (cmdBytes c) ∧
      t.mgmt.written = s.mgmt.written + 1) ∧
  (∀ (c : MailboxCommand) (s : State), Claims.serving s 7 c → cmdWord c 0 = 0 → s.mgmt.placed = false →
    ∃ t, exec (.commitSystemImage c) s = .next t ∧ t.cores = s.cores ∧ t.mgmt.placed = decide (s.imageStatus = 0) ∧
      t.mgmt.written = s.mgmt.written + 1 ∧ (s.imageStatus = 0 → ∃ e ∈ t.events, s.clk < e.due ∧ e.item = .op .tickLoad)) ∧
  (∀ (c : MailboxCommand) (s : State), Claims.serving s 7 c → cmdWord c 0 = 1 → s.feature 6 = true →
    ∃ t, exec (.commitFirmware c) s = .next t ∧ t.cores = s.cores ∧ t.mgmt.written = s.mgmt.written + 1 ∧ (s.imageStatus = 0 →
      t.mgmt.active = 1 - s.mgmt.running ∧
      t.mgmt.slots[1 - s.mgmt.running]? = some { image := s.mgmt.staging, fails := 0, failed := false })) ∧
  (∀ (c : MailboxCommand) (s : State), Claims.serving s 8 c → s.feature 5 = true →
    exec (.attest c) s = .next (Claims.answers (s.drawValue.2.writeBytes (hostBase + c.word1.toNat % 2 ^ 47) mailboxAgent s.drawValue.2.nextId
      (Claims.report s c s.drawValue.1)) 8 c [])) ∧
  (∀ (pa agent order i : Nat) (b : Byte) (bs : List Byte) (s : State), bs[i]? = some b →
    (s.writeBytes pa agent order bs).mem.get (pa + i) = b) ∧
  (∀ (c : MailboxCommand) (s : State), Claims.serving s 9 c → c.word1.toNat < 4096 →
    exec (.evread c) s = .next (Claims.answers s 9 c (s.mgmt.log.getD c.word1.toNat [0, 0, 0, 0])))

/-- R455, R456, R468, R20, R377, R467, R6, R461, R393, R469, R463, R466: errors, the registers that firmware and the host write, and the resets. What a
package reset and a loss of power keep is the model's reading (log entry 13), as is that an accepted write clears the context's `qrej` (log entry 33)
and how a plate reset and a thermal trip stand beside other traffic (log entry 36). -/
def Obligations.ManagementEventsComplete : Prop :=
  (∀ (cls unit : Nat) (s : State), ∃ t, exec (.correctedError cls unit false) s = .next t ∧ t.tick = s.tick ∧
    (t.errCount cls unit).total = min (2 ^ 32 - 1) ((s.errCount cls unit).total + 1) ∧
    (t.errCount cls unit).win = min 65535 ((s.errCount cls unit).win + 1)) ∧
  (∀ (cls k : Nat) (s : State), ∃ t, exec (.errorWindowStart cls) s = .next t ∧ t.mem = s.mem ∧ t.cores = s.cores ∧
    t.pkg.errCnt.get? k = (s.pkg.errCnt.get? k).map fun x => if k % 8 = cls then { x with win := 0, posted := false } else x) ∧
  (∀ (ctx : Nat) (ceiling : BitVec 32) (s : State), ∃ t, exec (.ceilingChange ctx ceiling) s = .next t ∧ t.mem = s.mem ∧
    t.barrels = s.barrels ∧ t.ctx ctx = { s.ctx ctx with ceiling } ∧ ∀ n c, s.cores.get? n = some c → c.ctx = ctx →
      (t.core n).regs = c.regs ∧ (t.core n).mtx.cap.toNat = min c.mtx.cap.toNat
        (ceiling.toNat / (4 * ((List.range 80).filter fun q => (s.ctx ctx).quads.getLsbD q).length))) ∧
  (∀ (ctx : Nat) (high : Bool) (v : BitVec 64) (s : State), (s.ctx ctx).live = true → ctx < 0xFFFF →
    let new : BitVec 80 := if high then v.setWidth 16 ++ (s.ctx ctx).quads.setWidth 64 else (s.ctx ctx).quads.extractLsb' 64 16 ++ v
    ∃ t, exec (.ctxqWrite ctx high v) s = .next t ∧ t.mem = s.mem ∧ t.cores = s.cores ∧
      (t.ctx ctx).quads = (if s.quadsAllowed ctx new = true then new else (s.ctx ctx).quads) ∧
      (t.ctx ctx).qrej = !s.quadsAllowed ctx new) ∧
  (∀ (g : Nat) (v : BitVec 64) (s : State), let first := v.toNat / 2 ^ 16 % 512
    g < 16 → (s.group g).en = false → v.getLsbD 63 = true → (s.group g).mask.getLsbD first = true →
    (∀ c < 320, (s.group g).mask.getLsbD c = true → s.holds (v.toNat % 2 ^ 16) c = true) →
      ∃ t, exec (.gtctlWrite g v) s = .next t ∧ t.mem = s.mem ∧ t.cores = s.cores ∧ (t.group g).en = true ∧ (t.group g).first = first ∧
        (t.group g).ctx = v.toNat % 2 ^ 16 ∧ (t.group g).round = 0 ∧ (t.group g).holder = none ∧ (t.group g).mask = (s.group g).mask) ∧
  (∀ (r : Nat) (d : BitVec 512) (s : State), s.feature 5 = false → exec (.mrExtend r d) s = .next s) ∧
  (∀ (r : Nat) (d : BitVec 512) (s : State), 3 ≤ r → r ≤ 7 → s.feature 5 = true → exec (.mrExtend r d) s =
    .next (s.updMgmt fun m => { m with mrs := m.mrs.setIfInBounds r (extendMr (m.mrs[r]?.getD 0) d) })) ∧
  (∀ (v : BitVec 64) (s : State), exec (.controlRegisterWrite 0x40 v) s = .next (s.updMgmt fun m => { m with ovf := m.ovf && !v.getLsbD 16 })) ∧
  (∀ (a : Nat) (v : BitVec 64) (s : State), 4096 ≤ a → inControl a = true →
    exec (.controlRegisterWrite a v) s = .next (s.writeRegister (a / 8 * 8) v)) ∧
  (∀ (v : BitVec 64) (s : State), s.mgmt.held = none →
    (v.setWidth 16 - s.mgmt.consumed).toNat ≤ (s.mgmt.written - s.mgmt.consumed).toNat →
      exec (.mbrconWrite v) s = .next (s.updMgmt fun m => { m with consumed := v.setWidth 16 })) ∧
  (∀ (r : PlateReset) (rs : List PlateReset) (s : State), s.pkg.resets = r :: rs →
    (r.step = 1 → exec .plateReset s = .next ((s.resetKills r.plate).resetNext { r with step := 2 })) ∧
    (r.step = 2 → (∀ c ∈ s.contextsOn r.plate, s.kills.get? c = none) →
      exec .plateReset s = .next ((s.resetFlush r.plate).2.resetNext { r with step := 3, lost := (s.resetFlush r.plate).1 })) ∧
    (r.step = 3 → exec .plateReset s = .next ((s.resetThroughs r.plate).resetNext { r with step := 4 })) ∧
    (r.step = 4 → exec .plateReset s = .next ((s.resetPlate r.plate).resetNext { r with step := 5 })) ∧
    (r.step = 5 → exec .plateReset s = .next (s.resetDone r))) ∧
  (∀ s : State, ∃ t, exec .thermalTrip s = .next t ∧ t.mem = s.mem ∧ t.cores = s.cores ∧ t.barrels = s.barrels ∧ t.mgmt.stopped = true) ∧
  (∀ s : State, ∃ t, exec .packageReset s = .next t ∧ t.cores = [] ∧ t.barrels = [] ∧ t.text = [] ∧ t.tick = 0 ∧ t.mem = s.hbmKept ∧
    t.mgmt.released = false ∧ (s.mgmt.active < 2 → s.slotGood 0 = false → s.slotGood 1 = false → t.mgmt.rec' = true ∧ t.mgmt.ready = true)) ∧
  (∀ s : State, s.mgmt.placed = true → s.mgmt.released = false →
    ∃ t, exec .tickLoad s = .next t ∧ t.mem = s.mem ∧ t.cores = s.cores ∧ t.mgmt.released = true) ∧
  (∀ s : State, ∃ t, exec .powerLoss s = .next t ∧ t.cores = [] ∧ t.barrels = [] ∧ t.mem = s.mem.filter (fun c => inHost c.1) ∧
    t.mgmt.slots = s.mgmt.slots ∧ t.mgmt.active = s.mgmt.active ∧ t.mgmt.floor = s.mgmt.floor)

/-! ## The machine as a whole -/

/-- R76, R78, R460: words written out in the spec decode to the instructions they stand for (03_encoding, 06_vector, 07_matrix, 08_copy,
09_windows, 10_barrel, 11_barrel_traps, 12_draft); an opcode that no row has is refused by name. -/
def Obligations.WordsDecode : Prop :=
  decodeSlot 6 0x0030_628A_0000_0040 = .ok (some (.addi ⟨0, 3⟩ ⟨5, 5, 64⟩)) ∧
  decodeSlot 5 0x0000_2390_0004_0030 = .ok (some (.lds ⟨0, 0⟩ { data := 7, base := 2, space := 0, offset := 128, wcls := 0, type := 3, func := 0 })) ∧
  decodeSlot 3 0x0002_4084_180A_0000 = .ok (some (.vfadd ⟨0, 0⟩
    { d := 1, a := 2, b := 3, c := 0, type := 10, rnd := 0, sat := 0, wcls := 0, func := 0 })) ∧
  decodeSlot 3 0x0014_E720_000A_0004 = .ok (some (.vred ⟨0, 1⟩
    { d := 14, a := 16, b := 0, c := 0, type := 10, rnd := 0, sat := 0, wcls := 0, func := 4 })) ∧
  decodeSlot 1 0x0000_8118_79A0_0008 = .ok (some (.mmul ⟨0, 0⟩ { f1 := 2, f2 := 12, f3 := 15, f4 := 13, tag := 0, func := 8 })) ∧
  decodeSlot 0 0x0000_A516_60A0_0012 = .ok (some (.cpg ⟨0, 0⟩ { f1 := 10, f2 := 11, f3 := 12, f4 := 5, tag := 0, func := 0x12 })) ∧
  decodeSlot 7 0x0000_4524_B302_0004 = .ok (some (.wopen ⟨0, 0⟩ { f1 := 10, f2 := 18, f3 := 22, f4 := 24, tag := 2, func := 4 })) ∧
  (∀ x ∈ ([(0x0209_0400_FFFF_FFFD, .barrelAddi, ⟨9, 4, 0, 0xFFFF_FFFD⟩), (0x4800_0102_FFFF_FFFC, .beq, ⟨0, 1, 2, 0xFFFF_FFFC⟩),
      (0x3809_040A_0000_0010, .ld, ⟨9, 4, 10, 16⟩), (0x390A_0903_0000_0000, .st, ⟨10, 9, 3, 0⟩), (0x3D05_0607_0000_06B1, .amo, ⟨5, 6, 7, 0x6B1⟩),
      (0x6808_0400_0000_0000, .sfn, ⟨8, 4, 0, 0⟩), (0x0707_0102_0000_0001, .barrelDiv, ⟨7, 1, 2, 1⟩), (0x8300_0900_0000_0016, .setc, ⟨0, 9, 0, 22⟩),
      (0x8209_0000_0000_0012, .getc, ⟨9, 0, 0, 18⟩), (0x8100_0000_0000_0000, .rte, ⟨0, 0, 0, 0⟩), (0x7208_0102_0000_0025, .sxqry, ⟨8, 1, 2, 37⟩),
      (0x770D_0B0C_0000_0001, .smpd, ⟨13, 11, 12, 1⟩), (0x631B_0500_0000_0000, .tokpass, ⟨27, 5, 0, 0⟩),
      (0x790B_0000_0000_0001, .barrelPrel, ⟨11, 0, 0, 1⟩)] : List (BitVec 64 × Instr × BarrelWord)),
    decodeBarrel x.1 = .ok x.2) ∧
  decodeBarrel 0 = .error (.illegalOpcode 0) ∧ decodeBarrel 0x8500_0000_0000_0000 = .error (.illegalOpcode 0x85)

/-- R63 to R69, R76, R77: for every slot instruction whose fields are legal in a slot that it may stand in, its 58 bits decode in that slot
to it, with every operand. -/
def Obligations.SlotInstructionsRoundTrip : Prop :=
  ∀ (k : Nat) (i : Instr), k ≤ 7 → k ∈ slotsOf i → wellFormed k i = true → ∃ x, encodeSlot i = some x ∧ decodeSlot k x = .ok (some i)

/-- R65, R78 to R81, R460: the same of the crossings, of every barrel instruction with the fields of its word, and of the mailbox commands. -/
def Obligations.OtherEncodingsRoundTrip : Prop :=
  (∀ i : Instr, 8 ∈ slotsOf i → wellFormed 8 i = true → ∃ x, encodeXin i = some x ∧ decodeXin x = .ok (some i)) ∧
  (∀ i : Instr, 9 ∈ slotsOf i → wellFormed 9 i = true → ∃ x, encodeXout i = some x ∧ decodeXout x = .ok (some i)) ∧
  (∀ (i : Instr) (w : BarrelWord), 10 ∈ slotsOf i → wellFormedWord i w = true → ∃ x, encodeBarrel i w = some x ∧ decodeBarrel x = .ok (i, w)) ∧
  (∀ (i : Instr) (op : Nat) (c : MailboxCommand), commandParts i = some (op, c) → c.reserved = 0 → c.ctx ≠ 0xFFFF →
    (op = 7 → if i = .commitSystemImage c then c.data.extractLsb' 0 64 = 0 else c.data.extractLsb' 0 64 = 1) →
      ∃ x, encodeCommand i = some x ∧ decodeCommand x = some i)

/-- R121, R293, R467, R28, R152: what reset leaves: every flag, accumulator, common register and measurement zero, no thread in a slot, no window
open, the byte memories in their canonical form. The values that the spec does not state are the model's (log entry 1), and so is that memory
which nothing has written reads as zero, so that nothing is listed (log entry 2). -/
def Obligations.ResetState : Prop :=
  let s := State.reset
  s.tick = 0 ∧ s.memoriesWf = true ∧ s.mem = [] ∧ (∀ i < 8, s.mgmt.mrs[i]? = some 0) ∧ s.mgmt.released = false ∧
  (∀ c, (s.core c).run = .idle ∧ (s.core c).ctl.va = 0 ∧ (s.core c).ctl.vb = 0 ∧ (s.core c).ctl.mx = 0 ∧ (s.core c).ctl.inh = false ∧
    (s.core c).ctl.lost = false ∧ (∀ n < 64, (s.core c).s' n = 0) ∧ (∀ n < 64, (s.core c).v' n = 0) ∧
    ∀ n < 16, ((s.core c).window n).isOpen = false) ∧
  (∀ c t, s.thread? c t = none) ∧ ∀ c, ∀ n < 16, (s.barrel c).common[n]? = some 0

/-- R73, R74, R78, R287: a step runs what is due first. When that is a thread, the instruction that the word at its program counter decodes to, or
the trap of a word that does not decode; when it is a slot of a timed core, the instruction of that slot in the bundle of the core's group, whose
bundles are those that the text at the program counter decodes to. With nothing due a period passes; a thermal trip (R469) stops all but the host
(log entry 36). The list of what is due, and its order, are the model's choice (log entry 6). -/
def Obligations.StepRunsDecoded : Prop :=
  (∀ (s : State) (e : Event) (es : List Event), s.mgmt.stopped = false → s.events = e :: es → e.due ≤ s.clk →
    let s1 : State := { s with events := es }
    (∀ i, e.item = .op i → step s = exec i s1) ∧
    (∀ cell t x w i f, e.item = .thread cell t → s1.thread? cell t = some x → s1.fetchWord cell x = .ok w → decodeBarrel w = .ok (i, f) →
      overCount x.count i f = none → (s1.barrel cell).poisonRead i f = none →
        step s = exec i { s1.updThread cell t (fun x => { x with fetched := none }) with curB := { cell, thread := t, word := f } }) ∧
    (∀ cell t x w o, e.item = .thread cell t → s1.thread? cell t = some x → s1.fetchWord cell x = .ok w →
      decodeBarrel w = .error (.illegalOpcode o) →
        step s = .next (s1.trapThread cell t 1 (BitVec.ofNat 64 o) x.pc s.clk (s.clk + 1))) ∧
    (∀ cell pc k g b bs i, e.item = .slot cell pc k → (s1.core cell).seq.group = some g → g.bundles = b :: bs →
      (s1.core cell).run = .running → (s1.core cell).seq.drained = false → bundlePc g.base g.index = pc →
      b.instrs.find? (fun x => x.1 == k) = some (k, i) → step s = exec i (s1.atSlot cell pc k g.first g.last)) ∧
    (∀ cell, e.item = .finish cell → step s = .next (s1.finishBundle cell)) ∧
    (∀ cell, e.item = .barrelLand cell → step s = .next (s1.landBarrel cell))) ∧
  (∀ (s : State) (cell : Nat) (pc : BitVec 64) (x : BitVec 512) (b : Bundle), s.bundleAt cell pc = some x → decodeBundle x = .ok b →
    b.stop = true → groupBreach [b] = none → s.checkedGroup cell pc = .ok [b]) ∧
  (∀ s : State, s.mgmt.stopped = false → (∀ e ∈ s.events, s.clk < e.due) → step s = exec .tickIncrement s) ∧
  (∀ s : State, s.mgmt.stopped = true → (∀ e ∈ s.events, e.item.onDie = false) → step s = .fault .clocksStopped)

/-- R145, R146, R137, R125, R129: a timed trap records its registers, leaves every register, access, command and copy as it is and starts the
handler in the later of the next period and the last landing of a scalar, load, vector or crossing result; in a handler, or without one, the core
stops instead. TRAP's bundle ends with it. Any other bundle that ends no iteration is followed by the address after it or by the target of its transfer. One
that ends an iteration of some levels pops those whose count is out, counts the next one down and its index up and goes to its first bundle,
and adds the strides of all of them one tick later. -/
def Obligations.TimedTrapsEnter : Prop :=
  (∀ (cell : Nat) (i : FaultInfo) (rpc : BitVec 64) (s : State), (s.core cell).seq.realign = none →
    let c := s.core cell
    let t := s.takeTrap cell i rpc
    t.mem = s.mem ∧ t.accesses = s.accesses ∧ (t.core cell).regs = c.regs ∧ (t.core cell).mtx = c.mtx ∧ (t.core cell).cpy = c.cpy ∧
    (t.core cell).flights = c.flights ∧
    (c.ctl.inh = false → c.ctl.tvec ≠ 0 →
      (t.core cell).ctl = { c.ctl with tcause := i.cause, tbpc := i.pc.setWidth 64, trpc := rpc.setWidth 64, tslot := i.slot, tlane := i.lane,
                                       ttick := s.tick, tval := i.val, inh := true } ∧
      (t.core cell).seq.pc = c.ctl.tvec.setWidth 64 ∧ (t.core cell).run = c.run ∧ ∃ e ∈ t.events, e.item = .op (.handlerStart cell) ∧
        s.clk + 1 ≤ e.due ∧ (∀ f ∈ c.flights, drainSlot f.slot = true → f.issued < s.clk → f.due ≤ e.due) ∧
        (∀ a ∈ s.accesses, ∀ d land, a.kind = .load d land → a.cell = cell → a.issued < s.clk → land ≤ e.due) ∧
        (e.due = s.clk + 1 ∨ (∃ f ∈ c.flights, e.due = f.due) ∨ ∃ a ∈ s.accesses, ∃ d, a.kind = .load d e.due)) ∧
    (c.ctl.inh = true ∨ c.ctl.tvec = 0 → (t.core cell).ctl = c.ctl ∧ (t.core cell).run = .stopping ∧
      ∃ e ∈ t.events, e.due = s.clk + 1 ∧ e.item = .op (.timedCoreStop cell))) ∧
  (∀ (cell : Nat) (g : Group) (s : State), let c := s.core cell
    let e := bundlePc g.base g.index
    c.seq.group = some g → c.run = .running → c.seq.realign = none → c.clock.prq = false →
    (c.ctl.inh = true ∨ c.seq.taken ≠ none ∨ c.seq.loops.head?.all (fun l => l.last ≠ e) = true) →
      (c.seq.after = some .trap → c.seq.taken = none → c.ctl.inh = false → c.ctl.tvec ≠ 0 →
        ((s.finishBundle cell).core cell).ctl = { c.ctl with
          tcause := 9, tbpc := e.setWidth 64, trpc := (e + 64).setWidth 64, tslot := 6, tlane := 0,
          ttick := s.tick, tval := c.seq.trapVal, inh := true }) ∧
      (c.seq.after = none → ∃ t, s.finishBundle cell = t ∧ (t.core cell).regs = c.regs ∧ t.mem = s.mem ∧
        (t.core cell).seq.pc = c.seq.taken.getD (e + 64) ∧ (t.core cell).seq.loops = c.seq.loops ∧
        ∃ x ∈ t.events, x.item = .op (.groupIssue cell) ∧ x.due = s.clk + (if c.seq.taken.isSome && c.seq.slow then 2 else 1))) ∧
  ∀ (cell : Nat) (g : Group) (ps rest : List LoopLevel) (s : State), let c := s.core cell
    let e := bundlePc g.base g.index
    let strides := ps.flatMap fun x => x.strides
    let ends (loops : List LoopLevel) (adds : List (Nat × Word)) (next : BitVec 64) : Prop := ∃ t, s.finishBundle cell = t ∧
      (t.core cell).regs = c.regs ∧ t.mem = s.mem ∧ (t.core cell).seq.loops = loops ∧ (t.core cell).seq.pc = next ∧
      (adds ≠ [] → ∃ f ∈ (t.core cell).flights, f.due = s.clk + 1 ∧ f.landings = adds.map fun x => .stride x.1 x.2) ∧
      ∃ x ∈ t.events, x.item = .op (.groupIssue cell) ∧ x.due = s.clk + 1
    c.seq.group = some g → c.run = .running → c.seq.realign = none → c.clock.prq = false → c.ctl.inh = false → c.seq.taken = none →
    c.seq.after = none → c.seq.loops = ps ++ rest → (∀ x ∈ ps, x.last = e ∧ x.left.toNat ≤ 1) →
      (ps ≠ [] → rest.head?.all (fun x => x.last ≠ e) = true → ends rest strides (e + 64)) ∧
      ∀ l t, rest = l :: t → l.last = e → 1 < l.left.toNat →
        ends ({ l with left := l.left - 1, index := l.index + 1 } :: t) (strides ++ l.strides) l.start

/-- R67, R118, R119, R143: an instruction of a timed slot changes no register, flag, mode or byte of memory when it issues, of its own core or
another: results land, accesses perform and faults are recorded by later steps. -/
def Obligations.TimedInstructionsFrame : Prop :=
  ∀ (i : Instr) (s t : State), (∃ k ∈ slotsOf i, k ≤ 9) → s.cur.seq.realign = none → exec i s = .next t →
    t.mem = s.mem ∧ t.text = s.text ∧ t.barrels = s.barrels ∧ t.tick = s.tick ∧ t.clk = s.clk ∧ ∀ c,
      (t.core c).regs = (s.core c).regs ∧ (t.core c).ctl.va = (s.core c).ctl.va ∧ (t.core c).ctl.vb = (s.core c).ctl.vb ∧
      (t.core c).ctl.mx = (s.core c).ctl.mx ∧ (t.core c).ctl.rnd = (s.core c).ctl.rnd ∧ (t.core c).ctl.tvec = (s.core c).ctl.tvec ∧
      (t.core c).ctl.tscr = (s.core c).ctl.tscr ∧ (t.core c).ctl.plevel = (s.core c).ctl.plevel ∧
      (c ≠ s.curT.cell → (t.core c).ctl = (s.core c).ctl)

/-- R287 to R289: an instruction of a thread, EXIT apart, changes no register of any thread, no common register, no timed core and no byte
of memory when it issues; EXIT changes no memory and no common register. -/
def Obligations.BarrelInstructionsFrame : Prop :=
  ∀ (i : Instr) (s t : State), 10 ∈ slotsOf i → exec i s = .next t →
    t.mem = s.mem ∧ t.text = s.text ∧ t.cores = s.cores ∧ t.tick = s.tick ∧ t.clk = s.clk ∧ ∀ c,
      (t.barrel c).common = (s.barrel c).common ∧ (i ≠ .exit → (t.barrel c).file = (s.barrel c).file)

/-- R69, R79, R118, R152, R288: p0, pv0 and x0 read as constants and discard writes; any other register holds what is written last and no other
register changes; the writes due on a barrel core land. -/
def Obligations.RegistersHoldWrites : Prop :=
  (∀ (c : Core) (r : TimedRegs) (v : Bool) (x m : Mask), c.p' 0 = true ∧ c.pv' 0 = BitVec.allOnes 256 ∧ r.setP 0 v = r ∧ r.setPv 0 x m = r) ∧
  (∀ (c : Core) (n : Nat) (v : Word), n < 64 → ({ c with regs := c.regs.setS n v }.s' n = v ∧
    ∀ k, k ≠ n → { c with regs := c.regs.setS n v }.s' k = c.s' k)) ∧
  (∀ (c : Core) (n : Nat) (v : Bool), 0 < n → n < 16 → ({ c with regs := c.regs.setP n v }.p' n = v ∧
    ∀ k, k ≠ n → { c with regs := c.regs.setP n v }.p' k = c.p' k)) ∧
  (∀ (c : Core) (n : Nat) (x m : VReg), n < 64 → (∀ j < 2048,
      ({ c with regs := c.regs.setV n x m }.v' n).getLsbD j = if m.getLsbD j then x.getLsbD j else (c.v' n).getLsbD j) ∧
    ∀ k, k ≠ n → { c with regs := c.regs.setV n x m }.v' k = c.v' k) ∧
  (∀ (c : Core) (n : Nat) (v : Word), n < 16 → ({ c with regs := c.regs.setA n v }.a' n = v ∧
    ∀ k, k ≠ n → { c with regs := c.regs.setA n v }.a' k = c.a' k)) ∧
  (∀ (c : Core) (n : Nat) (x m : Mask), n < 8 → (∀ j < 256,
      ({ c with regs := c.regs.setK n x m }.k' n).getLsbD j = if m.getLsbD j then x.getLsbD j else (c.k' n).getLsbD j) ∧
    ∀ k, k ≠ n → { c with regs := c.regs.setK n x m }.k' k = c.k' k) ∧
  (∀ (c : Core) (n : Nat) (x m : Mask), 0 < n → n < 16 → (∀ j < 256,
      ({ c with regs := c.regs.setPv n x m }.pv' n).getLsbD j = if m.getLsbD j then x.getLsbD j else (c.pv' n).getLsbD j) ∧
    ∀ k, k ≠ n → { c with regs := c.regs.setPv n x m }.pv' k = c.pv' k) ∧
  (∀ (b : BarrelCore) (base : Nat) (v : Word), b.read base 0 = 0 ∧ b.write base 0 v = b) ∧
  (∀ (b : BarrelCore) (base n : Nat) (v : Word), 0 < n → n < 144 → (b.write base n v).read base n = v ∧
    ∀ k < 144, k ≠ n → (b.write base n v).read base k = b.read base k) ∧
  ∀ (cell n : Nat) (v : Word) (x : Thread) (f : BarrelFlight) (s : State), (s.barrel cell).flights = [f] → f.due ≤ s.clk →
    f.writes = [.reg n v] → s.named cell f.thread f.uid = some x → (s.landBarrel cell).mem = s.mem ∧
      ((s.landBarrel cell).barrel cell).common = ((s.barrel cell).write x.base n v).common ∧
      ((s.landBarrel cell).barrel cell).file = ((s.barrel cell).write x.base n v).file ∧ ((s.landBarrel cell).barrel cell).flights = []

/-- Every step keeps every byte memory in its one canonical form (R16, R123, R460). -/
def Obligations.MemoriesStayCanonical : Prop :=
  ∀ s t : State, s.memoriesWf = true → step s = .next t → t.memoriesWf = true
end

