-- ==== Sys2Proof/Laws/Memory.lean ====
section
/-! SUPPORT. Byte memories: reads after writes, and the canonical form that every operation keeps. -/

namespace Sys2Proof.Machine

open Sys2Proof

/-! ## The canonical form -/

theorem Memory.wf_iff (m : Memory) :
    Memory.wf m = true ↔ List.Pairwise (fun c d : Host.Cell => c.1 < d.1) m ∧ ∀ c ∈ m, c.2 ≠ 0 := by
  induction m with
  | nil => simp [Memory.wf]
  | cons c m ih =>
    cases m with
    | nil => simp [Memory.wf]
    | cons d m =>
      simp only [Memory.wf, Bool.and_eq_true, bne_iff_ne, decide_eq_true_eq, ih, List.pairwise_cons, List.mem_cons,
        forall_eq_or_imp]
      constructor
      · rintro ⟨⟨hc, hd⟩, ⟨h1, h2⟩, h3, h4⟩
        exact ⟨⟨⟨hd, fun x hx => Nat.lt_trans hd (h1 x hx)⟩, h1, h2⟩, hc, h3, h4⟩
      · rintro ⟨⟨⟨hd, _⟩, h1, h2⟩, hc, h3, h4⟩
        exact ⟨⟨hc, hd⟩, ⟨h1, h2⟩, h3, h4⟩

theorem Memory.wf_nil : Memory.wf [] = true := rfl

theorem Memory.wf_filter {m : Memory} (h : Memory.wf m = true) (p : Host.Cell → Bool) : Memory.wf (m.filter p) = true := by
  rw [Memory.wf_iff] at *
  exact ⟨h.1.filter p, fun c hc => h.2 c (List.mem_of_mem_filter hc)⟩

theorem Memory.wf_slice {m : Memory} (h : Memory.wf m = true) (a n : Nat) : Memory.wf (m.slice a n) = true :=
  Memory.wf_filter h _

/-- The cells of consecutive bytes lie in their range. -/
theorem Memory.mem_cells {a : Nat} {bs : List Byte} {c : Host.Cell} (h : c ∈ Memory.cells a bs) :
    a ≤ c.1 ∧ c.1 < a + bs.length := by
  induction bs generalizing a with
  | nil => simp [Memory.cells] at h
  | cons b bs ih =>
    simp only [Memory.cells] at h
    split at h
    · have := ih h; simp only [List.length_cons]; omega
    · rcases List.mem_cons.mp h with rfl | h
      · simp
      · have := ih h; simp only [List.length_cons]; omega

theorem Memory.wf_cells (a : Nat) (bs : List Byte) : Memory.wf (Memory.cells a bs) = true := by
  induction bs generalizing a with
  | nil => rfl
  | cons b bs ih =>
    simp only [Memory.cells]
    split
    · exact ih _
    · rename_i hb
      rw [Memory.wf_iff]
      have h := (Memory.wf_iff _).mp (ih (a + 1))
      refine ⟨List.pairwise_cons.mpr ⟨fun c hc => ?_, h.1⟩, ?_⟩
      · have := (Memory.mem_cells hc).1; simp only; omega
      · intro c hc
        rcases List.mem_cons.mp hc with rfl | hc
        · simpa using hb
        · exact h.2 c hc

/-- Replacing a range by canonical cells of that range keeps the canonical form. -/
theorem Memory.wf_splice {m cs : Memory} {a n : Nat} (h : Memory.wf m = true) (hc : Memory.wf cs = true)
    (hr : ∀ c ∈ cs, a ≤ c.1 ∧ c.1 < a + n) : Memory.wf (m.splice a n cs) = true := by
  rw [Memory.wf_iff] at *
  constructor
  · unfold Memory.splice
    rw [List.pairwise_append, List.pairwise_append]
    refine ⟨⟨h.1.filter _, hc.1, ?_⟩, h.1.filter _, ?_⟩
    · intro x hx y hy
      have h1 := (List.mem_filter.mp hx).2
      have h2 := hr y hy
      simp only [decide_eq_true_eq] at h1; omega
    · intro x hx y hy
      have h1 := (List.mem_filter.mp hy).2
      simp only [decide_eq_true_eq] at h1
      rcases List.mem_append.mp hx with hx | hx
      · have h2 := (List.mem_filter.mp hx).2
        simp only [decide_eq_true_eq] at h2; omega
      · have h2 := hr x hx; omega
  · intro c hc'
    unfold Memory.splice at hc'
    rcases List.mem_append.mp hc' with hx | hx
    · rcases List.mem_append.mp hx with hx | hx
      · exact h.2 c (List.mem_of_mem_filter hx)
      · exact hc.2 c hx
    · exact h.2 c (List.mem_of_mem_filter hx)

theorem Memory.wf_put {m : Memory} (h : Memory.wf m = true) (a : Nat) (bs : List Byte) : Memory.wf (m.put a bs) = true :=
  Memory.wf_splice h (Memory.wf_cells a bs) fun _ hc => Memory.mem_cells hc

theorem Memory.wf_putNum {m : Memory} (h : Memory.wf m = true) (a n x : Nat) : Memory.wf (m.putNum a n x) = true :=
  Memory.wf_put h a _

theorem Memory.wf_putMasked {m : Memory} (h : Memory.wf m = true) (a n x mask : Nat) :
    Memory.wf (m.putMasked a n x mask) = true := Memory.wf_put h a _

theorem Memory.wf_shift {m : Memory} (h : Memory.wf m = true) (src dst : Nat) (hs : ∀ c ∈ m, src ≤ c.1) :
    Memory.wf (m.shift src dst) = true := by
  rw [Memory.wf_iff] at *
  unfold Memory.shift
  constructor
  · refine List.pairwise_map.mpr (h.1.imp_of_mem fun {x y} hx hy hxy => ?_)
    have := hs x hx; have := hs y hy; simp only; omega
  · intro c hc
    obtain ⟨d, hd, rfl⟩ := List.mem_map.mp hc
    exact h.2 d hd

theorem Memory.wf_copyFrom {m m' : Memory} (h : Memory.wf m = true) (h' : Memory.wf m' = true) (src dst n : Nat) :
    Memory.wf (m.copyFrom m' src dst n) = true := by
  have hs : ∀ c ∈ m'.slice src n, src ≤ c.1 ∧ c.1 < src + n := fun c hc => by
    have := (List.mem_filter.mp hc).2; simpa using this
  refine Memory.wf_splice h (Memory.wf_shift (Memory.wf_slice h' src n) src dst fun c hc => (hs c hc).1) fun c hc => ?_
  obtain ⟨d, hd, rfl⟩ := List.mem_map.mp hc
  have := hs d hd; simp only; omega

/-! ## Reads after writes -/

theorem Memory.get_append_of_not_mem {m m' : Memory} {x : Nat} (h : ∀ c ∈ m, c.1 ≠ x) :
    Memory.get (m ++ m') x = Memory.get m' x := by
  induction m with
  | nil => rfl
  | cons c m ih =>
    have hc := h c (by simp)
    simp only [List.cons_append, Memory.get, beq_iff_eq, hc, if_false]
    exact ih fun d hd => h d (by simp [hd])

theorem Memory.get_of_not_mem {m : Memory} {x : Nat} (h : ∀ c ∈ m, c.1 ≠ x) : Memory.get m x = 0 := by
  have := Memory.get_append_of_not_mem (m' := []) h
  rwa [List.append_nil] at this

/-- A filter that keeps every cell of an address keeps its byte. -/
theorem Memory.get_filter {m : Memory} {p : Host.Cell → Bool} {x : Nat} (h : ∀ b, p (x, b) = true) :
    Memory.get (m.filter p) x = Memory.get m x := by
  induction m with
  | nil => rfl
  | cons c m ih =>
    rw [List.filter_cons]
    split
    · simp only [Memory.get, ih]
    · rename_i hc
      have : c.1 ≠ x := fun hx => hc (by have := h c.2; rwa [← hx] at this)
      simp only [Memory.get, beq_iff_eq, this, if_false, ih]

theorem Memory.get_append_of_mem_right {m m' : Memory} {x : Nat} (h : ∀ c ∈ m', c.1 ≠ x) :
    Memory.get (m ++ m') x = Memory.get m x := by
  induction m with
  | nil => simpa [Memory.get] using Memory.get_of_not_mem h
  | cons c m ih => simp only [List.cons_append, Memory.get, ih]

theorem Memory.get_cells (a : Nat) (bs : List Byte) (x : Nat) :
    Memory.get (Memory.cells a bs) x = if a ≤ x then bs[x - a]?.getD 0 else 0 := by
  induction bs generalizing a with
  | nil => simp [Memory.cells, Memory.get]
  | cons b bs ih =>
    simp only [Memory.cells, beq_iff_eq]
    by_cases hx : a = x
    · subst hx
      split
      · rename_i hb
        rw [ih, if_neg (by omega)]; simp [hb]
      · simp [Memory.get]
    · have hr : (if a + 1 ≤ x then bs[x - (a + 1)]?.getD 0 else 0) = (if a ≤ x then (b :: bs)[x - a]?.getD 0 else 0) := by
        by_cases h : a ≤ x
        · rw [if_pos (by omega), if_pos h]
          obtain ⟨k, rfl⟩ : ∃ k, x = a + 1 + k := ⟨x - (a + 1), by omega⟩
          rw [show a + 1 + k - (a + 1) = k by omega, show a + 1 + k - a = k + 1 by omega]
          rfl
        · rw [if_neg (by omega), if_neg h]
      split
      · rw [ih, hr]
      · simp only [Memory.get, beq_iff_eq, hx, if_false]
        rw [ih, hr]

/-- A write gives the bytes written inside its range and leaves every other byte. -/
theorem Memory.get_put (m : Memory) (a : Nat) (bs : List Byte) (x : Nat) :
    (m.put a bs).get x = if a ≤ x ∧ x < a + bs.length then bs[x - a]?.getD 0 else m.get x := by
  unfold Memory.put Memory.splice
  by_cases h1 : x < a
  · rw [if_neg (by omega), List.append_assoc, Memory.get_append_of_mem_right, Memory.get_filter (by simpa using h1)]
    intro c hc
    rcases List.mem_append.mp hc with hc | hc
    · have := Memory.mem_cells hc; omega
    · have := (List.mem_filter.mp hc).2; simp only [decide_eq_true_eq] at this; omega
  · have hl : ∀ c ∈ m.filter (fun c => decide (c.1 < a)), c.1 ≠ x := fun c hc => by
      have := (List.mem_filter.mp hc).2; simp only [decide_eq_true_eq] at this; omega
    rw [List.append_assoc, Memory.get_append_of_not_mem hl]
    by_cases h2 : x < a + bs.length
    · rw [if_pos ⟨by omega, h2⟩, Memory.get_append_of_mem_right, Memory.get_cells, if_pos (by omega)]
      intro c hc
      have := (List.mem_filter.mp hc).2; simp only [decide_eq_true_eq] at this; omega
    · rw [if_neg (by omega), Memory.get_append_of_not_mem, Memory.get_filter (by simp; omega)]
      intro c hc
      have := Memory.mem_cells hc; omega

@[simp] theorem leBytes_length (x n : Nat) : (leBytes x n).length = n := by
  induction n generalizing x with
  | zero => rfl
  | succ n ih => simp [leBytes, ih]

theorem leBytes_get (x n i : Nat) (h : i < n) : (leBytes x n)[i]?.getD 0 = BitVec.ofNat 8 (x / 256 ^ i) := by
  induction n generalizing x i with
  | zero => omega
  | succ n ih =>
    cases i with
    | zero => simp [leBytes]
    | succ i => simp only [leBytes, List.getElem?_cons_succ]; rw [ih _ _ (by omega), Nat.div_div_eq_div_mul, Nat.pow_succ']

/-- A number written reads back byte by byte, little-endian (R5), and every other byte is left. -/
theorem Memory.get_putNum (m : Memory) (a n x y : Nat) :
    (m.putNum a n x).get y = if a ≤ y ∧ y < a + n then BitVec.ofNat 8 (x / 256 ^ (y - a)) else m.get y := by
  unfold Memory.putNum
  rw [Memory.get_put, leBytes_length]
  split
  · rw [leBytes_get _ _ _ (by omega)]
  · rfl

/-! ## Tables -/

/-- A table's own entry after it is set. -/
theorem Table.get?_set_self {α : Type} (t : Table α) (k : Nat) (v : α) : (t.set k v).get? k = some v := by
  induction t with
  | nil => simp [Table.set, Table.get?]
  | cons c t ih =>
    simp only [Table.set]
    split
    · rename_i hck
      have : c.1 ≠ k := by omega
      simp [Table.get?, this, ih]
    · split <;> simp [Table.get?]

/-- Every other entry of a table is as it was. -/
theorem Table.get?_set_ne {α : Type} (t : Table α) (k j : Nat) (v : α) (h : j ≠ k) : (t.set k v).get? j = t.get? j := by
  induction t with
  | nil => simp [Table.set, Table.get?, Ne.symm h]
  | cons c t ih =>
    simp only [Table.set]
    split
    · simp only [Table.get?, ih]
    · split
      · rename_i _ hck
        have hck : c.1 = k := by simpa using hck
        have : c.1 ≠ j := by omega
        simp [Table.get?, this, Ne.symm h]
      · simp [Table.get?, Ne.symm h]

@[simp] theorem Table.getD_set_self {α : Type} (t : Table α) (k : Nat) (v d : α) : (t.set k v).getD k d = v := by
  simp [Table.getD, Table.get?_set_self]

theorem Table.getD_set_ne {α : Type} (t : Table α) (k j : Nat) (v d : α) (h : j ≠ k) : (t.set k v).getD j d = t.getD j d := by
  simp [Table.getD, Table.get?_set_ne t k j v h]

end Sys2Proof.Machine
end

