-- ==== Sys2Proof/Laws/State.lean ====
section
/-! SUPPORT. What each update of the state leaves as it was: one lemma per field and update. -/

namespace Sys2Proof.Machine

variable (s : State)

/-! ## `State.setCore` changes `cores` only -/

@[simp] theorem State.setCore_clk (cell : Nat) (c : Core) : (s.setCore cell c).clk = s.clk := rfl
@[simp] theorem State.setCore_tick (cell : Nat) (c : Core) : (s.setCore cell c).tick = s.tick := rfl
@[simp] theorem State.setCore_stepBy (cell : Nat) (c : Core) : (s.setCore cell c).stepBy = s.stepBy := rfl
@[simp] theorem State.setCore_events (cell : Nat) (c : Core) : (s.setCore cell c).events = s.events := rfl
@[simp] theorem State.setCore_rank (cell : Nat) (c : Core) : (s.setCore cell c).rank = s.rank := rfl
@[simp] theorem State.setCore_free (cell : Nat) (c : Core) : (s.setCore cell c).free = s.free := rfl
@[simp] theorem State.setCore_curT (cell : Nat) (c : Core) : (s.setCore cell c).curT = s.curT := rfl
@[simp] theorem State.setCore_curB (cell : Nat) (c : Core) : (s.setCore cell c).curB = s.curB := rfl
@[simp] theorem State.setCore_mem (cell : Nat) (c : Core) : (s.setCore cell c).mem = s.mem := rfl
@[simp] theorem State.setCore_text (cell : Nat) (c : Core) : (s.setCore cell c).text = s.text := rfl
@[simp] theorem State.setCore_hbmOld (cell : Nat) (c : Core) : (s.setCore cell c).hbmOld = s.hbmOld := rfl
@[simp] theorem State.setCore_throughs (cell : Nat) (c : Core) : (s.setCore cell c).throughs = s.throughs := rfl
@[simp] theorem State.setCore_walks (cell : Nat) (c : Core) : (s.setCore cell c).walks = s.walks := rfl
@[simp] theorem State.setCore_units (cell : Nat) (c : Core) : (s.setCore cell c).units = s.units := rfl
@[simp] theorem State.setCore_curU (cell : Nat) (c : Core) : (s.setCore cell c).curU = s.curU := rfl
@[simp] theorem State.setCore_held (cell : Nat) (c : Core) : (s.setCore cell c).held = s.held := rfl
@[simp] theorem State.setCore_vaultPorts (cell : Nat) (c : Core) : (s.setCore cell c).vaultPorts = s.vaultPorts := rfl
@[simp] theorem State.setCore_scratchPorts (cell : Nat) (c : Core) : (s.setCore cell c).scratchPorts = s.scratchPorts := rfl
@[simp] theorem State.setCore_barrels (cell : Nat) (c : Core) : (s.setCore cell c).barrels = s.barrels := rfl
@[simp] theorem State.setCore_cload (cell : Nat) (c : Core) : (s.setCore cell c).cload = s.cload := rfl
@[simp] theorem State.setCore_requests (cell : Nat) (c : Core) : (s.setCore cell c).requests = s.requests := rfl
@[simp] theorem State.setCore_full (cell : Nat) (c : Core) : (s.setCore cell c).full = s.full := rfl
@[simp] theorem State.setCore_parked (cell : Nat) (c : Core) : (s.setCore cell c).parked = s.parked := rfl
@[simp] theorem State.setCore_past (cell : Nat) (c : Core) : (s.setCore cell c).past = s.past := rfl
@[simp] theorem State.setCore_marks (cell : Nat) (c : Core) : (s.setCore cell c).marks = s.marks := rfl
@[simp] theorem State.setCore_suffix (cell : Nat) (c : Core) : (s.setCore cell c).suffix = s.suffix := rfl
@[simp] theorem State.setCore_groups (cell : Nat) (c : Core) : (s.setCore cell c).groups = s.groups := rfl
@[simp] theorem State.setCore_impressions (cell : Nat) (c : Core) : (s.setCore cell c).impressions = s.impressions := rfl
@[simp] theorem State.setCore_slotPages (cell : Nat) (c : Core) : (s.setCore cell c).slotPages = s.slotPages := rfl
@[simp] theorem State.setCore_releases (cell : Nat) (c : Core) : (s.setCore cell c).releases = s.releases := rfl
@[simp] theorem State.setCore_mirrors (cell : Nat) (c : Core) : (s.setCore cell c).mirrors = s.mirrors := rfl
@[simp] theorem State.setCore_keeper (cell : Nat) (c : Core) : (s.setCore cell c).keeper = s.keeper := rfl
@[simp] theorem State.setCore_kills (cell : Nat) (c : Core) : (s.setCore cell c).kills = s.kills := rfl
@[simp] theorem State.setCore_accesses (cell : Nat) (c : Core) : (s.setCore cell c).accesses = s.accesses := rfl
@[simp] theorem State.setCore_packets (cell : Nat) (c : Core) : (s.setCore cell c).packets = s.packets := rfl
@[simp] theorem State.setCore_outputs (cell : Nat) (c : Core) : (s.setCore cell c).outputs = s.outputs := rfl
@[simp] theorem State.setCore_lastSent (cell : Nat) (c : Core) : (s.setCore cell c).lastSent = s.lastSent := rfl
@[simp] theorem State.setCore_remotes (cell : Nat) (c : Core) : (s.setCore cell c).remotes = s.remotes := rfl
@[simp] theorem State.setCore_nextId (cell : Nat) (c : Core) : (s.setCore cell c).nextId = s.nextId := rfl
@[simp] theorem State.setCore_pkg (cell : Nat) (c : Core) : (s.setCore cell c).pkg = s.pkg := rfl
@[simp] theorem State.setCore_mgmt (cell : Nat) (c : Core) : (s.setCore cell c).mgmt = s.mgmt := rfl

/-! ## `State.updCore` changes `cores` only -/

@[simp] theorem State.updCore_clk (cell : Nat) (f : Core → Core) : (s.updCore cell f).clk = s.clk := rfl
@[simp] theorem State.updCore_tick (cell : Nat) (f : Core → Core) : (s.updCore cell f).tick = s.tick := rfl
@[simp] theorem State.updCore_stepBy (cell : Nat) (f : Core → Core) : (s.updCore cell f).stepBy = s.stepBy := rfl
@[simp] theorem State.updCore_events (cell : Nat) (f : Core → Core) : (s.updCore cell f).events = s.events := rfl
@[simp] theorem State.updCore_rank (cell : Nat) (f : Core → Core) : (s.updCore cell f).rank = s.rank := rfl
@[simp] theorem State.updCore_free (cell : Nat) (f : Core → Core) : (s.updCore cell f).free = s.free := rfl
@[simp] theorem State.updCore_curT (cell : Nat) (f : Core → Core) : (s.updCore cell f).curT = s.curT := rfl
@[simp] theorem State.updCore_curB (cell : Nat) (f : Core → Core) : (s.updCore cell f).curB = s.curB := rfl
@[simp] theorem State.updCore_mem (cell : Nat) (f : Core → Core) : (s.updCore cell f).mem = s.mem := rfl
@[simp] theorem State.updCore_text (cell : Nat) (f : Core → Core) : (s.updCore cell f).text = s.text := rfl
@[simp] theorem State.updCore_hbmOld (cell : Nat) (f : Core → Core) : (s.updCore cell f).hbmOld = s.hbmOld := rfl
@[simp] theorem State.updCore_throughs (cell : Nat) (f : Core → Core) : (s.updCore cell f).throughs = s.throughs := rfl
@[simp] theorem State.updCore_walks (cell : Nat) (f : Core → Core) : (s.updCore cell f).walks = s.walks := rfl
@[simp] theorem State.updCore_units (cell : Nat) (f : Core → Core) : (s.updCore cell f).units = s.units := rfl
@[simp] theorem State.updCore_curU (cell : Nat) (f : Core → Core) : (s.updCore cell f).curU = s.curU := rfl
@[simp] theorem State.updCore_held (cell : Nat) (f : Core → Core) : (s.updCore cell f).held = s.held := rfl
@[simp] theorem State.updCore_vaultPorts (cell : Nat) (f : Core → Core) : (s.updCore cell f).vaultPorts = s.vaultPorts := rfl
@[simp] theorem State.updCore_scratchPorts (cell : Nat) (f : Core → Core) : (s.updCore cell f).scratchPorts = s.scratchPorts := rfl
@[simp] theorem State.updCore_barrels (cell : Nat) (f : Core → Core) : (s.updCore cell f).barrels = s.barrels := rfl
@[simp] theorem State.updCore_cload (cell : Nat) (f : Core → Core) : (s.updCore cell f).cload = s.cload := rfl
@[simp] theorem State.updCore_requests (cell : Nat) (f : Core → Core) : (s.updCore cell f).requests = s.requests := rfl
@[simp] theorem State.updCore_full (cell : Nat) (f : Core → Core) : (s.updCore cell f).full = s.full := rfl
@[simp] theorem State.updCore_parked (cell : Nat) (f : Core → Core) : (s.updCore cell f).parked = s.parked := rfl
@[simp] theorem State.updCore_past (cell : Nat) (f : Core → Core) : (s.updCore cell f).past = s.past := rfl
@[simp] theorem State.updCore_marks (cell : Nat) (f : Core → Core) : (s.updCore cell f).marks = s.marks := rfl
@[simp] theorem State.updCore_suffix (cell : Nat) (f : Core → Core) : (s.updCore cell f).suffix = s.suffix := rfl
@[simp] theorem State.updCore_groups (cell : Nat) (f : Core → Core) : (s.updCore cell f).groups = s.groups := rfl
@[simp] theorem State.updCore_impressions (cell : Nat) (f : Core → Core) : (s.updCore cell f).impressions = s.impressions := rfl
@[simp] theorem State.updCore_slotPages (cell : Nat) (f : Core → Core) : (s.updCore cell f).slotPages = s.slotPages := rfl
@[simp] theorem State.updCore_releases (cell : Nat) (f : Core → Core) : (s.updCore cell f).releases = s.releases := rfl
@[simp] theorem State.updCore_mirrors (cell : Nat) (f : Core → Core) : (s.updCore cell f).mirrors = s.mirrors := rfl
@[simp] theorem State.updCore_keeper (cell : Nat) (f : Core → Core) : (s.updCore cell f).keeper = s.keeper := rfl
@[simp] theorem State.updCore_kills (cell : Nat) (f : Core → Core) : (s.updCore cell f).kills = s.kills := rfl
@[simp] theorem State.updCore_accesses (cell : Nat) (f : Core → Core) : (s.updCore cell f).accesses = s.accesses := rfl
@[simp] theorem State.updCore_packets (cell : Nat) (f : Core → Core) : (s.updCore cell f).packets = s.packets := rfl
@[simp] theorem State.updCore_outputs (cell : Nat) (f : Core → Core) : (s.updCore cell f).outputs = s.outputs := rfl
@[simp] theorem State.updCore_lastSent (cell : Nat) (f : Core → Core) : (s.updCore cell f).lastSent = s.lastSent := rfl
@[simp] theorem State.updCore_remotes (cell : Nat) (f : Core → Core) : (s.updCore cell f).remotes = s.remotes := rfl
@[simp] theorem State.updCore_nextId (cell : Nat) (f : Core → Core) : (s.updCore cell f).nextId = s.nextId := rfl
@[simp] theorem State.updCore_pkg (cell : Nat) (f : Core → Core) : (s.updCore cell f).pkg = s.pkg := rfl
@[simp] theorem State.updCore_mgmt (cell : Nat) (f : Core → Core) : (s.updCore cell f).mgmt = s.mgmt := rfl

/-! ## `State.updPkg` changes `pkg` only -/

@[simp] theorem State.updPkg_clk (f : Package → Package) : (s.updPkg f).clk = s.clk := rfl
@[simp] theorem State.updPkg_tick (f : Package → Package) : (s.updPkg f).tick = s.tick := rfl
@[simp] theorem State.updPkg_stepBy (f : Package → Package) : (s.updPkg f).stepBy = s.stepBy := rfl
@[simp] theorem State.updPkg_events (f : Package → Package) : (s.updPkg f).events = s.events := rfl
@[simp] theorem State.updPkg_rank (f : Package → Package) : (s.updPkg f).rank = s.rank := rfl
@[simp] theorem State.updPkg_free (f : Package → Package) : (s.updPkg f).free = s.free := rfl
@[simp] theorem State.updPkg_curT (f : Package → Package) : (s.updPkg f).curT = s.curT := rfl
@[simp] theorem State.updPkg_curB (f : Package → Package) : (s.updPkg f).curB = s.curB := rfl
@[simp] theorem State.updPkg_mem (f : Package → Package) : (s.updPkg f).mem = s.mem := rfl
@[simp] theorem State.updPkg_text (f : Package → Package) : (s.updPkg f).text = s.text := rfl
@[simp] theorem State.updPkg_hbmOld (f : Package → Package) : (s.updPkg f).hbmOld = s.hbmOld := rfl
@[simp] theorem State.updPkg_throughs (f : Package → Package) : (s.updPkg f).throughs = s.throughs := rfl
@[simp] theorem State.updPkg_walks (f : Package → Package) : (s.updPkg f).walks = s.walks := rfl
@[simp] theorem State.updPkg_units (f : Package → Package) : (s.updPkg f).units = s.units := rfl
@[simp] theorem State.updPkg_curU (f : Package → Package) : (s.updPkg f).curU = s.curU := rfl
@[simp] theorem State.updPkg_held (f : Package → Package) : (s.updPkg f).held = s.held := rfl
@[simp] theorem State.updPkg_vaultPorts (f : Package → Package) : (s.updPkg f).vaultPorts = s.vaultPorts := rfl
@[simp] theorem State.updPkg_scratchPorts (f : Package → Package) : (s.updPkg f).scratchPorts = s.scratchPorts := rfl
@[simp] theorem State.updPkg_barrels (f : Package → Package) : (s.updPkg f).barrels = s.barrels := rfl
@[simp] theorem State.updPkg_cload (f : Package → Package) : (s.updPkg f).cload = s.cload := rfl
@[simp] theorem State.updPkg_requests (f : Package → Package) : (s.updPkg f).requests = s.requests := rfl
@[simp] theorem State.updPkg_full (f : Package → Package) : (s.updPkg f).full = s.full := rfl
@[simp] theorem State.updPkg_parked (f : Package → Package) : (s.updPkg f).parked = s.parked := rfl
@[simp] theorem State.updPkg_past (f : Package → Package) : (s.updPkg f).past = s.past := rfl
@[simp] theorem State.updPkg_marks (f : Package → Package) : (s.updPkg f).marks = s.marks := rfl
@[simp] theorem State.updPkg_suffix (f : Package → Package) : (s.updPkg f).suffix = s.suffix := rfl
@[simp] theorem State.updPkg_groups (f : Package → Package) : (s.updPkg f).groups = s.groups := rfl
@[simp] theorem State.updPkg_impressions (f : Package → Package) : (s.updPkg f).impressions = s.impressions := rfl
@[simp] theorem State.updPkg_slotPages (f : Package → Package) : (s.updPkg f).slotPages = s.slotPages := rfl
@[simp] theorem State.updPkg_releases (f : Package → Package) : (s.updPkg f).releases = s.releases := rfl
@[simp] theorem State.updPkg_mirrors (f : Package → Package) : (s.updPkg f).mirrors = s.mirrors := rfl
@[simp] theorem State.updPkg_keeper (f : Package → Package) : (s.updPkg f).keeper = s.keeper := rfl
@[simp] theorem State.updPkg_kills (f : Package → Package) : (s.updPkg f).kills = s.kills := rfl
@[simp] theorem State.updPkg_cores (f : Package → Package) : (s.updPkg f).cores = s.cores := rfl
@[simp] theorem State.updPkg_accesses (f : Package → Package) : (s.updPkg f).accesses = s.accesses := rfl
@[simp] theorem State.updPkg_packets (f : Package → Package) : (s.updPkg f).packets = s.packets := rfl
@[simp] theorem State.updPkg_outputs (f : Package → Package) : (s.updPkg f).outputs = s.outputs := rfl
@[simp] theorem State.updPkg_lastSent (f : Package → Package) : (s.updPkg f).lastSent = s.lastSent := rfl
@[simp] theorem State.updPkg_remotes (f : Package → Package) : (s.updPkg f).remotes = s.remotes := rfl
@[simp] theorem State.updPkg_nextId (f : Package → Package) : (s.updPkg f).nextId = s.nextId := rfl
@[simp] theorem State.updPkg_mgmt (f : Package → Package) : (s.updPkg f).mgmt = s.mgmt := rfl

/-! ## `State.updMgmt` changes `mgmt` only -/

@[simp] theorem State.updMgmt_clk (f : Management → Management) : (s.updMgmt f).clk = s.clk := rfl
@[simp] theorem State.updMgmt_tick (f : Management → Management) : (s.updMgmt f).tick = s.tick := rfl
@[simp] theorem State.updMgmt_stepBy (f : Management → Management) : (s.updMgmt f).stepBy = s.stepBy := rfl
@[simp] theorem State.updMgmt_events (f : Management → Management) : (s.updMgmt f).events = s.events := rfl
@[simp] theorem State.updMgmt_rank (f : Management → Management) : (s.updMgmt f).rank = s.rank := rfl
@[simp] theorem State.updMgmt_free (f : Management → Management) : (s.updMgmt f).free = s.free := rfl
@[simp] theorem State.updMgmt_curT (f : Management → Management) : (s.updMgmt f).curT = s.curT := rfl
@[simp] theorem State.updMgmt_curB (f : Management → Management) : (s.updMgmt f).curB = s.curB := rfl
@[simp] theorem State.updMgmt_mem (f : Management → Management) : (s.updMgmt f).mem = s.mem := rfl
@[simp] theorem State.updMgmt_text (f : Management → Management) : (s.updMgmt f).text = s.text := rfl
@[simp] theorem State.updMgmt_hbmOld (f : Management → Management) : (s.updMgmt f).hbmOld = s.hbmOld := rfl
@[simp] theorem State.updMgmt_throughs (f : Management → Management) : (s.updMgmt f).throughs = s.throughs := rfl
@[simp] theorem State.updMgmt_walks (f : Management → Management) : (s.updMgmt f).walks = s.walks := rfl
@[simp] theorem State.updMgmt_units (f : Management → Management) : (s.updMgmt f).units = s.units := rfl
@[simp] theorem State.updMgmt_curU (f : Management → Management) : (s.updMgmt f).curU = s.curU := rfl
@[simp] theorem State.updMgmt_held (f : Management → Management) : (s.updMgmt f).held = s.held := rfl
@[simp] theorem State.updMgmt_vaultPorts (f : Management → Management) : (s.updMgmt f).vaultPorts = s.vaultPorts := rfl
@[simp] theorem State.updMgmt_scratchPorts (f : Management → Management) : (s.updMgmt f).scratchPorts = s.scratchPorts := rfl
@[simp] theorem State.updMgmt_barrels (f : Management → Management) : (s.updMgmt f).barrels = s.barrels := rfl
@[simp] theorem State.updMgmt_cload (f : Management → Management) : (s.updMgmt f).cload = s.cload := rfl
@[simp] theorem State.updMgmt_requests (f : Management → Management) : (s.updMgmt f).requests = s.requests := rfl
@[simp] theorem State.updMgmt_full (f : Management → Management) : (s.updMgmt f).full = s.full := rfl
@[simp] theorem State.updMgmt_parked (f : Management → Management) : (s.updMgmt f).parked = s.parked := rfl
@[simp] theorem State.updMgmt_past (f : Management → Management) : (s.updMgmt f).past = s.past := rfl
@[simp] theorem State.updMgmt_marks (f : Management → Management) : (s.updMgmt f).marks = s.marks := rfl
@[simp] theorem State.updMgmt_suffix (f : Management → Management) : (s.updMgmt f).suffix = s.suffix := rfl
@[simp] theorem State.updMgmt_groups (f : Management → Management) : (s.updMgmt f).groups = s.groups := rfl
@[simp] theorem State.updMgmt_impressions (f : Management → Management) : (s.updMgmt f).impressions = s.impressions := rfl
@[simp] theorem State.updMgmt_slotPages (f : Management → Management) : (s.updMgmt f).slotPages = s.slotPages := rfl
@[simp] theorem State.updMgmt_releases (f : Management → Management) : (s.updMgmt f).releases = s.releases := rfl
@[simp] theorem State.updMgmt_mirrors (f : Management → Management) : (s.updMgmt f).mirrors = s.mirrors := rfl
@[simp] theorem State.updMgmt_keeper (f : Management → Management) : (s.updMgmt f).keeper = s.keeper := rfl
@[simp] theorem State.updMgmt_kills (f : Management → Management) : (s.updMgmt f).kills = s.kills := rfl
@[simp] theorem State.updMgmt_cores (f : Management → Management) : (s.updMgmt f).cores = s.cores := rfl
@[simp] theorem State.updMgmt_accesses (f : Management → Management) : (s.updMgmt f).accesses = s.accesses := rfl
@[simp] theorem State.updMgmt_packets (f : Management → Management) : (s.updMgmt f).packets = s.packets := rfl
@[simp] theorem State.updMgmt_outputs (f : Management → Management) : (s.updMgmt f).outputs = s.outputs := rfl
@[simp] theorem State.updMgmt_lastSent (f : Management → Management) : (s.updMgmt f).lastSent = s.lastSent := rfl
@[simp] theorem State.updMgmt_remotes (f : Management → Management) : (s.updMgmt f).remotes = s.remotes := rfl
@[simp] theorem State.updMgmt_nextId (f : Management → Management) : (s.updMgmt f).nextId = s.nextId := rfl
@[simp] theorem State.updMgmt_pkg (f : Management → Management) : (s.updMgmt f).pkg = s.pkg := rfl

/-! ## `State.updBarrel` changes `barrels` only -/

@[simp] theorem State.updBarrel_clk (cell : Nat) (f : BarrelCore → BarrelCore) : (s.updBarrel cell f).clk = s.clk := rfl
@[simp] theorem State.updBarrel_tick (cell : Nat) (f : BarrelCore → BarrelCore) : (s.updBarrel cell f).tick = s.tick := rfl
@[simp] theorem State.updBarrel_stepBy (cell : Nat) (f : BarrelCore → BarrelCore) : (s.updBarrel cell f).stepBy = s.stepBy := rfl
@[simp] theorem State.updBarrel_events (cell : Nat) (f : BarrelCore → BarrelCore) : (s.updBarrel cell f).events = s.events := rfl
@[simp] theorem State.updBarrel_rank (cell : Nat) (f : BarrelCore → BarrelCore) : (s.updBarrel cell f).rank = s.rank := rfl
@[simp] theorem State.updBarrel_free (cell : Nat) (f : BarrelCore → BarrelCore) : (s.updBarrel cell f).free = s.free := rfl
@[simp] theorem State.updBarrel_curT (cell : Nat) (f : BarrelCore → BarrelCore) : (s.updBarrel cell f).curT = s.curT := rfl
@[simp] theorem State.updBarrel_curB (cell : Nat) (f : BarrelCore → BarrelCore) : (s.updBarrel cell f).curB = s.curB := rfl
@[simp] theorem State.updBarrel_mem (cell : Nat) (f : BarrelCore → BarrelCore) : (s.updBarrel cell f).mem = s.mem := rfl
@[simp] theorem State.updBarrel_text (cell : Nat) (f : BarrelCore → BarrelCore) : (s.updBarrel cell f).text = s.text := rfl
@[simp] theorem State.updBarrel_hbmOld (cell : Nat) (f : BarrelCore → BarrelCore) : (s.updBarrel cell f).hbmOld = s.hbmOld := rfl
@[simp] theorem State.updBarrel_throughs (cell : Nat) (f : BarrelCore → BarrelCore) : (s.updBarrel cell f).throughs = s.throughs := rfl
@[simp] theorem State.updBarrel_walks (cell : Nat) (f : BarrelCore → BarrelCore) : (s.updBarrel cell f).walks = s.walks := rfl
@[simp] theorem State.updBarrel_units (cell : Nat) (f : BarrelCore → BarrelCore) : (s.updBarrel cell f).units = s.units := rfl
@[simp] theorem State.updBarrel_curU (cell : Nat) (f : BarrelCore → BarrelCore) : (s.updBarrel cell f).curU = s.curU := rfl
@[simp] theorem State.updBarrel_held (cell : Nat) (f : BarrelCore → BarrelCore) : (s.updBarrel cell f).held = s.held := rfl
@[simp] theorem State.updBarrel_vaultPorts (cell : Nat) (f : BarrelCore → BarrelCore) : (s.updBarrel cell f).vaultPorts = s.vaultPorts := rfl
@[simp] theorem State.updBarrel_scratchPorts (cell : Nat) (f : BarrelCore → BarrelCore) : (s.updBarrel cell f).scratchPorts = s.scratchPorts := rfl
@[simp] theorem State.updBarrel_cload (cell : Nat) (f : BarrelCore → BarrelCore) : (s.updBarrel cell f).cload = s.cload := rfl
@[simp] theorem State.updBarrel_requests (cell : Nat) (f : BarrelCore → BarrelCore) : (s.updBarrel cell f).requests = s.requests := rfl
@[simp] theorem State.updBarrel_full (cell : Nat) (f : BarrelCore → BarrelCore) : (s.updBarrel cell f).full = s.full := rfl
@[simp] theorem State.updBarrel_parked (cell : Nat) (f : BarrelCore → BarrelCore) : (s.updBarrel cell f).parked = s.parked := rfl
@[simp] theorem State.updBarrel_past (cell : Nat) (f : BarrelCore → BarrelCore) : (s.updBarrel cell f).past = s.past := rfl
@[simp] theorem State.updBarrel_marks (cell : Nat) (f : BarrelCore → BarrelCore) : (s.updBarrel cell f).marks = s.marks := rfl
@[simp] theorem State.updBarrel_suffix (cell : Nat) (f : BarrelCore → BarrelCore) : (s.updBarrel cell f).suffix = s.suffix := rfl
@[simp] theorem State.updBarrel_groups (cell : Nat) (f : BarrelCore → BarrelCore) : (s.updBarrel cell f).groups = s.groups := rfl
@[simp] theorem State.updBarrel_impressions (cell : Nat) (f : BarrelCore → BarrelCore) : (s.updBarrel cell f).impressions = s.impressions := rfl
@[simp] theorem State.updBarrel_slotPages (cell : Nat) (f : BarrelCore → BarrelCore) : (s.updBarrel cell f).slotPages = s.slotPages := rfl
@[simp] theorem State.updBarrel_releases (cell : Nat) (f : BarrelCore → BarrelCore) : (s.updBarrel cell f).releases = s.releases := rfl
@[simp] theorem State.updBarrel_mirrors (cell : Nat) (f : BarrelCore → BarrelCore) : (s.updBarrel cell f).mirrors = s.mirrors := rfl
@[simp] theorem State.updBarrel_keeper (cell : Nat) (f : BarrelCore → BarrelCore) : (s.updBarrel cell f).keeper = s.keeper := rfl
@[simp] theorem State.updBarrel_kills (cell : Nat) (f : BarrelCore → BarrelCore) : (s.updBarrel cell f).kills = s.kills := rfl
@[simp] theorem State.updBarrel_cores (cell : Nat) (f : BarrelCore → BarrelCore) : (s.updBarrel cell f).cores = s.cores := rfl
@[simp] theorem State.updBarrel_accesses (cell : Nat) (f : BarrelCore → BarrelCore) : (s.updBarrel cell f).accesses = s.accesses := rfl
@[simp] theorem State.updBarrel_packets (cell : Nat) (f : BarrelCore → BarrelCore) : (s.updBarrel cell f).packets = s.packets := rfl
@[simp] theorem State.updBarrel_outputs (cell : Nat) (f : BarrelCore → BarrelCore) : (s.updBarrel cell f).outputs = s.outputs := rfl
@[simp] theorem State.updBarrel_lastSent (cell : Nat) (f : BarrelCore → BarrelCore) : (s.updBarrel cell f).lastSent = s.lastSent := rfl
@[simp] theorem State.updBarrel_remotes (cell : Nat) (f : BarrelCore → BarrelCore) : (s.updBarrel cell f).remotes = s.remotes := rfl
@[simp] theorem State.updBarrel_nextId (cell : Nat) (f : BarrelCore → BarrelCore) : (s.updBarrel cell f).nextId = s.nextId := rfl
@[simp] theorem State.updBarrel_pkg (cell : Nat) (f : BarrelCore → BarrelCore) : (s.updBarrel cell f).pkg = s.pkg := rfl
@[simp] theorem State.updBarrel_mgmt (cell : Nat) (f : BarrelCore → BarrelCore) : (s.updBarrel cell f).mgmt = s.mgmt := rfl

/-! ## `State.asUnit` changes `curU` only -/

@[simp] theorem State.asUnit_clk (u : MemUnit) (force : Bool) : (s.asUnit u force).clk = s.clk := rfl
@[simp] theorem State.asUnit_tick (u : MemUnit) (force : Bool) : (s.asUnit u force).tick = s.tick := rfl
@[simp] theorem State.asUnit_stepBy (u : MemUnit) (force : Bool) : (s.asUnit u force).stepBy = s.stepBy := rfl
@[simp] theorem State.asUnit_events (u : MemUnit) (force : Bool) : (s.asUnit u force).events = s.events := rfl
@[simp] theorem State.asUnit_rank (u : MemUnit) (force : Bool) : (s.asUnit u force).rank = s.rank := rfl
@[simp] theorem State.asUnit_free (u : MemUnit) (force : Bool) : (s.asUnit u force).free = s.free := rfl
@[simp] theorem State.asUnit_curT (u : MemUnit) (force : Bool) : (s.asUnit u force).curT = s.curT := rfl
@[simp] theorem State.asUnit_curB (u : MemUnit) (force : Bool) : (s.asUnit u force).curB = s.curB := rfl
@[simp] theorem State.asUnit_mem (u : MemUnit) (force : Bool) : (s.asUnit u force).mem = s.mem := rfl
@[simp] theorem State.asUnit_text (u : MemUnit) (force : Bool) : (s.asUnit u force).text = s.text := rfl
@[simp] theorem State.asUnit_hbmOld (u : MemUnit) (force : Bool) : (s.asUnit u force).hbmOld = s.hbmOld := rfl
@[simp] theorem State.asUnit_throughs (u : MemUnit) (force : Bool) : (s.asUnit u force).throughs = s.throughs := rfl
@[simp] theorem State.asUnit_walks (u : MemUnit) (force : Bool) : (s.asUnit u force).walks = s.walks := rfl
@[simp] theorem State.asUnit_units (u : MemUnit) (force : Bool) : (s.asUnit u force).units = s.units := rfl
@[simp] theorem State.asUnit_held (u : MemUnit) (force : Bool) : (s.asUnit u force).held = s.held := rfl
@[simp] theorem State.asUnit_vaultPorts (u : MemUnit) (force : Bool) : (s.asUnit u force).vaultPorts = s.vaultPorts := rfl
@[simp] theorem State.asUnit_scratchPorts (u : MemUnit) (force : Bool) : (s.asUnit u force).scratchPorts = s.scratchPorts := rfl
@[simp] theorem State.asUnit_barrels (u : MemUnit) (force : Bool) : (s.asUnit u force).barrels = s.barrels := rfl
@[simp] theorem State.asUnit_cload (u : MemUnit) (force : Bool) : (s.asUnit u force).cload = s.cload := rfl
@[simp] theorem State.asUnit_requests (u : MemUnit) (force : Bool) : (s.asUnit u force).requests = s.requests := rfl
@[simp] theorem State.asUnit_full (u : MemUnit) (force : Bool) : (s.asUnit u force).full = s.full := rfl
@[simp] theorem State.asUnit_parked (u : MemUnit) (force : Bool) : (s.asUnit u force).parked = s.parked := rfl
@[simp] theorem State.asUnit_past (u : MemUnit) (force : Bool) : (s.asUnit u force).past = s.past := rfl
@[simp] theorem State.asUnit_marks (u : MemUnit) (force : Bool) : (s.asUnit u force).marks = s.marks := rfl
@[simp] theorem State.asUnit_suffix (u : MemUnit) (force : Bool) : (s.asUnit u force).suffix = s.suffix := rfl
@[simp] theorem State.asUnit_groups (u : MemUnit) (force : Bool) : (s.asUnit u force).groups = s.groups := rfl
@[simp] theorem State.asUnit_impressions (u : MemUnit) (force : Bool) : (s.asUnit u force).impressions = s.impressions := rfl
@[simp] theorem State.asUnit_slotPages (u : MemUnit) (force : Bool) : (s.asUnit u force).slotPages = s.slotPages := rfl
@[simp] theorem State.asUnit_releases (u : MemUnit) (force : Bool) : (s.asUnit u force).releases = s.releases := rfl
@[simp] theorem State.asUnit_mirrors (u : MemUnit) (force : Bool) : (s.asUnit u force).mirrors = s.mirrors := rfl
@[simp] theorem State.asUnit_keeper (u : MemUnit) (force : Bool) : (s.asUnit u force).keeper = s.keeper := rfl
@[simp] theorem State.asUnit_kills (u : MemUnit) (force : Bool) : (s.asUnit u force).kills = s.kills := rfl
@[simp] theorem State.asUnit_cores (u : MemUnit) (force : Bool) : (s.asUnit u force).cores = s.cores := rfl
@[simp] theorem State.asUnit_accesses (u : MemUnit) (force : Bool) : (s.asUnit u force).accesses = s.accesses := rfl
@[simp] theorem State.asUnit_packets (u : MemUnit) (force : Bool) : (s.asUnit u force).packets = s.packets := rfl
@[simp] theorem State.asUnit_outputs (u : MemUnit) (force : Bool) : (s.asUnit u force).outputs = s.outputs := rfl
@[simp] theorem State.asUnit_lastSent (u : MemUnit) (force : Bool) : (s.asUnit u force).lastSent = s.lastSent := rfl
@[simp] theorem State.asUnit_remotes (u : MemUnit) (force : Bool) : (s.asUnit u force).remotes = s.remotes := rfl
@[simp] theorem State.asUnit_nextId (u : MemUnit) (force : Bool) : (s.asUnit u force).nextId = s.nextId := rfl
@[simp] theorem State.asUnit_pkg (u : MemUnit) (force : Bool) : (s.asUnit u force).pkg = s.pkg := rfl
@[simp] theorem State.asUnit_mgmt (u : MemUnit) (force : Bool) : (s.asUnit u force).mgmt = s.mgmt := rfl

/-! ## `State.dropUnit` changes `units` only -/

@[simp] theorem State.dropUnit_clk (u : MemUnit) : (s.dropUnit u).clk = s.clk := rfl
@[simp] theorem State.dropUnit_tick (u : MemUnit) : (s.dropUnit u).tick = s.tick := rfl
@[simp] theorem State.dropUnit_stepBy (u : MemUnit) : (s.dropUnit u).stepBy = s.stepBy := rfl
@[simp] theorem State.dropUnit_events (u : MemUnit) : (s.dropUnit u).events = s.events := rfl
@[simp] theorem State.dropUnit_rank (u : MemUnit) : (s.dropUnit u).rank = s.rank := rfl
@[simp] theorem State.dropUnit_free (u : MemUnit) : (s.dropUnit u).free = s.free := rfl
@[simp] theorem State.dropUnit_curT (u : MemUnit) : (s.dropUnit u).curT = s.curT := rfl
@[simp] theorem State.dropUnit_curB (u : MemUnit) : (s.dropUnit u).curB = s.curB := rfl
@[simp] theorem State.dropUnit_mem (u : MemUnit) : (s.dropUnit u).mem = s.mem := rfl
@[simp] theorem State.dropUnit_text (u : MemUnit) : (s.dropUnit u).text = s.text := rfl
@[simp] theorem State.dropUnit_hbmOld (u : MemUnit) : (s.dropUnit u).hbmOld = s.hbmOld := rfl
@[simp] theorem State.dropUnit_throughs (u : MemUnit) : (s.dropUnit u).throughs = s.throughs := rfl
@[simp] theorem State.dropUnit_walks (u : MemUnit) : (s.dropUnit u).walks = s.walks := rfl
@[simp] theorem State.dropUnit_curU (u : MemUnit) : (s.dropUnit u).curU = s.curU := rfl
@[simp] theorem State.dropUnit_held (u : MemUnit) : (s.dropUnit u).held = s.held := rfl
@[simp] theorem State.dropUnit_vaultPorts (u : MemUnit) : (s.dropUnit u).vaultPorts = s.vaultPorts := rfl
@[simp] theorem State.dropUnit_scratchPorts (u : MemUnit) : (s.dropUnit u).scratchPorts = s.scratchPorts := rfl
@[simp] theorem State.dropUnit_barrels (u : MemUnit) : (s.dropUnit u).barrels = s.barrels := rfl
@[simp] theorem State.dropUnit_cload (u : MemUnit) : (s.dropUnit u).cload = s.cload := rfl
@[simp] theorem State.dropUnit_requests (u : MemUnit) : (s.dropUnit u).requests = s.requests := rfl
@[simp] theorem State.dropUnit_full (u : MemUnit) : (s.dropUnit u).full = s.full := rfl
@[simp] theorem State.dropUnit_parked (u : MemUnit) : (s.dropUnit u).parked = s.parked := rfl
@[simp] theorem State.dropUnit_past (u : MemUnit) : (s.dropUnit u).past = s.past := rfl
@[simp] theorem State.dropUnit_marks (u : MemUnit) : (s.dropUnit u).marks = s.marks := rfl
@[simp] theorem State.dropUnit_suffix (u : MemUnit) : (s.dropUnit u).suffix = s.suffix := rfl
@[simp] theorem State.dropUnit_groups (u : MemUnit) : (s.dropUnit u).groups = s.groups := rfl
@[simp] theorem State.dropUnit_impressions (u : MemUnit) : (s.dropUnit u).impressions = s.impressions := rfl
@[simp] theorem State.dropUnit_slotPages (u : MemUnit) : (s.dropUnit u).slotPages = s.slotPages := rfl
@[simp] theorem State.dropUnit_releases (u : MemUnit) : (s.dropUnit u).releases = s.releases := rfl
@[simp] theorem State.dropUnit_mirrors (u : MemUnit) : (s.dropUnit u).mirrors = s.mirrors := rfl
@[simp] theorem State.dropUnit_keeper (u : MemUnit) : (s.dropUnit u).keeper = s.keeper := rfl
@[simp] theorem State.dropUnit_kills (u : MemUnit) : (s.dropUnit u).kills = s.kills := rfl
@[simp] theorem State.dropUnit_cores (u : MemUnit) : (s.dropUnit u).cores = s.cores := rfl
@[simp] theorem State.dropUnit_accesses (u : MemUnit) : (s.dropUnit u).accesses = s.accesses := rfl
@[simp] theorem State.dropUnit_packets (u : MemUnit) : (s.dropUnit u).packets = s.packets := rfl
@[simp] theorem State.dropUnit_outputs (u : MemUnit) : (s.dropUnit u).outputs = s.outputs := rfl
@[simp] theorem State.dropUnit_lastSent (u : MemUnit) : (s.dropUnit u).lastSent = s.lastSent := rfl
@[simp] theorem State.dropUnit_remotes (u : MemUnit) : (s.dropUnit u).remotes = s.remotes := rfl
@[simp] theorem State.dropUnit_nextId (u : MemUnit) : (s.dropUnit u).nextId = s.nextId := rfl
@[simp] theorem State.dropUnit_pkg (u : MemUnit) : (s.dropUnit u).pkg = s.pkg := rfl
@[simp] theorem State.dropUnit_mgmt (u : MemUnit) : (s.dropUnit u).mgmt = s.mgmt := rfl

/-! ## `State.setUnit` changes `units` only -/

@[simp] theorem State.setUnit_clk (j : UnitJob) : (s.setUnit j).clk = s.clk := rfl
@[simp] theorem State.setUnit_tick (j : UnitJob) : (s.setUnit j).tick = s.tick := rfl
@[simp] theorem State.setUnit_stepBy (j : UnitJob) : (s.setUnit j).stepBy = s.stepBy := rfl
@[simp] theorem State.setUnit_events (j : UnitJob) : (s.setUnit j).events = s.events := rfl
@[simp] theorem State.setUnit_rank (j : UnitJob) : (s.setUnit j).rank = s.rank := rfl
@[simp] theorem State.setUnit_free (j : UnitJob) : (s.setUnit j).free = s.free := rfl
@[simp] theorem State.setUnit_curT (j : UnitJob) : (s.setUnit j).curT = s.curT := rfl
@[simp] theorem State.setUnit_curB (j : UnitJob) : (s.setUnit j).curB = s.curB := rfl
@[simp] theorem State.setUnit_mem (j : UnitJob) : (s.setUnit j).mem = s.mem := rfl
@[simp] theorem State.setUnit_text (j : UnitJob) : (s.setUnit j).text = s.text := rfl
@[simp] theorem State.setUnit_hbmOld (j : UnitJob) : (s.setUnit j).hbmOld = s.hbmOld := rfl
@[simp] theorem State.setUnit_throughs (j : UnitJob) : (s.setUnit j).throughs = s.throughs := rfl
@[simp] theorem State.setUnit_walks (j : UnitJob) : (s.setUnit j).walks = s.walks := rfl
@[simp] theorem State.setUnit_curU (j : UnitJob) : (s.setUnit j).curU = s.curU := rfl
@[simp] theorem State.setUnit_held (j : UnitJob) : (s.setUnit j).held = s.held := rfl
@[simp] theorem State.setUnit_vaultPorts (j : UnitJob) : (s.setUnit j).vaultPorts = s.vaultPorts := rfl
@[simp] theorem State.setUnit_scratchPorts (j : UnitJob) : (s.setUnit j).scratchPorts = s.scratchPorts := rfl
@[simp] theorem State.setUnit_barrels (j : UnitJob) : (s.setUnit j).barrels = s.barrels := rfl
@[simp] theorem State.setUnit_cload (j : UnitJob) : (s.setUnit j).cload = s.cload := rfl
@[simp] theorem State.setUnit_requests (j : UnitJob) : (s.setUnit j).requests = s.requests := rfl
@[simp] theorem State.setUnit_full (j : UnitJob) : (s.setUnit j).full = s.full := rfl
@[simp] theorem State.setUnit_parked (j : UnitJob) : (s.setUnit j).parked = s.parked := rfl
@[simp] theorem State.setUnit_past (j : UnitJob) : (s.setUnit j).past = s.past := rfl
@[simp] theorem State.setUnit_marks (j : UnitJob) : (s.setUnit j).marks = s.marks := rfl
@[simp] theorem State.setUnit_suffix (j : UnitJob) : (s.setUnit j).suffix = s.suffix := rfl
@[simp] theorem State.setUnit_groups (j : UnitJob) : (s.setUnit j).groups = s.groups := rfl
@[simp] theorem State.setUnit_impressions (j : UnitJob) : (s.setUnit j).impressions = s.impressions := rfl
@[simp] theorem State.setUnit_slotPages (j : UnitJob) : (s.setUnit j).slotPages = s.slotPages := rfl
@[simp] theorem State.setUnit_releases (j : UnitJob) : (s.setUnit j).releases = s.releases := rfl
@[simp] theorem State.setUnit_mirrors (j : UnitJob) : (s.setUnit j).mirrors = s.mirrors := rfl
@[simp] theorem State.setUnit_keeper (j : UnitJob) : (s.setUnit j).keeper = s.keeper := rfl
@[simp] theorem State.setUnit_kills (j : UnitJob) : (s.setUnit j).kills = s.kills := rfl
@[simp] theorem State.setUnit_cores (j : UnitJob) : (s.setUnit j).cores = s.cores := rfl
@[simp] theorem State.setUnit_accesses (j : UnitJob) : (s.setUnit j).accesses = s.accesses := rfl
@[simp] theorem State.setUnit_packets (j : UnitJob) : (s.setUnit j).packets = s.packets := rfl
@[simp] theorem State.setUnit_outputs (j : UnitJob) : (s.setUnit j).outputs = s.outputs := rfl
@[simp] theorem State.setUnit_lastSent (j : UnitJob) : (s.setUnit j).lastSent = s.lastSent := rfl
@[simp] theorem State.setUnit_remotes (j : UnitJob) : (s.setUnit j).remotes = s.remotes := rfl
@[simp] theorem State.setUnit_nextId (j : UnitJob) : (s.setUnit j).nextId = s.nextId := rfl
@[simp] theorem State.setUnit_pkg (j : UnitJob) : (s.setUnit j).pkg = s.pkg := rfl
@[simp] theorem State.setUnit_mgmt (j : UnitJob) : (s.setUnit j).mgmt = s.mgmt := rfl

/-! ## `State.updReq` changes `requests` only -/

@[simp] theorem State.updReq_clk (id : Nat) (f : Request → Request) : (s.updReq id f).clk = s.clk := by
  unfold State.updReq; split <;> rfl
@[simp] theorem State.updReq_tick (id : Nat) (f : Request → Request) : (s.updReq id f).tick = s.tick := by
  unfold State.updReq; split <;> rfl
@[simp] theorem State.updReq_stepBy (id : Nat) (f : Request → Request) : (s.updReq id f).stepBy = s.stepBy := by
  unfold State.updReq; split <;> rfl
@[simp] theorem State.updReq_events (id : Nat) (f : Request → Request) : (s.updReq id f).events = s.events := by
  unfold State.updReq; split <;> rfl
@[simp] theorem State.updReq_rank (id : Nat) (f : Request → Request) : (s.updReq id f).rank = s.rank := by
  unfold State.updReq; split <;> rfl
@[simp] theorem State.updReq_free (id : Nat) (f : Request → Request) : (s.updReq id f).free = s.free := by
  unfold State.updReq; split <;> rfl
@[simp] theorem State.updReq_curT (id : Nat) (f : Request → Request) : (s.updReq id f).curT = s.curT := by
  unfold State.updReq; split <;> rfl
@[simp] theorem State.updReq_curB (id : Nat) (f : Request → Request) : (s.updReq id f).curB = s.curB := by
  unfold State.updReq; split <;> rfl
@[simp] theorem State.updReq_mem (id : Nat) (f : Request → Request) : (s.updReq id f).mem = s.mem := by
  unfold State.updReq; split <;> rfl
@[simp] theorem State.updReq_text (id : Nat) (f : Request → Request) : (s.updReq id f).text = s.text := by
  unfold State.updReq; split <;> rfl
@[simp] theorem State.updReq_hbmOld (id : Nat) (f : Request → Request) : (s.updReq id f).hbmOld = s.hbmOld := by
  unfold State.updReq; split <;> rfl
@[simp] theorem State.updReq_throughs (id : Nat) (f : Request → Request) : (s.updReq id f).throughs = s.throughs := by
  unfold State.updReq; split <;> rfl
@[simp] theorem State.updReq_walks (id : Nat) (f : Request → Request) : (s.updReq id f).walks = s.walks := by
  unfold State.updReq; split <;> rfl
@[simp] theorem State.updReq_units (id : Nat) (f : Request → Request) : (s.updReq id f).units = s.units := by
  unfold State.updReq; split <;> rfl
@[simp] theorem State.updReq_curU (id : Nat) (f : Request → Request) : (s.updReq id f).curU = s.curU := by
  unfold State.updReq; split <;> rfl
@[simp] theorem State.updReq_held (id : Nat) (f : Request → Request) : (s.updReq id f).held = s.held := by
  unfold State.updReq; split <;> rfl
@[simp] theorem State.updReq_vaultPorts (id : Nat) (f : Request → Request) : (s.updReq id f).vaultPorts = s.vaultPorts := by
  unfold State.updReq; split <;> rfl
@[simp] theorem State.updReq_scratchPorts (id : Nat) (f : Request → Request) : (s.updReq id f).scratchPorts = s.scratchPorts := by
  unfold State.updReq; split <;> rfl
@[simp] theorem State.updReq_barrels (id : Nat) (f : Request → Request) : (s.updReq id f).barrels = s.barrels := by
  unfold State.updReq; split <;> rfl
@[simp] theorem State.updReq_cload (id : Nat) (f : Request → Request) : (s.updReq id f).cload = s.cload := by
  unfold State.updReq; split <;> rfl
@[simp] theorem State.updReq_full (id : Nat) (f : Request → Request) : (s.updReq id f).full = s.full := by
  unfold State.updReq; split <;> rfl
@[simp] theorem State.updReq_parked (id : Nat) (f : Request → Request) : (s.updReq id f).parked = s.parked := by
  unfold State.updReq; split <;> rfl
@[simp] theorem State.updReq_past (id : Nat) (f : Request → Request) : (s.updReq id f).past = s.past := by
  unfold State.updReq; split <;> rfl
@[simp] theorem State.updReq_marks (id : Nat) (f : Request → Request) : (s.updReq id f).marks = s.marks := by
  unfold State.updReq; split <;> rfl
@[simp] theorem State.updReq_suffix (id : Nat) (f : Request → Request) : (s.updReq id f).suffix = s.suffix := by
  unfold State.updReq; split <;> rfl
@[simp] theorem State.updReq_groups (id : Nat) (f : Request → Request) : (s.updReq id f).groups = s.groups := by
  unfold State.updReq; split <;> rfl
@[simp] theorem State.updReq_impressions (id : Nat) (f : Request → Request) : (s.updReq id f).impressions = s.impressions := by
  unfold State.updReq; split <;> rfl
@[simp] theorem State.updReq_slotPages (id : Nat) (f : Request → Request) : (s.updReq id f).slotPages = s.slotPages := by
  unfold State.updReq; split <;> rfl
@[simp] theorem State.updReq_releases (id : Nat) (f : Request → Request) : (s.updReq id f).releases = s.releases := by
  unfold State.updReq; split <;> rfl
@[simp] theorem State.updReq_mirrors (id : Nat) (f : Request → Request) : (s.updReq id f).mirrors = s.mirrors := by
  unfold State.updReq; split <;> rfl
@[simp] theorem State.updReq_keeper (id : Nat) (f : Request → Request) : (s.updReq id f).keeper = s.keeper := by
  unfold State.updReq; split <;> rfl
@[simp] theorem State.updReq_kills (id : Nat) (f : Request → Request) : (s.updReq id f).kills = s.kills := by
  unfold State.updReq; split <;> rfl
@[simp] theorem State.updReq_cores (id : Nat) (f : Request → Request) : (s.updReq id f).cores = s.cores := by
  unfold State.updReq; split <;> rfl
@[simp] theorem State.updReq_accesses (id : Nat) (f : Request → Request) : (s.updReq id f).accesses = s.accesses := by
  unfold State.updReq; split <;> rfl
@[simp] theorem State.updReq_packets (id : Nat) (f : Request → Request) : (s.updReq id f).packets = s.packets := by
  unfold State.updReq; split <;> rfl
@[simp] theorem State.updReq_outputs (id : Nat) (f : Request → Request) : (s.updReq id f).outputs = s.outputs := by
  unfold State.updReq; split <;> rfl
@[simp] theorem State.updReq_lastSent (id : Nat) (f : Request → Request) : (s.updReq id f).lastSent = s.lastSent := by
  unfold State.updReq; split <;> rfl
@[simp] theorem State.updReq_remotes (id : Nat) (f : Request → Request) : (s.updReq id f).remotes = s.remotes := by
  unfold State.updReq; split <;> rfl
@[simp] theorem State.updReq_nextId (id : Nat) (f : Request → Request) : (s.updReq id f).nextId = s.nextId := by
  unfold State.updReq; split <;> rfl
@[simp] theorem State.updReq_pkg (id : Nat) (f : Request → Request) : (s.updReq id f).pkg = s.pkg := by
  unfold State.updReq; split <;> rfl
@[simp] theorem State.updReq_mgmt (id : Nat) (f : Request → Request) : (s.updReq id f).mgmt = s.mgmt := by
  unfold State.updReq; split <;> rfl

/-! ## `State.updThread` changes `barrels` only -/

@[simp] theorem State.updThread_clk (cell t : Nat) (f : Thread → Thread) : (s.updThread cell t f).clk = s.clk := by
  unfold State.updThread; split <;> rfl
@[simp] theorem State.updThread_tick (cell t : Nat) (f : Thread → Thread) : (s.updThread cell t f).tick = s.tick := by
  unfold State.updThread; split <;> rfl
@[simp] theorem State.updThread_stepBy (cell t : Nat) (f : Thread → Thread) : (s.updThread cell t f).stepBy = s.stepBy := by
  unfold State.updThread; split <;> rfl
@[simp] theorem State.updThread_events (cell t : Nat) (f : Thread → Thread) : (s.updThread cell t f).events = s.events := by
  unfold State.updThread; split <;> rfl
@[simp] theorem State.updThread_rank (cell t : Nat) (f : Thread → Thread) : (s.updThread cell t f).rank = s.rank := by
  unfold State.updThread; split <;> rfl
@[simp] theorem State.updThread_free (cell t : Nat) (f : Thread → Thread) : (s.updThread cell t f).free = s.free := by
  unfold State.updThread; split <;> rfl
@[simp] theorem State.updThread_curT (cell t : Nat) (f : Thread → Thread) : (s.updThread cell t f).curT = s.curT := by
  unfold State.updThread; split <;> rfl
@[simp] theorem State.updThread_curB (cell t : Nat) (f : Thread → Thread) : (s.updThread cell t f).curB = s.curB := by
  unfold State.updThread; split <;> rfl
@[simp] theorem State.updThread_mem (cell t : Nat) (f : Thread → Thread) : (s.updThread cell t f).mem = s.mem := by
  unfold State.updThread; split <;> rfl
@[simp] theorem State.updThread_text (cell t : Nat) (f : Thread → Thread) : (s.updThread cell t f).text = s.text := by
  unfold State.updThread; split <;> rfl
@[simp] theorem State.updThread_hbmOld (cell t : Nat) (f : Thread → Thread) : (s.updThread cell t f).hbmOld = s.hbmOld := by
  unfold State.updThread; split <;> rfl
@[simp] theorem State.updThread_throughs (cell t : Nat) (f : Thread → Thread) : (s.updThread cell t f).throughs = s.throughs := by
  unfold State.updThread; split <;> rfl
@[simp] theorem State.updThread_walks (cell t : Nat) (f : Thread → Thread) : (s.updThread cell t f).walks = s.walks := by
  unfold State.updThread; split <;> rfl
@[simp] theorem State.updThread_units (cell t : Nat) (f : Thread → Thread) : (s.updThread cell t f).units = s.units := by
  unfold State.updThread; split <;> rfl
@[simp] theorem State.updThread_curU (cell t : Nat) (f : Thread → Thread) : (s.updThread cell t f).curU = s.curU := by
  unfold State.updThread; split <;> rfl
@[simp] theorem State.updThread_held (cell t : Nat) (f : Thread → Thread) : (s.updThread cell t f).held = s.held := by
  unfold State.updThread; split <;> rfl
@[simp] theorem State.updThread_vaultPorts (cell t : Nat) (f : Thread → Thread) : (s.updThread cell t f).vaultPorts = s.vaultPorts := by
  unfold State.updThread; split <;> rfl
@[simp] theorem State.updThread_scratchPorts (cell t : Nat) (f : Thread → Thread) : (s.updThread cell t f).scratchPorts = s.scratchPorts := by
  unfold State.updThread; split <;> rfl
@[simp] theorem State.updThread_cload (cell t : Nat) (f : Thread → Thread) : (s.updThread cell t f).cload = s.cload := by
  unfold State.updThread; split <;> rfl
@[simp] theorem State.updThread_requests (cell t : Nat) (f : Thread → Thread) : (s.updThread cell t f).requests = s.requests := by
  unfold State.updThread; split <;> rfl
@[simp] theorem State.updThread_full (cell t : Nat) (f : Thread → Thread) : (s.updThread cell t f).full = s.full := by
  unfold State.updThread; split <;> rfl
@[simp] theorem State.updThread_parked (cell t : Nat) (f : Thread → Thread) : (s.updThread cell t f).parked = s.parked := by
  unfold State.updThread; split <;> rfl
@[simp] theorem State.updThread_past (cell t : Nat) (f : Thread → Thread) : (s.updThread cell t f).past = s.past := by
  unfold State.updThread; split <;> rfl
@[simp] theorem State.updThread_marks (cell t : Nat) (f : Thread → Thread) : (s.updThread cell t f).marks = s.marks := by
  unfold State.updThread; split <;> rfl
@[simp] theorem State.updThread_suffix (cell t : Nat) (f : Thread → Thread) : (s.updThread cell t f).suffix = s.suffix := by
  unfold State.updThread; split <;> rfl
@[simp] theorem State.updThread_groups (cell t : Nat) (f : Thread → Thread) : (s.updThread cell t f).groups = s.groups := by
  unfold State.updThread; split <;> rfl
@[simp] theorem State.updThread_impressions (cell t : Nat) (f : Thread → Thread) : (s.updThread cell t f).impressions = s.impressions := by
  unfold State.updThread; split <;> rfl
@[simp] theorem State.updThread_slotPages (cell t : Nat) (f : Thread → Thread) : (s.updThread cell t f).slotPages = s.slotPages := by
  unfold State.updThread; split <;> rfl
@[simp] theorem State.updThread_releases (cell t : Nat) (f : Thread → Thread) : (s.updThread cell t f).releases = s.releases := by
  unfold State.updThread; split <;> rfl
@[simp] theorem State.updThread_mirrors (cell t : Nat) (f : Thread → Thread) : (s.updThread cell t f).mirrors = s.mirrors := by
  unfold State.updThread; split <;> rfl
@[simp] theorem State.updThread_keeper (cell t : Nat) (f : Thread → Thread) : (s.updThread cell t f).keeper = s.keeper := by
  unfold State.updThread; split <;> rfl
@[simp] theorem State.updThread_kills (cell t : Nat) (f : Thread → Thread) : (s.updThread cell t f).kills = s.kills := by
  unfold State.updThread; split <;> rfl
@[simp] theorem State.updThread_cores (cell t : Nat) (f : Thread → Thread) : (s.updThread cell t f).cores = s.cores := by
  unfold State.updThread; split <;> rfl
@[simp] theorem State.updThread_accesses (cell t : Nat) (f : Thread → Thread) : (s.updThread cell t f).accesses = s.accesses := by
  unfold State.updThread; split <;> rfl
@[simp] theorem State.updThread_packets (cell t : Nat) (f : Thread → Thread) : (s.updThread cell t f).packets = s.packets := by
  unfold State.updThread; split <;> rfl
@[simp] theorem State.updThread_outputs (cell t : Nat) (f : Thread → Thread) : (s.updThread cell t f).outputs = s.outputs := by
  unfold State.updThread; split <;> rfl
@[simp] theorem State.updThread_lastSent (cell t : Nat) (f : Thread → Thread) : (s.updThread cell t f).lastSent = s.lastSent := by
  unfold State.updThread; split <;> rfl
@[simp] theorem State.updThread_remotes (cell t : Nat) (f : Thread → Thread) : (s.updThread cell t f).remotes = s.remotes := by
  unfold State.updThread; split <;> rfl
@[simp] theorem State.updThread_nextId (cell t : Nat) (f : Thread → Thread) : (s.updThread cell t f).nextId = s.nextId := by
  unfold State.updThread; split <;> rfl
@[simp] theorem State.updThread_pkg (cell t : Nat) (f : Thread → Thread) : (s.updThread cell t f).pkg = s.pkg := by
  unfold State.updThread; split <;> rfl
@[simp] theorem State.updThread_mgmt (cell t : Nat) (f : Thread → Thread) : (s.updThread cell t f).mgmt = s.mgmt := by
  unfold State.updThread; split <;> rfl

/-! ## `State.drawDelay` changes `free` only -/

@[simp] theorem State.drawDelay_clk : (s.drawDelay).2.clk = s.clk := rfl
@[simp] theorem State.drawDelay_tick : (s.drawDelay).2.tick = s.tick := rfl
@[simp] theorem State.drawDelay_stepBy : (s.drawDelay).2.stepBy = s.stepBy := rfl
@[simp] theorem State.drawDelay_events : (s.drawDelay).2.events = s.events := rfl
@[simp] theorem State.drawDelay_rank : (s.drawDelay).2.rank = s.rank := rfl
@[simp] theorem State.drawDelay_curT : (s.drawDelay).2.curT = s.curT := rfl
@[simp] theorem State.drawDelay_curB : (s.drawDelay).2.curB = s.curB := rfl
@[simp] theorem State.drawDelay_mem : (s.drawDelay).2.mem = s.mem := rfl
@[simp] theorem State.drawDelay_text : (s.drawDelay).2.text = s.text := rfl
@[simp] theorem State.drawDelay_hbmOld : (s.drawDelay).2.hbmOld = s.hbmOld := rfl
@[simp] theorem State.drawDelay_throughs : (s.drawDelay).2.throughs = s.throughs := rfl
@[simp] theorem State.drawDelay_walks : (s.drawDelay).2.walks = s.walks := rfl
@[simp] theorem State.drawDelay_units : (s.drawDelay).2.units = s.units := rfl
@[simp] theorem State.drawDelay_curU : (s.drawDelay).2.curU = s.curU := rfl
@[simp] theorem State.drawDelay_held : (s.drawDelay).2.held = s.held := rfl
@[simp] theorem State.drawDelay_vaultPorts : (s.drawDelay).2.vaultPorts = s.vaultPorts := rfl
@[simp] theorem State.drawDelay_scratchPorts : (s.drawDelay).2.scratchPorts = s.scratchPorts := rfl
@[simp] theorem State.drawDelay_barrels : (s.drawDelay).2.barrels = s.barrels := rfl
@[simp] theorem State.drawDelay_cload : (s.drawDelay).2.cload = s.cload := rfl
@[simp] theorem State.drawDelay_requests : (s.drawDelay).2.requests = s.requests := rfl
@[simp] theorem State.drawDelay_full : (s.drawDelay).2.full = s.full := rfl
@[simp] theorem State.drawDelay_parked : (s.drawDelay).2.parked = s.parked := rfl
@[simp] theorem State.drawDelay_past : (s.drawDelay).2.past = s.past := rfl
@[simp] theorem State.drawDelay_marks : (s.drawDelay).2.marks = s.marks := rfl
@[simp] theorem State.drawDelay_suffix : (s.drawDelay).2.suffix = s.suffix := rfl
@[simp] theorem State.drawDelay_groups : (s.drawDelay).2.groups = s.groups := rfl
@[simp] theorem State.drawDelay_impressions : (s.drawDelay).2.impressions = s.impressions := rfl
@[simp] theorem State.drawDelay_slotPages : (s.drawDelay).2.slotPages = s.slotPages := rfl
@[simp] theorem State.drawDelay_releases : (s.drawDelay).2.releases = s.releases := rfl
@[simp] theorem State.drawDelay_mirrors : (s.drawDelay).2.mirrors = s.mirrors := rfl
@[simp] theorem State.drawDelay_keeper : (s.drawDelay).2.keeper = s.keeper := rfl
@[simp] theorem State.drawDelay_kills : (s.drawDelay).2.kills = s.kills := rfl
@[simp] theorem State.drawDelay_cores : (s.drawDelay).2.cores = s.cores := rfl
@[simp] theorem State.drawDelay_accesses : (s.drawDelay).2.accesses = s.accesses := rfl
@[simp] theorem State.drawDelay_packets : (s.drawDelay).2.packets = s.packets := rfl
@[simp] theorem State.drawDelay_outputs : (s.drawDelay).2.outputs = s.outputs := rfl
@[simp] theorem State.drawDelay_lastSent : (s.drawDelay).2.lastSent = s.lastSent := rfl
@[simp] theorem State.drawDelay_remotes : (s.drawDelay).2.remotes = s.remotes := rfl
@[simp] theorem State.drawDelay_nextId : (s.drawDelay).2.nextId = s.nextId := rfl
@[simp] theorem State.drawDelay_pkg : (s.drawDelay).2.pkg = s.pkg := rfl
@[simp] theorem State.drawDelay_mgmt : (s.drawDelay).2.mgmt = s.mgmt := rfl

/-! ## `State.drawValue` changes `free` only -/

@[simp] theorem State.drawValue_clk : (s.drawValue).2.clk = s.clk := rfl
@[simp] theorem State.drawValue_tick : (s.drawValue).2.tick = s.tick := rfl
@[simp] theorem State.drawValue_stepBy : (s.drawValue).2.stepBy = s.stepBy := rfl
@[simp] theorem State.drawValue_events : (s.drawValue).2.events = s.events := rfl
@[simp] theorem State.drawValue_rank : (s.drawValue).2.rank = s.rank := rfl
@[simp] theorem State.drawValue_curT : (s.drawValue).2.curT = s.curT := rfl
@[simp] theorem State.drawValue_curB : (s.drawValue).2.curB = s.curB := rfl
@[simp] theorem State.drawValue_mem : (s.drawValue).2.mem = s.mem := rfl
@[simp] theorem State.drawValue_text : (s.drawValue).2.text = s.text := rfl
@[simp] theorem State.drawValue_hbmOld : (s.drawValue).2.hbmOld = s.hbmOld := rfl
@[simp] theorem State.drawValue_throughs : (s.drawValue).2.throughs = s.throughs := rfl
@[simp] theorem State.drawValue_walks : (s.drawValue).2.walks = s.walks := rfl
@[simp] theorem State.drawValue_units : (s.drawValue).2.units = s.units := rfl
@[simp] theorem State.drawValue_curU : (s.drawValue).2.curU = s.curU := rfl
@[simp] theorem State.drawValue_held : (s.drawValue).2.held = s.held := rfl
@[simp] theorem State.drawValue_vaultPorts : (s.drawValue).2.vaultPorts = s.vaultPorts := rfl
@[simp] theorem State.drawValue_scratchPorts : (s.drawValue).2.scratchPorts = s.scratchPorts := rfl
@[simp] theorem State.drawValue_barrels : (s.drawValue).2.barrels = s.barrels := rfl
@[simp] theorem State.drawValue_cload : (s.drawValue).2.cload = s.cload := rfl
@[simp] theorem State.drawValue_requests : (s.drawValue).2.requests = s.requests := rfl
@[simp] theorem State.drawValue_full : (s.drawValue).2.full = s.full := rfl
@[simp] theorem State.drawValue_parked : (s.drawValue).2.parked = s.parked := rfl
@[simp] theorem State.drawValue_past : (s.drawValue).2.past = s.past := rfl
@[simp] theorem State.drawValue_marks : (s.drawValue).2.marks = s.marks := rfl
@[simp] theorem State.drawValue_suffix : (s.drawValue).2.suffix = s.suffix := rfl
@[simp] theorem State.drawValue_groups : (s.drawValue).2.groups = s.groups := rfl
@[simp] theorem State.drawValue_impressions : (s.drawValue).2.impressions = s.impressions := rfl
@[simp] theorem State.drawValue_slotPages : (s.drawValue).2.slotPages = s.slotPages := rfl
@[simp] theorem State.drawValue_releases : (s.drawValue).2.releases = s.releases := rfl
@[simp] theorem State.drawValue_mirrors : (s.drawValue).2.mirrors = s.mirrors := rfl
@[simp] theorem State.drawValue_keeper : (s.drawValue).2.keeper = s.keeper := rfl
@[simp] theorem State.drawValue_kills : (s.drawValue).2.kills = s.kills := rfl
@[simp] theorem State.drawValue_cores : (s.drawValue).2.cores = s.cores := rfl
@[simp] theorem State.drawValue_accesses : (s.drawValue).2.accesses = s.accesses := rfl
@[simp] theorem State.drawValue_packets : (s.drawValue).2.packets = s.packets := rfl
@[simp] theorem State.drawValue_outputs : (s.drawValue).2.outputs = s.outputs := rfl
@[simp] theorem State.drawValue_lastSent : (s.drawValue).2.lastSent = s.lastSent := rfl
@[simp] theorem State.drawValue_remotes : (s.drawValue).2.remotes = s.remotes := rfl
@[simp] theorem State.drawValue_nextId : (s.drawValue).2.nextId = s.nextId := rfl
@[simp] theorem State.drawValue_pkg : (s.drawValue).2.pkg = s.pkg := rfl
@[simp] theorem State.drawValue_mgmt : (s.drawValue).2.mgmt = s.mgmt := rfl

/-! ## Scheduling changes `events` only -/

@[simp] theorem State.at'_clk (due phase key : Nat) (i : Item) : (s.at' due phase key i).clk = s.clk := by
  simp only [State.at']; split <;> rfl
@[simp] theorem State.at'_tick (due phase key : Nat) (i : Item) : (s.at' due phase key i).tick = s.tick := by
  simp only [State.at']; split <;> rfl
@[simp] theorem State.at'_stepBy (due phase key : Nat) (i : Item) : (s.at' due phase key i).stepBy = s.stepBy := by
  simp only [State.at']; split <;> rfl
@[simp] theorem State.at'_rank (due phase key : Nat) (i : Item) : (s.at' due phase key i).rank = s.rank := by
  simp only [State.at']; split <;> rfl
@[simp] theorem State.at'_free (due phase key : Nat) (i : Item) : (s.at' due phase key i).free = s.free := by
  simp only [State.at']; split <;> rfl
@[simp] theorem State.at'_curT (due phase key : Nat) (i : Item) : (s.at' due phase key i).curT = s.curT := by
  simp only [State.at']; split <;> rfl
@[simp] theorem State.at'_curB (due phase key : Nat) (i : Item) : (s.at' due phase key i).curB = s.curB := by
  simp only [State.at']; split <;> rfl
@[simp] theorem State.at'_mem (due phase key : Nat) (i : Item) : (s.at' due phase key i).mem = s.mem := by
  simp only [State.at']; split <;> rfl
@[simp] theorem State.at'_text (due phase key : Nat) (i : Item) : (s.at' due phase key i).text = s.text := by
  simp only [State.at']; split <;> rfl
@[simp] theorem State.at'_hbmOld (due phase key : Nat) (i : Item) : (s.at' due phase key i).hbmOld = s.hbmOld := by
  simp only [State.at']; split <;> rfl
@[simp] theorem State.at'_throughs (due phase key : Nat) (i : Item) : (s.at' due phase key i).throughs = s.throughs := by
  simp only [State.at']; split <;> rfl
@[simp] theorem State.at'_walks (due phase key : Nat) (i : Item) : (s.at' due phase key i).walks = s.walks := by
  simp only [State.at']; split <;> rfl
@[simp] theorem State.at'_units (due phase key : Nat) (i : Item) : (s.at' due phase key i).units = s.units := by
  simp only [State.at']; split <;> rfl
@[simp] theorem State.at'_curU (due phase key : Nat) (i : Item) : (s.at' due phase key i).curU = s.curU := by
  simp only [State.at']; split <;> rfl
@[simp] theorem State.at'_held (due phase key : Nat) (i : Item) : (s.at' due phase key i).held = s.held := by
  simp only [State.at']; split <;> rfl
@[simp] theorem State.at'_vaultPorts (due phase key : Nat) (i : Item) : (s.at' due phase key i).vaultPorts = s.vaultPorts := by
  simp only [State.at']; split <;> rfl
@[simp] theorem State.at'_scratchPorts (due phase key : Nat) (i : Item) : (s.at' due phase key i).scratchPorts = s.scratchPorts := by
  simp only [State.at']; split <;> rfl
@[simp] theorem State.at'_barrels (due phase key : Nat) (i : Item) : (s.at' due phase key i).barrels = s.barrels := by
  simp only [State.at']; split <;> rfl
@[simp] theorem State.at'_cload (due phase key : Nat) (i : Item) : (s.at' due phase key i).cload = s.cload := by
  simp only [State.at']; split <;> rfl
@[simp] theorem State.at'_requests (due phase key : Nat) (i : Item) : (s.at' due phase key i).requests = s.requests := by
  simp only [State.at']; split <;> rfl
@[simp] theorem State.at'_full (due phase key : Nat) (i : Item) : (s.at' due phase key i).full = s.full := by
  simp only [State.at']; split <;> rfl
@[simp] theorem State.at'_parked (due phase key : Nat) (i : Item) : (s.at' due phase key i).parked = s.parked := by
  simp only [State.at']; split <;> rfl
@[simp] theorem State.at'_past (due phase key : Nat) (i : Item) : (s.at' due phase key i).past = s.past := by
  simp only [State.at']; split <;> rfl
@[simp] theorem State.at'_marks (due phase key : Nat) (i : Item) : (s.at' due phase key i).marks = s.marks := by
  simp only [State.at']; split <;> rfl
@[simp] theorem State.at'_suffix (due phase key : Nat) (i : Item) : (s.at' due phase key i).suffix = s.suffix := by
  simp only [State.at']; split <;> rfl
@[simp] theorem State.at'_groups (due phase key : Nat) (i : Item) : (s.at' due phase key i).groups = s.groups := by
  simp only [State.at']; split <;> rfl
@[simp] theorem State.at'_impressions (due phase key : Nat) (i : Item) : (s.at' due phase key i).impressions = s.impressions := by
  simp only [State.at']; split <;> rfl
@[simp] theorem State.at'_slotPages (due phase key : Nat) (i : Item) : (s.at' due phase key i).slotPages = s.slotPages := by
  simp only [State.at']; split <;> rfl
@[simp] theorem State.at'_releases (due phase key : Nat) (i : Item) : (s.at' due phase key i).releases = s.releases := by
  simp only [State.at']; split <;> rfl
@[simp] theorem State.at'_mirrors (due phase key : Nat) (i : Item) : (s.at' due phase key i).mirrors = s.mirrors := by
  simp only [State.at']; split <;> rfl
@[simp] theorem State.at'_keeper (due phase key : Nat) (i : Item) : (s.at' due phase key i).keeper = s.keeper := by
  simp only [State.at']; split <;> rfl
@[simp] theorem State.at'_kills (due phase key : Nat) (i : Item) : (s.at' due phase key i).kills = s.kills := by
  simp only [State.at']; split <;> rfl
@[simp] theorem State.at'_cores (due phase key : Nat) (i : Item) : (s.at' due phase key i).cores = s.cores := by
  simp only [State.at']; split <;> rfl
@[simp] theorem State.at'_accesses (due phase key : Nat) (i : Item) : (s.at' due phase key i).accesses = s.accesses := by
  simp only [State.at']; split <;> rfl
@[simp] theorem State.at'_packets (due phase key : Nat) (i : Item) : (s.at' due phase key i).packets = s.packets := by
  simp only [State.at']; split <;> rfl
@[simp] theorem State.at'_outputs (due phase key : Nat) (i : Item) : (s.at' due phase key i).outputs = s.outputs := by
  simp only [State.at']; split <;> rfl
@[simp] theorem State.at'_lastSent (due phase key : Nat) (i : Item) : (s.at' due phase key i).lastSent = s.lastSent := by
  simp only [State.at']; split <;> rfl
@[simp] theorem State.at'_remotes (due phase key : Nat) (i : Item) : (s.at' due phase key i).remotes = s.remotes := by
  simp only [State.at']; split <;> rfl
@[simp] theorem State.at'_nextId (due phase key : Nat) (i : Item) : (s.at' due phase key i).nextId = s.nextId := by
  simp only [State.at']; split <;> rfl
@[simp] theorem State.at'_pkg (due phase key : Nat) (i : Item) : (s.at' due phase key i).pkg = s.pkg := by
  simp only [State.at']; split <;> rfl
@[simp] theorem State.at'_mgmt (due phase key : Nat) (i : Item) : (s.at' due phase key i).mgmt = s.mgmt := by
  simp only [State.at']; split <;> rfl

@[simp] theorem State.after_clk (due phase key : Nat) (i : Item) : (s.after due phase key i).clk = s.clk := by simp [State.after]
@[simp] theorem State.after_tick (due phase key : Nat) (i : Item) : (s.after due phase key i).tick = s.tick := by simp [State.after]
@[simp] theorem State.after_stepBy (due phase key : Nat) (i : Item) : (s.after due phase key i).stepBy = s.stepBy := by simp [State.after]
@[simp] theorem State.after_rank (due phase key : Nat) (i : Item) : (s.after due phase key i).rank = s.rank := by simp [State.after]
@[simp] theorem State.after_free (due phase key : Nat) (i : Item) : (s.after due phase key i).free = s.free := by simp [State.after]
@[simp] theorem State.after_curT (due phase key : Nat) (i : Item) : (s.after due phase key i).curT = s.curT := by simp [State.after]
@[simp] theorem State.after_curB (due phase key : Nat) (i : Item) : (s.after due phase key i).curB = s.curB := by simp [State.after]
@[simp] theorem State.after_mem (due phase key : Nat) (i : Item) : (s.after due phase key i).mem = s.mem := by simp [State.after]
@[simp] theorem State.after_text (due phase key : Nat) (i : Item) : (s.after due phase key i).text = s.text := by simp [State.after]
@[simp] theorem State.after_hbmOld (due phase key : Nat) (i : Item) : (s.after due phase key i).hbmOld = s.hbmOld := by simp [State.after]
@[simp] theorem State.after_throughs (due phase key : Nat) (i : Item) : (s.after due phase key i).throughs = s.throughs := by simp [State.after]
@[simp] theorem State.after_walks (due phase key : Nat) (i : Item) : (s.after due phase key i).walks = s.walks := by simp [State.after]
@[simp] theorem State.after_units (due phase key : Nat) (i : Item) : (s.after due phase key i).units = s.units := by simp [State.after]
@[simp] theorem State.after_curU (due phase key : Nat) (i : Item) : (s.after due phase key i).curU = s.curU := by simp [State.after]
@[simp] theorem State.after_held (due phase key : Nat) (i : Item) : (s.after due phase key i).held = s.held := by simp [State.after]
@[simp] theorem State.after_vaultPorts (due phase key : Nat) (i : Item) : (s.after due phase key i).vaultPorts = s.vaultPorts := by simp [State.after]
@[simp] theorem State.after_scratchPorts (due phase key : Nat) (i : Item) : (s.after due phase key i).scratchPorts = s.scratchPorts := by simp [State.after]
@[simp] theorem State.after_barrels (due phase key : Nat) (i : Item) : (s.after due phase key i).barrels = s.barrels := by simp [State.after]
@[simp] theorem State.after_cload (due phase key : Nat) (i : Item) : (s.after due phase key i).cload = s.cload := by simp [State.after]
@[simp] theorem State.after_requests (due phase key : Nat) (i : Item) : (s.after due phase key i).requests = s.requests := by simp [State.after]
@[simp] theorem State.after_full (due phase key : Nat) (i : Item) : (s.after due phase key i).full = s.full := by simp [State.after]
@[simp] theorem State.after_parked (due phase key : Nat) (i : Item) : (s.after due phase key i).parked = s.parked := by simp [State.after]
@[simp] theorem State.after_past (due phase key : Nat) (i : Item) : (s.after due phase key i).past = s.past := by simp [State.after]
@[simp] theorem State.after_marks (due phase key : Nat) (i : Item) : (s.after due phase key i).marks = s.marks := by simp [State.after]
@[simp] theorem State.after_suffix (due phase key : Nat) (i : Item) : (s.after due phase key i).suffix = s.suffix := by simp [State.after]
@[simp] theorem State.after_groups (due phase key : Nat) (i : Item) : (s.after due phase key i).groups = s.groups := by simp [State.after]
@[simp] theorem State.after_impressions (due phase key : Nat) (i : Item) : (s.after due phase key i).impressions = s.impressions := by simp [State.after]
@[simp] theorem State.after_slotPages (due phase key : Nat) (i : Item) : (s.after due phase key i).slotPages = s.slotPages := by simp [State.after]
@[simp] theorem State.after_releases (due phase key : Nat) (i : Item) : (s.after due phase key i).releases = s.releases := by simp [State.after]
@[simp] theorem State.after_mirrors (due phase key : Nat) (i : Item) : (s.after due phase key i).mirrors = s.mirrors := by simp [State.after]
@[simp] theorem State.after_keeper (due phase key : Nat) (i : Item) : (s.after due phase key i).keeper = s.keeper := by simp [State.after]
@[simp] theorem State.after_kills (due phase key : Nat) (i : Item) : (s.after due phase key i).kills = s.kills := by simp [State.after]
@[simp] theorem State.after_cores (due phase key : Nat) (i : Item) : (s.after due phase key i).cores = s.cores := by simp [State.after]
@[simp] theorem State.after_accesses (due phase key : Nat) (i : Item) : (s.after due phase key i).accesses = s.accesses := by simp [State.after]
@[simp] theorem State.after_packets (due phase key : Nat) (i : Item) : (s.after due phase key i).packets = s.packets := by simp [State.after]
@[simp] theorem State.after_outputs (due phase key : Nat) (i : Item) : (s.after due phase key i).outputs = s.outputs := by simp [State.after]
@[simp] theorem State.after_lastSent (due phase key : Nat) (i : Item) : (s.after due phase key i).lastSent = s.lastSent := by simp [State.after]
@[simp] theorem State.after_remotes (due phase key : Nat) (i : Item) : (s.after due phase key i).remotes = s.remotes := by simp [State.after]
@[simp] theorem State.after_nextId (due phase key : Nat) (i : Item) : (s.after due phase key i).nextId = s.nextId := by simp [State.after]
@[simp] theorem State.after_pkg (due phase key : Nat) (i : Item) : (s.after due phase key i).pkg = s.pkg := by simp [State.after]
@[simp] theorem State.after_mgmt (due phase key : Nat) (i : Item) : (s.after due phase key i).mgmt = s.mgmt := by simp [State.after]

/-! ## A result in flight changes `cores`, `events` and `rank` only -/

@[simp] theorem State.flight_clk (k op : Nat) (ls : List Landing) (g : FlagGroup) (fs : List (Nat × Flags)) (p : Option (Nat × Word)) :
    (s.flight k op ls g fs p).clk = s.clk := by simp [State.flight, State.updCur]
@[simp] theorem State.flight_tick (k op : Nat) (ls : List Landing) (g : FlagGroup) (fs : List (Nat × Flags)) (p : Option (Nat × Word)) :
    (s.flight k op ls g fs p).tick = s.tick := by simp [State.flight, State.updCur]
@[simp] theorem State.flight_stepBy (k op : Nat) (ls : List Landing) (g : FlagGroup) (fs : List (Nat × Flags)) (p : Option (Nat × Word)) :
    (s.flight k op ls g fs p).stepBy = s.stepBy := by simp [State.flight, State.updCur]
@[simp] theorem State.flight_free (k op : Nat) (ls : List Landing) (g : FlagGroup) (fs : List (Nat × Flags)) (p : Option (Nat × Word)) :
    (s.flight k op ls g fs p).free = s.free := by simp [State.flight, State.updCur]
@[simp] theorem State.flight_curT (k op : Nat) (ls : List Landing) (g : FlagGroup) (fs : List (Nat × Flags)) (p : Option (Nat × Word)) :
    (s.flight k op ls g fs p).curT = s.curT := by simp [State.flight, State.updCur]
@[simp] theorem State.flight_curB (k op : Nat) (ls : List Landing) (g : FlagGroup) (fs : List (Nat × Flags)) (p : Option (Nat × Word)) :
    (s.flight k op ls g fs p).curB = s.curB := by simp [State.flight, State.updCur]
@[simp] theorem State.flight_mem (k op : Nat) (ls : List Landing) (g : FlagGroup) (fs : List (Nat × Flags)) (p : Option (Nat × Word)) :
    (s.flight k op ls g fs p).mem = s.mem := by simp [State.flight, State.updCur]
@[simp] theorem State.flight_text (k op : Nat) (ls : List Landing) (g : FlagGroup) (fs : List (Nat × Flags)) (p : Option (Nat × Word)) :
    (s.flight k op ls g fs p).text = s.text := by simp [State.flight, State.updCur]
@[simp] theorem State.flight_hbmOld (k op : Nat) (ls : List Landing) (g : FlagGroup) (fs : List (Nat × Flags)) (p : Option (Nat × Word)) :
    (s.flight k op ls g fs p).hbmOld = s.hbmOld := by simp [State.flight, State.updCur]
@[simp] theorem State.flight_throughs (k op : Nat) (ls : List Landing) (g : FlagGroup) (fs : List (Nat × Flags)) (p : Option (Nat × Word)) :
    (s.flight k op ls g fs p).throughs = s.throughs := by simp [State.flight, State.updCur]
@[simp] theorem State.flight_walks (k op : Nat) (ls : List Landing) (g : FlagGroup) (fs : List (Nat × Flags)) (p : Option (Nat × Word)) :
    (s.flight k op ls g fs p).walks = s.walks := by simp [State.flight, State.updCur]
@[simp] theorem State.flight_units (k op : Nat) (ls : List Landing) (g : FlagGroup) (fs : List (Nat × Flags)) (p : Option (Nat × Word)) :
    (s.flight k op ls g fs p).units = s.units := by simp [State.flight, State.updCur]
@[simp] theorem State.flight_curU (k op : Nat) (ls : List Landing) (g : FlagGroup) (fs : List (Nat × Flags)) (p : Option (Nat × Word)) :
    (s.flight k op ls g fs p).curU = s.curU := by simp [State.flight, State.updCur]
@[simp] theorem State.flight_held (k op : Nat) (ls : List Landing) (g : FlagGroup) (fs : List (Nat × Flags)) (p : Option (Nat × Word)) :
    (s.flight k op ls g fs p).held = s.held := by simp [State.flight, State.updCur]
@[simp] theorem State.flight_vaultPorts (k op : Nat) (ls : List Landing) (g : FlagGroup) (fs : List (Nat × Flags)) (p : Option (Nat × Word)) :
    (s.flight k op ls g fs p).vaultPorts = s.vaultPorts := by simp [State.flight, State.updCur]
@[simp] theorem State.flight_scratchPorts (k op : Nat) (ls : List Landing) (g : FlagGroup) (fs : List (Nat × Flags)) (p : Option (Nat × Word)) :
    (s.flight k op ls g fs p).scratchPorts = s.scratchPorts := by simp [State.flight, State.updCur]
@[simp] theorem State.flight_barrels (k op : Nat) (ls : List Landing) (g : FlagGroup) (fs : List (Nat × Flags)) (p : Option (Nat × Word)) :
    (s.flight k op ls g fs p).barrels = s.barrels := by simp [State.flight, State.updCur]
@[simp] theorem State.flight_cload (k op : Nat) (ls : List Landing) (g : FlagGroup) (fs : List (Nat × Flags)) (p : Option (Nat × Word)) :
    (s.flight k op ls g fs p).cload = s.cload := by simp [State.flight, State.updCur]
@[simp] theorem State.flight_requests (k op : Nat) (ls : List Landing) (g : FlagGroup) (fs : List (Nat × Flags)) (p : Option (Nat × Word)) :
    (s.flight k op ls g fs p).requests = s.requests := by simp [State.flight, State.updCur]
@[simp] theorem State.flight_full (k op : Nat) (ls : List Landing) (g : FlagGroup) (fs : List (Nat × Flags)) (p : Option (Nat × Word)) :
    (s.flight k op ls g fs p).full = s.full := by simp [State.flight, State.updCur]
@[simp] theorem State.flight_parked (k op : Nat) (ls : List Landing) (g : FlagGroup) (fs : List (Nat × Flags)) (p : Option (Nat × Word)) :
    (s.flight k op ls g fs p).parked = s.parked := by simp [State.flight, State.updCur]
@[simp] theorem State.flight_past (k op : Nat) (ls : List Landing) (g : FlagGroup) (fs : List (Nat × Flags)) (p : Option (Nat × Word)) :
    (s.flight k op ls g fs p).past = s.past := by simp [State.flight, State.updCur]
@[simp] theorem State.flight_marks (k op : Nat) (ls : List Landing) (g : FlagGroup) (fs : List (Nat × Flags)) (p : Option (Nat × Word)) :
    (s.flight k op ls g fs p).marks = s.marks := by simp [State.flight, State.updCur]
@[simp] theorem State.flight_suffix (k op : Nat) (ls : List Landing) (g : FlagGroup) (fs : List (Nat × Flags)) (p : Option (Nat × Word)) :
    (s.flight k op ls g fs p).suffix = s.suffix := by simp [State.flight, State.updCur]
@[simp] theorem State.flight_groups (k op : Nat) (ls : List Landing) (g : FlagGroup) (fs : List (Nat × Flags)) (p : Option (Nat × Word)) :
    (s.flight k op ls g fs p).groups = s.groups := by simp [State.flight, State.updCur]
@[simp] theorem State.flight_impressions (k op : Nat) (ls : List Landing) (g : FlagGroup) (fs : List (Nat × Flags)) (p : Option (Nat × Word)) :
    (s.flight k op ls g fs p).impressions = s.impressions := by simp [State.flight, State.updCur]
@[simp] theorem State.flight_slotPages (k op : Nat) (ls : List Landing) (g : FlagGroup) (fs : List (Nat × Flags)) (p : Option (Nat × Word)) :
    (s.flight k op ls g fs p).slotPages = s.slotPages := by simp [State.flight, State.updCur]
@[simp] theorem State.flight_releases (k op : Nat) (ls : List Landing) (g : FlagGroup) (fs : List (Nat × Flags)) (p : Option (Nat × Word)) :
    (s.flight k op ls g fs p).releases = s.releases := by simp [State.flight, State.updCur]
@[simp] theorem State.flight_mirrors (k op : Nat) (ls : List Landing) (g : FlagGroup) (fs : List (Nat × Flags)) (p : Option (Nat × Word)) :
    (s.flight k op ls g fs p).mirrors = s.mirrors := by simp [State.flight, State.updCur]
@[simp] theorem State.flight_keeper (k op : Nat) (ls : List Landing) (g : FlagGroup) (fs : List (Nat × Flags)) (p : Option (Nat × Word)) :
    (s.flight k op ls g fs p).keeper = s.keeper := by simp [State.flight, State.updCur]
@[simp] theorem State.flight_kills (k op : Nat) (ls : List Landing) (g : FlagGroup) (fs : List (Nat × Flags)) (p : Option (Nat × Word)) :
    (s.flight k op ls g fs p).kills = s.kills := by simp [State.flight, State.updCur]
@[simp] theorem State.flight_accesses (k op : Nat) (ls : List Landing) (g : FlagGroup) (fs : List (Nat × Flags)) (p : Option (Nat × Word)) :
    (s.flight k op ls g fs p).accesses = s.accesses := by simp [State.flight, State.updCur]
@[simp] theorem State.flight_packets (k op : Nat) (ls : List Landing) (g : FlagGroup) (fs : List (Nat × Flags)) (p : Option (Nat × Word)) :
    (s.flight k op ls g fs p).packets = s.packets := by simp [State.flight, State.updCur]
@[simp] theorem State.flight_outputs (k op : Nat) (ls : List Landing) (g : FlagGroup) (fs : List (Nat × Flags)) (p : Option (Nat × Word)) :
    (s.flight k op ls g fs p).outputs = s.outputs := by simp [State.flight, State.updCur]
@[simp] theorem State.flight_lastSent (k op : Nat) (ls : List Landing) (g : FlagGroup) (fs : List (Nat × Flags)) (p : Option (Nat × Word)) :
    (s.flight k op ls g fs p).lastSent = s.lastSent := by simp [State.flight, State.updCur]
@[simp] theorem State.flight_remotes (k op : Nat) (ls : List Landing) (g : FlagGroup) (fs : List (Nat × Flags)) (p : Option (Nat × Word)) :
    (s.flight k op ls g fs p).remotes = s.remotes := by simp [State.flight, State.updCur]
@[simp] theorem State.flight_nextId (k op : Nat) (ls : List Landing) (g : FlagGroup) (fs : List (Nat × Flags)) (p : Option (Nat × Word)) :
    (s.flight k op ls g fs p).nextId = s.nextId := by simp [State.flight, State.updCur]
@[simp] theorem State.flight_pkg (k op : Nat) (ls : List Landing) (g : FlagGroup) (fs : List (Nat × Flags)) (p : Option (Nat × Word)) :
    (s.flight k op ls g fs p).pkg = s.pkg := by simp [State.flight, State.updCur]
@[simp] theorem State.flight_mgmt (k op : Nat) (ls : List Landing) (g : FlagGroup) (fs : List (Nat × Flags)) (p : Option (Nat × Word)) :
    (s.flight k op ls g fs p).mgmt = s.mgmt := by simp [State.flight, State.updCur]
@[simp] theorem State.flight_rank (k op : Nat) (ls : List Landing) (g : FlagGroup) (fs : List (Nat × Flags)) (p : Option (Nat × Word)) :
    (s.flight k op ls g fs p).rank = s.rank + 1 := by simp [State.flight, State.updCur]

end Sys2Proof.Machine
end

