-- ==== Sys2Proof/Laws/Ops.lean ====
section
/-! SUPPORT. What each shared operation of the timed core does: one lemma says all that later proofs cite of it. -/

namespace Sys2Proof.Machine

open Sys2Proof

/-! ## Cores -/

@[simp] theorem State.core_setCore_self (s : State) (cell : Nat) (c : Core) : (s.setCore cell c).core cell = c := by
  simp [State.core, State.setCore]

theorem State.core_setCore_ne (s : State) (cell x : Nat) (c : Core) (h : x ≠ cell) : (s.setCore cell c).core x = s.core x := by
  simp [State.core, State.setCore, Table.getD_set_ne _ _ _ _ _ h]

@[simp] theorem State.core_updCore_self (s : State) (cell : Nat) (f : Core → Core) : (s.updCore cell f).core cell = f (s.core cell) := by
  simp [State.updCore]

theorem State.core_updCore_ne (s : State) (cell x : Nat) (f : Core → Core) (h : x ≠ cell) : (s.updCore cell f).core x = s.core x := by
  simp [State.updCore, State.core_setCore_ne _ _ _ _ h]

@[simp] theorem State.core_at' (s : State) (due phase key : Nat) (item : Item) (x : Nat) : (s.at' due phase key item).core x = s.core x := by
  simp [State.core]
@[simp] theorem State.core_after (s : State) (n phase key : Nat) (item : Item) (x : Nat) : (s.after n phase key item).core x = s.core x := by
  simp [State.core]
@[simp] theorem State.core_updPkg (s : State) (f : Package → Package) (x : Nat) : (s.updPkg f).core x = s.core x := rfl
@[simp] theorem State.core_drawDelay (s : State) (x : Nat) : s.drawDelay.2.core x = s.core x := rfl
@[simp] theorem State.cur_eq (s : State) : s.core s.curT.cell = s.cur := rfl

/-! ## Events -/

theorem mem_insertEvent (e x : Event) (es : List Event) : x ∈ insertEvent e es ↔ x = e ∨ x ∈ es := by
  induction es with
  | nil => simp [insertEvent]
  | cons y t ih =>
    unfold insertEvent
    split
    · simp [ih]; tauto
    · simp

/-- Scheduling keeps what was due and adds one event. -/
theorem State.mem_at' (s : State) (due phase key : Nat) (item : Item) (x : Event) :
    x ∈ (s.at' due phase key item).events ↔ x = { due, phase, key, item } ∨ x ∈ s.events := by
  unfold State.at'
  simp only
  split
  · rename_i h
    simp only [List.contains_eq_mem, decide_eq_true_eq] at h
    constructor
    · exact fun hx => .inr hx
    · rintro (rfl | hx)
      · exact h
      · exact hx
  · simp [mem_insertEvent]

theorem State.mem_after (s : State) (n phase key : Nat) (item : Item) (x : Event) :
    x ∈ (s.after n phase key item).events ↔ x = { due := s.clk + n, phase, key, item } ∨ x ∈ s.events :=
  s.mem_at' _ _ _ _ _

/-! ## Results in flight -/

/-- A result in flight: only the executing core's list of them grows (R118, R119). -/
theorem State.flight_core (s : State) (offset opcode : Nat) (ls : List Landing) (g : FlagGroup) (fl : List (Nat × Flags))
    (p : Option (Nat × Word)) :
    (s.flight offset opcode ls g fl p).core s.curT.cell = { s.cur with flights := s.cur.flights ++
      [{ due := s.clk + offset, seq := s.rank, issued := s.clk, slot := s.curT.slot, opcode, pc := s.curT.pc, landings := ls,
         group := g, flags := fl, park := p }] } := by
  simp only [State.flight, State.core_after, State.updCur, State.core_updCore_self]
  rfl

theorem State.fly_core (s : State) (offset : Nat) (ls : List Landing) :
    (s.fly offset ls).core s.curT.cell = { s.cur with flights := s.cur.flights ++
      [{ due := s.clk + offset, seq := s.rank, issued := s.clk, slot := s.curT.slot, opcode := 0, pc := s.curT.pc, landings := ls,
         group := .none, flags := [], park := none }] } := s.flight_core _ _ _ _ _ _

theorem State.flight_core_ne (s : State) (offset opcode : Nat) (ls : List Landing) (g : FlagGroup) (fl : List (Nat × Flags))
    (p : Option (Nat × Word)) (x : Nat) (h : x ≠ s.curT.cell) : (s.flight offset opcode ls g fl p).core x = s.core x := by
  simp only [State.flight, State.core_after, State.updCur, State.core_updCore_ne _ _ _ _ h]
  rfl

/-! ## Accesses -/

/-- One access in flight: accesses, rank and events change, nothing else (R97). -/
theorem State.access_accesses (s : State) (offset space : Nat) (ls : List AccessLine) (k : AccessKind) :
    (s.access offset space ls k).accesses = s.accesses ++
      [{ due := s.clk + offset, seq := s.rank, issued := s.clk, cell := s.curT.cell, slot := s.curT.slot, pc := s.curT.pc, space,
         lines := ls, kind := k }] := by simp [State.access]

@[simp] theorem State.access_cores (s : State) (o sp : Nat) (ls : List AccessLine) (k : AccessKind) : (s.access o sp ls k).cores = s.cores := by
  simp [State.access]
@[simp] theorem State.access_mem (s : State) (o sp : Nat) (ls : List AccessLine) (k : AccessKind) : (s.access o sp ls k).mem = s.mem := by
  simp [State.access]
@[simp] theorem State.access_pkg (s : State) (o sp : Nat) (ls : List AccessLine) (k : AccessKind) : (s.access o sp ls k).pkg = s.pkg := by
  simp [State.access]
@[simp] theorem State.access_barrels (s : State) (o sp : Nat) (ls : List AccessLine) (k : AccessKind) :
    (s.access o sp ls k).barrels = s.barrels := by simp [State.access]
@[simp] theorem State.access_tick (s : State) (o sp : Nat) (ls : List AccessLine) (k : AccessKind) : (s.access o sp ls k).tick = s.tick := by
  simp [State.access]
@[simp] theorem State.access_clk (s : State) (o sp : Nat) (ls : List AccessLine) (k : AccessKind) : (s.access o sp ls k).clk = s.clk := by
  simp [State.access]
@[simp] theorem State.access_curT (s : State) (o sp : Nat) (ls : List AccessLine) (k : AccessKind) : (s.access o sp ls k).curT = s.curT := by
  simp [State.access]
@[simp] theorem State.access_nextId (s : State) (o sp : Nat) (ls : List AccessLine) (k : AccessKind) : (s.access o sp ls k).nextId = s.nextId := by
  simp [State.access]
@[simp] theorem State.core_access (s : State) (o sp : Nat) (ls : List AccessLine) (k : AccessKind) (x : Nat) :
    (s.access o sp ls k).core x = s.core x := by simp [State.core]

/-- The lines of an instruction, one access each, ranked from the current rank on. -/
def lineAccesses (s : State) (space : Nat) (kind : Nat → AccessKind) (rank : Nat) : List AccessLine → List Access
  | [] => []
  | l :: ls =>
    let o := accessOffsets s.curT.cell space l.address
    let a : Access := { due := s.clk + o.1, seq := rank, issued := s.clk, cell := s.curT.cell, slot := s.curT.slot, pc := s.curT.pc,
                        space, lines := [l], kind := kind (s.clk + o.2) }
    a :: lineAccesses s space kind (rank + 1) ls

theorem lineAccesses_congr {s t : State} (h1 : s.curT = t.curT) (h2 : s.clk = t.clk) (space : Nat) (kind : Nat → AccessKind)
    (ls : List AccessLine) (rank : Nat) : lineAccesses s space kind rank ls = lineAccesses t space kind rank ls := by
  induction ls generalizing rank with
  | nil => rfl
  | cons l ls ih => simp [lineAccesses, h1, h2, ih]

/-- The lines of an instruction go into flight; only accesses, rank and events change (R97, R139). -/
theorem State.accessLines_spec (s : State) (space : Nat) (kind : Nat → AccessKind) (ls : List AccessLine) :
    (s.accessLines space kind ls).accesses = s.accesses ++ lineAccesses s space kind s.rank ls ∧
    (s.accessLines space kind ls).cores = s.cores ∧ (s.accessLines space kind ls).mem = s.mem ∧
    (s.accessLines space kind ls).pkg = s.pkg ∧ (s.accessLines space kind ls).barrels = s.barrels ∧
    (s.accessLines space kind ls).tick = s.tick ∧ (s.accessLines space kind ls).clk = s.clk ∧
    (s.accessLines space kind ls).curT = s.curT := by
  induction ls generalizing s with
  | nil => simp [State.accessLines, lineAccesses]
  | cons l ls ih =>
    have h := ih (s.access (accessOffsets s.curT.cell space l.address).1 space [l] (kind (s.clk + (accessOffsets s.curT.cell space l.address).2)))
    simp only [State.accessLines]
    refine ⟨?_, by simp [h], by simp [h], by simp [h], by simp [h], by simp [h], by simp [h], by simp [h]⟩
    rw [h.1, State.access_accesses, lineAccesses_congr (t := s) (by simp) (by simp)]
    simp [lineAccesses, State.access]

/-! ## Gates and faults -/

theorem State.guarded_off {s : State} {g : Gate} (h : s.issues g = false) (f : Option SlotFault) (k : State → State) :
    s.guarded g f k = .next s := by simp [State.guarded, h]
theorem State.guarded_on {s : State} {g : Gate} (h : s.issues g = true) (k : State → State) : s.guarded g none k = .next (k s) := by
  simp [State.guarded, State.orTrap, h]
theorem State.guarded_trap {s : State} {g : Gate} (h : s.issues g = true) (f : SlotFault) (k : State → State) :
    s.guarded g (some f) k = s.issueTrap f.1 f.2.1 f.2.2 := by
  simp [State.guarded, State.orTrap, h]

/-- Copy-watch: what a change of a copy engine makes due. -/
theorem State.copyWatch_cases (s : State) (cell : Nat) (old : CopyEngine) :
    ∃ es : List Event, s.copyWatch cell old = { s with events := es } := by
  have key : ∀ (u : State) (n ph k : Nat) (i : Item), ∃ es, u.after n ph k i = { u with events := es } := by
    intro u n ph k i
    unfold State.after State.at'
    simp only
    split
    · exact ⟨u.events, rfl⟩
    · exact ⟨_, rfl⟩
  unfold State.copyWatch
  simp only
  split
  · split
    · obtain ⟨e1, h1⟩ := key s 0 phNet (cell * 64 + 63) (.wake cell 63 none none)
      rw [h1]
      obtain ⟨e2, h2⟩ := key { s with events := e1 } 0 phNet 0 (.op .proofKeeperRequestService)
      exact ⟨e2, by rw [h2]⟩
    · exact key _ _ _ _ _
  · split
    · exact key _ _ _ _ _
    · exact ⟨s.events, rfl⟩

end Sys2Proof.Machine
end

