-- ==== Sys2Proof/Laws/PerInstr.lean ====
section
/-! SUPPORT. The per-instruction family `Opcodes`: the operation code an instruction is encoded with lies in the range
its gate's field of six or seven bits has, its gate is the one `gateOf` reads, and a barrel operation code decodes to
the instruction it was taken from. -/

namespace Sys2Proof.Laws.Opcodes

/-- The opcode of a slot instruction is between 1 and 127 and its gate is the instruction's own; the opcode of a barrel
instruction decodes to that instruction. -/
def Statement (i : Instr) : Prop :=
  (∀ p, slotParts i = some p → gateOf i = some p.1 ∧ 0 < p.2.1 ∧ p.2.1 < 128) ∧
    ∀ o, barrelOpcode i = some o → barrelOf o = some i

/-- A slot instruction of gate `g` and opcode `o` that is no barrel instruction. -/
theorem of_slot {i : Instr} {g : Gate} {o : Nat} {e : BitVec 45} (h : slotParts i = some (g, o, e))
    (hg : gateOf i = some g) (ho : 0 < o ∧ o < 128) (hb : barrelOpcode i = none) : Statement i :=
  ⟨fun p hp => by obtain rfl : (g, o, e) = p := by simpa [h] using hp
                  exact ⟨hg, ho⟩, fun o ho => by simp [hb] at ho⟩

/-- A barrel instruction of opcode `o` that is no slot instruction. -/
theorem of_barrel {i : Instr} {o : Nat} (h : slotParts i = none) (ho : barrelOpcode i = some o)
    (hb : barrelOf o = some i) : Statement i :=
  ⟨fun p hp => by simp [h] at hp, fun o' h' => by obtain rfl : o = o' := by simpa [ho] using h'
                                                  exact hb⟩

/-- An instruction that is neither. -/
theorem of_neither {i : Instr} (h : slotParts i = none) (hb : barrelOpcode i = none) : Statement i :=
  ⟨fun p hp => by simp [h] at hp, fun o ho => by simp [hb] at ho⟩

theorem groupIssue x0 : Statement (.groupIssue x0) := of_neither rfl rfl
theorem resultLanding x0 : Statement (.resultLanding x0) := of_neither rfl rfl
theorem handlerStart x0 : Statement (.handlerStart x0) := of_neither rfl rfl
theorem timedCoreStop x0 : Statement (.timedCoreStop x0) := of_neither rfl rfl
theorem haltComplete x0 : Statement (.haltComplete x0) := of_neither rfl rfl
theorem preemptionLanding x0 : Statement (.preemptionLanding x0) := of_neither rfl rfl
theorem contextImageSave x0 : Statement (.contextImageSave x0) := of_neither rfl rfl
theorem scheduleEntryWrite x0 x1 x2 : Statement (.scheduleEntryWrite x0 x1 x2) := of_neither rfl rfl
theorem scheduleLaunch x0 x1 : Statement (.scheduleLaunch x0 x1) := of_neither rfl rfl
theorem scheduleResume x0 x1 : Statement (.scheduleResume x0 x1) := of_neither rfl rfl
theorem schedulePreempt x0 x1 : Statement (.schedulePreempt x0 x1) := of_neither rfl rfl
theorem windowClose x0 x1 : Statement (.windowClose x0 x1) := of_neither rfl rfl
theorem windowRedirect x0 : Statement (.windowRedirect x0) := of_neither rfl rfl
theorem windowAccessArrival x0 : Statement (.windowAccessArrival x0) := of_neither rfl rfl
theorem barrierRelease x0 x1 x2 : Statement (.barrierRelease x0 x1 x2) := of_neither rfl rfl
theorem barrierTimeout x0 : Statement (.barrierTimeout x0) := of_neither rfl rfl
theorem domainBarrierRelease x0 x1 x2 : Statement (.domainBarrierRelease x0 x1 x2) := of_neither rfl rfl
theorem realignTimeout x0 : Statement (.realignTimeout x0) := of_neither rfl rfl
theorem matrixCommandEnd x0 : Statement (.matrixCommandEnd x0) := of_neither rfl rfl
theorem taggedCopyLine x0 x1 : Statement (.taggedCopyLine x0 x1) := of_neither rfl rfl
theorem remoteStoreArrival x0 : Statement (.remoteStoreArrival x0) := of_neither rfl rfl
theorem remoteStoreAck x0 : Statement (.remoteStoreAck x0) := of_neither rfl rfl
theorem slewStep x0 : Statement (.slewStep x0) := of_neither rfl rfl
theorem counterExchange x0 : Statement (.counterExchange x0) := of_neither rfl rfl
theorem hbmSlot x0 : Statement (.hbmSlot x0) := of_neither rfl rfl
theorem barrelIssue x0 : Statement (.barrelIssue x0) := of_neither rfl rfl
theorem taskDispatch x0 : Statement (.taskDispatch x0) := of_neither rfl rfl
theorem scratchpadBankService x0 x1 : Statement (.scratchpadBankService x0 x1) := of_neither rfl rfl
theorem fullEmptyServe x0 x1 : Statement (.fullEmptyServe x0 x1) := of_neither rfl rfl
theorem fullEmptyTimeout x0 : Statement (.fullEmptyTimeout x0) := of_neither rfl rfl
theorem requestPromotion x0 : Statement (.requestPromotion x0) := of_neither rfl rfl
theorem memoryRequestCompletion x0 x1 : Statement (.memoryRequestCompletion x0 x1) := of_neither rfl rfl
theorem sfnStart x0 : Statement (.sfnStart x0) := of_neither rfl rfl
theorem sfnResultLanding x0 : Statement (.sfnResultLanding x0) := of_neither rfl rfl
theorem barrelTrapEntry x0 x1 : Statement (.barrelTrapEntry x0 x1) := of_neither rfl rfl
theorem contextKillComplete x0 : Statement (.contextKillComplete x0) := of_neither rfl rfl
theorem mailboxPost x0 : Statement (.mailboxPost x0) := of_neither rfl rfl
theorem migrationChoice x0 : Statement (.migrationChoice x0) := of_neither rfl rfl
theorem migrationReservation x0 x1 : Statement (.migrationReservation x0 x1) := of_neither rfl rfl
theorem migrationArrival x0 x1 : Statement (.migrationArrival x0 x1) := of_neither rfl rfl
theorem pairedComparison x0 x1 : Statement (.pairedComparison x0 x1) := of_neither rfl rfl
theorem pairedTimeout x0 x1 : Statement (.pairedTimeout x0 x1) := of_neither rfl rfl
theorem samplerStart x0 : Statement (.samplerStart x0) := of_neither rfl rfl
theorem samplerMaskTimeout x0 x1 : Statement (.samplerMaskTimeout x0 x1) := of_neither rfl rfl
theorem sliceRequest x0 : Statement (.sliceRequest x0) := of_neither rfl rfl
theorem sliceFill x0 x1 : Statement (.sliceFill x0 x1) := of_neither rfl rfl
theorem writeBackDrain x0 : Statement (.writeBackDrain x0) := of_neither rfl rfl
theorem deadRangeSweep x0 : Statement (.deadRangeSweep x0) := of_neither rfl rfl
theorem tableWalk x0 : Statement (.tableWalk x0) := of_neither rfl rfl
theorem packetForward x0 : Statement (.packetForward x0) := of_neither rfl rfl
theorem linkBeatDelivery x0 x1 x2 : Statement (.linkBeatDelivery x0 x1 x2) := of_neither rfl rfl
theorem writeThroughAck x0 : Statement (.writeThroughAck x0) := of_neither rfl rfl
theorem mirrorTimeout x0 : Statement (.mirrorTimeout x0) := of_neither rfl rfl
theorem sealPages x0 : Statement (.sealPages x0) := of_neither rfl rfl
theorem collectiveComplete x0 x1 : Statement (.collectiveComplete x0 x1) := of_neither rfl rfl
theorem collectiveTimeout x0 x1 : Statement (.collectiveTimeout x0 x1) := of_neither rfl rfl
theorem collectivePacketIngress x0 x1 x2 : Statement (.collectivePacketIngress x0 x1 x2) := of_neither rfl rfl
theorem abortTokenArrival x0 x1 x2 : Statement (.abortTokenArrival x0 x1 x2) := of_neither rfl rfl
theorem remoteMessageArrival x0 : Statement (.remoteMessageArrival x0) := of_neither rfl rfl
theorem deliveryContextFailure x0 x1 : Statement (.deliveryContextFailure x0 x1) := of_neither rfl rfl
theorem correctedError x0 x1 x2 : Statement (.correctedError x0 x1 x2) := of_neither rfl rfl
theorem errorWindowStart x0 : Statement (.errorWindowStart x0) := of_neither rfl rfl
theorem ceilingChange x0 x1 : Statement (.ceilingChange x0 x1) := of_neither rfl rfl
theorem ctxqWrite x0 x1 x2 : Statement (.ctxqWrite x0 x1 x2) := of_neither rfl rfl
theorem gtctlWrite x0 x1 : Statement (.gtctlWrite x0 x1) := of_neither rfl rfl
theorem mrExtend x0 x1 : Statement (.mrExtend x0 x1) := of_neither rfl rfl
theorem controlRegisterWrite x0 x1 : Statement (.controlRegisterWrite x0 x1) := of_neither rfl rfl
theorem mbrconWrite x0 : Statement (.mbrconWrite x0) := of_neither rfl rfl
theorem neg x0 : Statement (.neg x0) := of_neither rfl rfl
theorem write x0 : Statement (.write x0) := of_neither rfl rfl
theorem read x0 : Statement (.read x0) := of_neither rfl rfl
theorem ctxnew x0 : Statement (.ctxnew x0) := of_neither rfl rfl
theorem ctxrel x0 : Statement (.ctxrel x0) := of_neither rfl rfl
theorem stage x0 : Statement (.stage x0) := of_neither rfl rfl
theorem commitSystemImage x0 : Statement (.commitSystemImage x0) := of_neither rfl rfl
theorem commitFirmware x0 : Statement (.commitFirmware x0) := of_neither rfl rfl
theorem attest x0 : Statement (.attest x0) := of_neither rfl rfl
theorem evread x0 : Statement (.evread x0) := of_neither rfl rfl
theorem xin x0 x1 : Statement (.xin x0 x1) := of_neither rfl rfl
theorem xout x0 x1 x2 : Statement (.xout x0 x1 x2) := of_neither rfl rfl
theorem waitt x0 x1 : Statement (.waitt x0 x1) := of_slot rfl rfl (by decide) rfl
theorem wopen x0 x1 : Statement (.wopen x0 x1) := of_slot rfl rfl (by decide) rfl
theorem wshut x0 x1 : Statement (.wshut x0 x1) := of_slot rfl rfl (by decide) rfl
theorem getpost x0 x1 : Statement (.getpost x0 x1) := of_slot rfl rfl (by decide) rfl
theorem bar x0 x1 : Statement (.bar x0 x1) := of_slot rfl rfl (by decide) rfl
theorem rcnt x0 x1 : Statement (.rcnt x0 x1) := of_slot rfl rfl (by decide) rfl
theorem fence x0 x1 : Statement (.fence x0 x1) := of_slot rfl rfl (by decide) rfl
theorem prel x0 x1 : Statement (.prel x0 x1) := of_slot rfl rfl (by decide) rfl
theorem pseal x0 x1 : Statement (.pseal x0 x1) := of_slot rfl rfl (by decide) rfl
theorem coll x0 x1 : Statement (.coll x0 x1) := of_slot rfl rfl (by decide) rfl
theorem cabort x0 x1 : Statement (.cabort x0 x1) := of_slot rfl rfl (by decide) rfl
theorem rdtk x0 x1 : Statement (.rdtk x0 x1) := of_slot rfl rfl (by decide) rfl
theorem yield x0 x1 : Statement (.yield x0 x1) := of_slot rfl rfl (by decide) rfl
theorem signal x0 x1 : Statement (.signal x0 x1) := of_slot rfl rfl (by decide) rfl
theorem add x0 x1 : Statement (.add x0 x1) := of_slot rfl rfl (by decide) rfl
theorem sub x0 x1 : Statement (.sub x0 x1) := of_slot rfl rfl (by decide) rfl
theorem addi x0 x1 : Statement (.addi x0 x1) := of_slot rfl rfl (by decide) rfl
theorem mul x0 x1 : Statement (.mul x0 x1) := of_slot rfl rfl (by decide) rfl
theorem mulh x0 x1 : Statement (.mulh x0 x1) := of_slot rfl rfl (by decide) rfl
theorem mulhn x0 x1 : Statement (.mulhn x0 x1) := of_slot rfl rfl (by decide) rfl
theorem div x0 x1 : Statement (.div x0 x1) := of_slot rfl rfl (by decide) rfl
theorem divn x0 x1 : Statement (.divn x0 x1) := of_slot rfl rfl (by decide) rfl
theorem rem x0 x1 : Statement (.rem x0 x1) := of_slot rfl rfl (by decide) rfl
theorem remn x0 x1 : Statement (.remn x0 x1) := of_slot rfl rfl (by decide) rfl
theorem and x0 x1 : Statement (.and x0 x1) := of_slot rfl rfl (by decide) rfl
theorem or x0 x1 : Statement (.or x0 x1) := of_slot rfl rfl (by decide) rfl
theorem xor x0 x1 : Statement (.xor x0 x1) := of_slot rfl rfl (by decide) rfl
theorem shl x0 x1 : Statement (.shl x0 x1) := of_slot rfl rfl (by decide) rfl
theorem shr x0 x1 : Statement (.shr x0 x1) := of_slot rfl rfl (by decide) rfl
theorem sar x0 x1 : Statement (.sar x0 x1) := of_slot rfl rfl (by decide) rfl
theorem min x0 x1 : Statement (.min x0 x1) := of_slot rfl rfl (by decide) rfl
theorem max x0 x1 : Statement (.max x0 x1) := of_slot rfl rfl (by decide) rfl
theorem minn x0 x1 : Statement (.minn x0 x1) := of_slot rfl rfl (by decide) rfl
theorem maxn x0 x1 : Statement (.maxn x0 x1) := of_slot rfl rfl (by decide) rfl
theorem clz x0 x1 : Statement (.clz x0 x1) := of_slot rfl rfl (by decide) rfl
theorem popc x0 x1 : Statement (.popc x0 x1) := of_slot rfl rfl (by decide) rfl
theorem li x0 x1 : Statement (.li x0 x1) := of_slot rfl rfl (by decide) rfl
theorem lih x0 x1 : Statement (.lih x0 x1) := of_slot rfl rfl (by decide) rfl
theorem sel x0 x1 : Statement (.sel x0 x1) := of_slot rfl rfl (by decide) rfl
theorem cmp x0 x1 : Statement (.cmp x0 x1) := of_slot rfl rfl (by decide) rfl
theorem plog x0 x1 : Statement (.plog x0 x1) := of_slot rfl rfl (by decide) rfl
theorem br x0 x1 : Statement (.br x0 x1) := of_slot rfl rfl (by decide) rfl
theorem brp x0 x1 : Statement (.brp x0 x1) := of_slot rfl rfl (by decide) rfl
theorem call x0 x1 : Statement (.call x0 x1) := of_slot rfl rfl (by decide) rfl
theorem ret x0 x1 : Statement (.ret x0 x1) := of_slot rfl rfl (by decide) rfl
theorem loop x0 x1 : Statement (.loop x0 x1) := of_slot rfl rfl (by decide) rfl
theorem lbrk x0 x1 : Statement (.lbrk x0 x1) := of_slot rfl rfl (by decide) rfl
theorem lstr x0 x1 : Statement (.lstr x0 x1) := of_slot rfl rfl (by decide) rfl
theorem realign x0 x1 : Statement (.realign x0 x1) := of_slot rfl rfl (by decide) rfl
theorem trap x0 x1 : Statement (.trap x0 x1) := of_slot rfl rfl (by decide) rfl
theorem rtt x0 x1 : Statement (.rtt x0 x1) := of_slot rfl rfl (by decide) rfl
theorem halt x0 x1 : Statement (.halt x0 x1) := of_slot rfl rfl (by decide) rfl
theorem mfc x0 x1 : Statement (.mfc x0 x1) := of_slot rfl rfl (by decide) rfl
theorem mtc x0 x1 : Statement (.mtc x0 x1) := of_slot rfl rfl (by decide) rfl
theorem lds x0 x1 : Statement (.lds x0 x1) := of_slot rfl rfl (by decide) rfl
theorem ldv x0 x1 : Statement (.ldv x0 x1) := of_slot rfl rfl (by decide) rfl
theorem ldvs x0 x1 : Statement (.ldvs x0 x1) := of_slot rfl rfl (by decide) rfl
theorem ldvx x0 x1 : Statement (.ldvx x0 x1) := of_slot rfl rfl (by decide) rfl
theorem ldvb x0 x1 : Statement (.ldvb x0 x1) := of_slot rfl rfl (by decide) rfl
theorem ldk x0 x1 : Statement (.ldk x0 x1) := of_slot rfl rfl (by decide) rfl
theorem sts x0 x1 : Statement (.sts x0 x1) := of_slot rfl rfl (by decide) rfl
theorem stv x0 x1 : Statement (.stv x0 x1) := of_slot rfl rfl (by decide) rfl
theorem stvm x0 x1 : Statement (.stvm x0 x1) := of_slot rfl rfl (by decide) rfl
theorem stvx x0 x1 : Statement (.stvx x0 x1) := of_slot rfl rfl (by decide) rfl
theorem stk x0 x1 : Statement (.stk x0 x1) := of_slot rfl rfl (by decide) rfl
theorem strs x0 x1 : Statement (.strs x0 x1) := of_slot rfl rfl (by decide) rfl
theorem strv x0 x1 : Statement (.strv x0 x1) := of_slot rfl rfl (by decide) rfl
theorem vadd x0 x1 : Statement (.vadd x0 x1) := of_slot rfl rfl (by decide) rfl
theorem vsub x0 x1 : Statement (.vsub x0 x1) := of_slot rfl rfl (by decide) rfl
theorem vmul x0 x1 : Statement (.vmul x0 x1) := of_slot rfl rfl (by decide) rfl
theorem vmulh x0 x1 : Statement (.vmulh x0 x1) := of_slot rfl rfl (by decide) rfl
theorem vmin x0 x1 : Statement (.vmin x0 x1) := of_slot rfl rfl (by decide) rfl
theorem vmax x0 x1 : Statement (.vmax x0 x1) := of_slot rfl rfl (by decide) rfl
theorem vabs x0 x1 : Statement (.vabs x0 x1) := of_slot rfl rfl (by decide) rfl
theorem vneg x0 x1 : Statement (.vneg x0 x1) := of_slot rfl rfl (by decide) rfl
theorem vand x0 x1 : Statement (.vand x0 x1) := of_slot rfl rfl (by decide) rfl
theorem vor x0 x1 : Statement (.vor x0 x1) := of_slot rfl rfl (by decide) rfl
theorem vxor x0 x1 : Statement (.vxor x0 x1) := of_slot rfl rfl (by decide) rfl
theorem vnot x0 x1 : Statement (.vnot x0 x1) := of_slot rfl rfl (by decide) rfl
theorem vshl x0 x1 : Statement (.vshl x0 x1) := of_slot rfl rfl (by decide) rfl
theorem vshlImm x0 x1 : Statement (.vshlImm x0 x1) := of_slot rfl rfl (by decide) rfl
theorem vshr x0 x1 : Statement (.vshr x0 x1) := of_slot rfl rfl (by decide) rfl
theorem vshrImm x0 x1 : Statement (.vshrImm x0 x1) := of_slot rfl rfl (by decide) rfl
theorem vsar x0 x1 : Statement (.vsar x0 x1) := of_slot rfl rfl (by decide) rfl
theorem vsarImm x0 x1 : Statement (.vsarImm x0 x1) := of_slot rfl rfl (by decide) rfl
theorem vadds x0 x1 : Statement (.vadds x0 x1) := of_slot rfl rfl (by decide) rfl
theorem vsubs x0 x1 : Statement (.vsubs x0 x1) := of_slot rfl rfl (by decide) rfl
theorem vfadd x0 x1 : Statement (.vfadd x0 x1) := of_slot rfl rfl (by decide) rfl
theorem vfsub x0 x1 : Statement (.vfsub x0 x1) := of_slot rfl rfl (by decide) rfl
theorem vfmul x0 x1 : Statement (.vfmul x0 x1) := of_slot rfl rfl (by decide) rfl
theorem vfma x0 x1 : Statement (.vfma x0 x1) := of_slot rfl rfl (by decide) rfl
theorem vfms x0 x1 : Statement (.vfms x0 x1) := of_slot rfl rfl (by decide) rfl
theorem vfdiv x0 x1 : Statement (.vfdiv x0 x1) := of_slot rfl rfl (by decide) rfl
theorem vfsqrt x0 x1 : Statement (.vfsqrt x0 x1) := of_slot rfl rfl (by decide) rfl
theorem vfmin x0 x1 : Statement (.vfmin x0 x1) := of_slot rfl rfl (by decide) rfl
theorem vfmax x0 x1 : Statement (.vfmax x0 x1) := of_slot rfl rfl (by decide) rfl
theorem vfabs x0 x1 : Statement (.vfabs x0 x1) := of_slot rfl rfl (by decide) rfl
theorem vfneg x0 x1 : Statement (.vfneg x0 x1) := of_slot rfl rfl (by decide) rfl
theorem vfcls x0 x1 : Statement (.vfcls x0 x1) := of_slot rfl rfl (by decide) rfl
theorem vcmp x0 x1 : Statement (.vcmp x0 x1) := of_slot rfl rfl (by decide) rfl
theorem vfcmp x0 x1 : Statement (.vfcmp x0 x1) := of_slot rfl rfl (by decide) rfl
theorem vsel x0 x1 : Statement (.vsel x0 x1) := of_slot rfl rfl (by decide) rfl
theorem vcas x0 x1 : Statement (.vcas x0 x1) := of_slot rfl rfl (by decide) rfl
theorem vtest x0 x1 : Statement (.vtest x0 x1) := of_slot rfl rfl (by decide) rfl
theorem vperm x0 x1 : Statement (.vperm x0 x1) := of_slot rfl rfl (by decide) rfl
theorem vbcast x0 x1 : Statement (.vbcast x0 x1) := of_slot rfl rfl (by decide) rfl
theorem vrot x0 x1 : Statement (.vrot x0 x1) := of_slot rfl rfl (by decide) rfl
theorem vslide x0 x1 : Statement (.vslide x0 x1) := of_slot rfl rfl (by decide) rfl
theorem vred x0 x1 : Statement (.vred x0 x1) := of_slot rfl rfl (by decide) rfl
theorem vscan x0 x1 : Statement (.vscan x0 x1) := of_slot rfl rfl (by decide) rfl
theorem vcvt x0 x1 : Statement (.vcvt x0 x1) := of_slot rfl rfl (by decide) rfl
theorem vnrw x0 x1 : Statement (.vnrw x0 x1) := of_slot rfl rfl (by decide) rfl
theorem vnrwf x0 x1 : Statement (.vnrwf x0 x1) := of_slot rfl rfl (by decide) rfl
theorem vwid x0 x1 : Statement (.vwid x0 x1) := of_slot rfl rfl (by decide) rfl
theorem vbexp x0 x1 : Statement (.vbexp x0 x1) := of_slot rfl rfl (by decide) rfl
theorem vqb x0 x1 : Statement (.vqb x0 x1) := of_slot rfl rfl (by decide) rfl
theorem vdqb x0 x1 : Statement (.vdqb x0 x1) := of_slot rfl rfl (by decide) rfl
theorem vmxFit x0 x1 : Statement (.vmxFit x0 x1) := of_slot rfl rfl (by decide) rfl
theorem vmxCvt x0 x1 : Statement (.vmxCvt x0 x1) := of_slot rfl rfl (by decide) rfl
theorem vexp2 x0 x1 : Statement (.vexp2 x0 x1) := of_slot rfl rfl (by decide) rfl
theorem vlog2 x0 x1 : Statement (.vlog2 x0 x1) := of_slot rfl rfl (by decide) rfl
theorem vrcp x0 x1 : Statement (.vrcp x0 x1) := of_slot rfl rfl (by decide) rfl
theorem vrsq x0 x1 : Statement (.vrsq x0 x1) := of_slot rfl rfl (by decide) rfl
theorem vbias x0 x1 : Statement (.vbias x0 x1) := of_slot rfl rfl (by decide) rfl
theorem vrng x0 x1 : Statement (.vrng x0 x1) := of_slot rfl rfl (by decide) rfl
theorem vmov x0 x1 : Statement (.vmov x0 x1) := of_slot rfl rfl (by decide) rfl
theorem kand x0 x1 : Statement (.kand x0 x1) := of_slot rfl rfl (by decide) rfl
theorem kor x0 x1 : Statement (.kor x0 x1) := of_slot rfl rfl (by decide) rfl
theorem kxor x0 x1 : Statement (.kxor x0 x1) := of_slot rfl rfl (by decide) rfl
theorem knot x0 x1 : Statement (.knot x0 x1) := of_slot rfl rfl (by decide) rfl
theorem kpop x0 x1 : Statement (.kpop x0 x1) := of_slot rfl rfl (by decide) rfl
theorem kfirst x0 x1 : Statement (.kfirst x0 x1) := of_slot rfl rfl (by decide) rfl
theorem mlds x0 x1 : Statement (.mlds x0 x1) := of_slot rfl rfl (by decide) rfl
theorem mldst x0 x1 : Statement (.mldst x0 x1) := of_slot rfl rfl (by decide) rfl
theorem mswap x0 x1 : Statement (.mswap x0 x1) := of_slot rfl rfl (by decide) rfl
theorem mmul x0 x1 : Statement (.mmul x0 x1) := of_slot rfl rfl (by decide) rfl
theorem mmul64 x0 x1 : Statement (.mmul64 x0 x1) := of_slot rfl rfl (by decide) rfl
theorem mzero x0 x1 : Statement (.mzero x0 x1) := of_slot rfl rfl (by decide) rfl
theorem mrdz x0 x1 : Statement (.mrdz x0 x1) := of_slot rfl rfl (by decide) rfl
theorem mwrz x0 x1 : Statement (.mwrz x0 x1) := of_slot rfl rfl (by decide) rfl
theorem mgang x0 x1 : Statement (.mgang x0 x1) := of_slot rfl rfl (by decide) rfl
theorem mscl x0 x1 : Statement (.mscl x0 x1) := of_slot rfl rfl (by decide) rfl
theorem mchk x0 x1 : Statement (.mchk x0 x1) := of_slot rfl rfl (by decide) rfl
theorem mec x0 x1 : Statement (.mec x0 x1) := of_slot rfl rfl (by decide) rfl
theorem cpt x0 x1 : Statement (.cpt x0 x1) := of_slot rfl rfl (by decide) rfl
theorem cptx x0 x1 : Statement (.cptx x0 x1) := of_slot rfl rfl (by decide) rfl
theorem cph x0 x1 : Statement (.cph x0 x1) := of_slot rfl rfl (by decide) rfl
theorem cpw x0 x1 : Statement (.cpw x0 x1) := of_slot rfl rfl (by decide) rfl
theorem cpg x0 x1 : Statement (.cpg x0 x1) := of_slot rfl rfl (by decide) rfl
theorem cps x0 x1 : Statement (.cps x0 x1) := of_slot rfl rfl (by decide) rfl
theorem cpm x0 x1 : Statement (.cpm x0 x1) := of_slot rfl rfl (by decide) rfl
theorem cpd x0 x1 : Statement (.cpd x0 x1) := of_slot rfl rfl (by decide) rfl
theorem cpf x0 x1 : Statement (.cpf x0 x1) := of_slot rfl rfl (by decide) rfl
theorem cdisc x0 x1 : Statement (.cdisc x0 x1) := of_slot rfl rfl (by decide) rfl
theorem cwany x0 x1 : Statement (.cwany x0 x1) := of_slot rfl rfl (by decide) rfl
theorem cwall x0 x1 : Statement (.cwall x0 x1) := of_slot rfl rfl (by decide) rfl
theorem cfirst x0 x1 : Statement (.cfirst x0 x1) := of_slot rfl rfl (by decide) rfl
theorem ctags x0 x1 : Statement (.ctags x0 x1) := of_slot rfl rfl (by decide) rfl
theorem ccancel x0 x1 : Statement (.ccancel x0 x1) := of_slot rfl rfl (by decide) rfl
theorem launchArgumentBlockCopy x0 x1 : Statement (.launchArgumentBlockCopy x0 x1) := of_neither rfl rfl
theorem suffixIndexRequestService x0 : Statement (.suffixIndexRequestService x0) := of_neither rfl rfl
theorem vaultNetworkPortService x0 x1 : Statement (.vaultNetworkPortService x0 x1) := of_neither rfl rfl
theorem timedAccessPerform : Statement .timedAccessPerform := of_neither rfl rfl
theorem kcontContain : Statement .kcontContain := of_neither rfl rfl
theorem energyRefill : Statement .energyRefill := of_neither rfl rfl
theorem tickIncrement : Statement .tickIncrement := of_neither rfl rfl
theorem cloadSample : Statement .cloadSample := of_neither rfl rfl
theorem xinvcInvalidate : Statement .xinvcInvalidate := of_neither rfl rfl
theorem plateReset : Statement .plateReset := of_neither rfl rfl
theorem thermalTrip : Statement .thermalTrip := of_neither rfl rfl
theorem packageReset : Statement .packageReset := of_neither rfl rfl
theorem tickLoad : Statement .tickLoad := of_neither rfl rfl
theorem barrelAdd : Statement .barrelAdd := of_barrel rfl rfl rfl
theorem barrelAddi : Statement .barrelAddi := of_barrel rfl rfl rfl
theorem barrelSub : Statement .barrelSub := of_barrel rfl rfl rfl
theorem barrelMul : Statement .barrelMul := of_barrel rfl rfl rfl
theorem barrelMulh : Statement .barrelMulh := of_barrel rfl rfl rfl
theorem barrelMulhn : Statement .barrelMulhn := of_barrel rfl rfl rfl
theorem barrelDiv : Statement .barrelDiv := of_barrel rfl rfl rfl
theorem barrelDivn : Statement .barrelDivn := of_barrel rfl rfl rfl
theorem barrelRem : Statement .barrelRem := of_barrel rfl rfl rfl
theorem barrelRemn : Statement .barrelRemn := of_barrel rfl rfl rfl
theorem barrelAnd : Statement .barrelAnd := of_barrel rfl rfl rfl
theorem andi : Statement .andi := of_barrel rfl rfl rfl
theorem barrelOr : Statement .barrelOr := of_barrel rfl rfl rfl
theorem ori : Statement .ori := of_barrel rfl rfl rfl
theorem barrelXor : Statement .barrelXor := of_barrel rfl rfl rfl
theorem xori : Statement .xori := of_barrel rfl rfl rfl
theorem barrelShl : Statement .barrelShl := of_barrel rfl rfl rfl
theorem shli : Statement .shli := of_barrel rfl rfl rfl
theorem barrelShr : Statement .barrelShr := of_barrel rfl rfl rfl
theorem shri : Statement .shri := of_barrel rfl rfl rfl
theorem barrelSar : Statement .barrelSar := of_barrel rfl rfl rfl
theorem sari : Statement .sari := of_barrel rfl rfl rfl
theorem slt : Statement .slt := of_barrel rfl rfl rfl
theorem sltn : Statement .sltn := of_barrel rfl rfl rfl
theorem slti : Statement .slti := of_barrel rfl rfl rfl
theorem barrelLih : Statement .barrelLih := of_barrel rfl rfl rfl
theorem barrelClz : Statement .barrelClz := of_barrel rfl rfl rfl
theorem barrelPopc : Statement .barrelPopc := of_barrel rfl rfl rfl
theorem sext : Statement .sext := of_barrel rfl rfl rfl
theorem zext : Statement .zext := of_barrel rfl rfl rfl
theorem fadd : Statement .fadd := of_barrel rfl rfl rfl
theorem fsub : Statement .fsub := of_barrel rfl rfl rfl
theorem fmul : Statement .fmul := of_barrel rfl rfl rfl
theorem fdiv : Statement .fdiv := of_barrel rfl rfl rfl
theorem fsqrt : Statement .fsqrt := of_barrel rfl rfl rfl
theorem fma : Statement .fma := of_barrel rfl rfl rfl
theorem fms : Statement .fms := of_barrel rfl rfl rfl
theorem fnma : Statement .fnma := of_barrel rfl rfl rfl
theorem fmin : Statement .fmin := of_barrel rfl rfl rfl
theorem fmax : Statement .fmax := of_barrel rfl rfl rfl
theorem fcmp : Statement .fcmp := of_barrel rfl rfl rfl
theorem fcls : Statement .fcls := of_barrel rfl rfl rfl
theorem fcvt : Statement .fcvt := of_barrel rfl rfl rfl
theorem fsgn : Statement .fsgn := of_barrel rfl rfl rfl
theorem frnd : Statement .frnd := of_barrel rfl rfl rfl
theorem fgetf : Statement .fgetf := of_barrel rfl rfl rfl
theorem fsetf : Statement .fsetf := of_barrel rfl rfl rfl
theorem ld : Statement .ld := of_barrel rfl rfl rfl
theorem st : Statement .st := of_barrel rfl rfl rfl
theorem lde : Statement .lde := of_barrel rfl rfl rfl
theorem ste : Statement .ste := of_barrel rfl rfl rfl
theorem ldp : Statement .ldp := of_barrel rfl rfl rfl
theorem amo : Statement .amo := of_barrel rfl rfl rfl
theorem cas : Statement .cas := of_barrel rfl rfl rfl
theorem barrelFence : Statement .barrelFence := of_barrel rfl rfl rfl
theorem wld : Statement .wld := of_barrel rfl rfl rfl
theorem wst : Statement .wst := of_barrel rfl rfl rfl
theorem wpost : Statement .wpost := of_barrel rfl rfl rfl
theorem beq : Statement .beq := of_barrel rfl rfl rfl
theorem bne : Statement .bne := of_barrel rfl rfl rfl
theorem blt : Statement .blt := of_barrel rfl rfl rfl
theorem bge : Statement .bge := of_barrel rfl rfl rfl
theorem bltn : Statement .bltn := of_barrel rfl rfl rfl
theorem bgen : Statement .bgen := of_barrel rfl rfl rfl
theorem jmp : Statement .jmp := of_barrel rfl rfl rfl
theorem jmpr : Statement .jmpr := of_barrel rfl rfl rfl
theorem barrelCall : Statement .barrelCall := of_barrel rfl rfl rfl
theorem callr : Statement .callr := of_barrel rfl rfl rfl
theorem barrelRet : Statement .barrelRet := of_barrel rfl rfl rfl
theorem fork : Statement .fork := of_barrel rfl rfl rfl
theorem join : Statement .join := of_barrel rfl rfl rfl
theorem yld : Statement .yld := of_barrel rfl rfl rfl
theorem park : Statement .park := of_barrel rfl rfl rfl
theorem wake : Statement .wake := of_barrel rfl rfl rfl
theorem tqget : Statement .tqget := of_barrel rfl rfl rfl
theorem tqput : Statement .tqput := of_barrel rfl rfl rfl
theorem emigr : Statement .emigr := of_barrel rfl rfl rfl
theorem send : Statement .send := of_barrel rfl rfl rfl
theorem recv : Statement .recv := of_barrel rfl rfl rfl
theorem mcast : Statement .mcast := of_barrel rfl rfl rfl
theorem tokpass : Statement .tokpass := of_barrel rfl rfl rfl
theorem tokwait : Statement .tokwait := of_barrel rfl rfl rfl
theorem sfn : Statement .sfn := of_barrel rfl rfl rfl
theorem rngpx : Statement .rngpx := of_barrel rfl rfl rfl
theorem sxopen : Statement .sxopen := of_barrel rfl rfl rfl
theorem sxapp : Statement .sxapp := of_barrel rfl rfl rfl
theorem sxqry : Statement .sxqry := of_barrel rfl rfl rfl
theorem sxrep : Statement .sxrep := of_barrel rfl rfl rfl
theorem sxsave : Statement .sxsave := of_barrel rfl rfl rfl
theorem sxload : Statement .sxload := of_barrel rfl rfl rfl
theorem sxclose : Statement .sxclose := of_barrel rfl rfl rfl
theorem smpd : Statement .smpd := of_barrel rfl rfl rfl
theorem propen : Statement .propen := of_barrel rfl rfl rfl
theorem barrelPrel : Statement .barrelPrel := of_barrel rfl rfl rfl
theorem barrelPseal : Statement .barrelPseal := of_barrel rfl rfl rfl
theorem pcheck : Statement .pcheck := of_barrel rfl rfl rfl
theorem prest : Statement .prest := of_barrel rfl rfl rfl
theorem prpt : Statement .prpt := of_barrel rfl rfl rfl
theorem barrelTrap : Statement .barrelTrap := of_barrel rfl rfl rfl
theorem rte : Statement .rte := of_barrel rfl rfl rfl
theorem getc : Statement .getc := of_barrel rfl rfl rfl
theorem setc : Statement .setc := of_barrel rfl rfl rfl
theorem exit : Statement .exit := of_barrel rfl rfl rfl
theorem proofKeeperRequestService : Statement .proofKeeperRequestService := of_neither rfl rfl
theorem powerLoss : Statement .powerLoss := of_neither rfl rfl

end Sys2Proof.Laws.Opcodes
end

