-- ==== Sys2Proof/Laws/Units.lean ====
section
/-! SUPPORT. What the machine's own units do when they ask for memory: one lemma says all that later proofs cite of each operation. -/

namespace Sys2Proof.Machine

open Sys2Proof

/-- What a unit has gathered, once noted, is what it has gathered. -/
@[simp] theorem State.unitJob_setUnit (s : State) (j : UnitJob) : (s.setUnit j).unitJob j.user = j := by
  simp [State.unitJob, State.setUnit, State.dropUnit, List.find?_append, List.find?_filter, List.find?_eq_none.2]

/-- A unit dropped has gathered nothing. -/
@[simp] theorem State.unitJob_dropUnit (s : State) (u : MemUnit) : (s.dropUnit u).unitJob u = UnitJob.fresh u := by
  simp [State.unitJob, State.dropUnit, List.find?_filter, List.find?_eq_none.2]

/-- Something made due changes the events alone. -/
theorem State.after_cases (s : State) (n phase key : Nat) (i : Item) : ∃ es : List Event, s.after n phase key i = { s with events := es } := by
  unfold State.after State.at'
  simp only
  split
  · exact ⟨s.events, rfl⟩
  · exact ⟨_, rfl⟩

/-- A packet sent stands under the next number, and its first move is due; the injection takes a free time (14_fabric R421). -/
theorem State.send_cases (s : State) (src dest cls phase key : Nat) (item : Item) :
    ∃ (due : Nat) (es : List Event) (l : Table Nat), s.clk ≤ due ∧ s.send src dest cls phase key item =
      { s with
        packets := s.packets.set s.nextId { source := src, here := src, input := 512, since := due, via := viaOf src dest, dest, cls, phase, key, item }
        lastSent := l, nextId := s.nextId + 1, free := s.drawDelay.2.free, events := es } := by
  unfold State.send State.at'
  simp only
  split <;> exact ⟨_, _, _, by omega, rfl⟩

/-- A walk begun stands under the next number (14_fabric R433). -/
theorem State.startWalk_cases (s : State) (plate ctx va : Nat) (write fetch : Bool) (user : WalkUser) :
    ∃ (go : Bool) (es : List Event) (n : Nat), s.startWalk plate ctx va write fetch user =
      { s with walks := s.walks.set s.nextId { plate, ctx, va, write, fetch, user, started := go, caches := true }
               nextId := s.nextId + 1, free := n, events := es } := by
  unfold State.startWalk
  simp only
  split
  · rename_i h
    obtain ⟨es, he⟩ := State.after_cases
      (({ s with walks := s.walks.set s.nextId ⟨plate, ctx, va, write, fetch, user, decide (s.walkers plate < 64), true⟩, nextId := s.nextId + 1 } : State).drawDelay).2
      (({ s with walks := s.walks.set s.nextId ⟨plate, ctx, va, write, fetch, user, decide (s.walkers plate < 64), true⟩, nextId := s.nextId + 1 } : State).drawDelay).1
      phNet 0 (.op (.tableWalk s.nextId))
    exact ⟨_, es, _, he⟩
  · exact ⟨_, _, _, rfl⟩

/-- A unit that asks for a piece of memory waits for the request that carries it. -/
theorem State.askPiece_cases (s : State) (u : MemUnit) (pa len : Nat) (write : Option (Nat × Nat × Nat)) :
    ∃ (cell n : Nat) (p : Packet) (l : Table Nat) (es : List Event), s.askPiece u pa len write =
      { s with units := (s.setUnit { s.unitJob u with waits := some s.nextId }).units
               requests := s.requests.set s.nextId (unitRequest u cell s.nextId pa len s.clk write)
               packets := s.packets.set (s.nextId + 1) p, lastSent := l, nextId := s.nextId + 2, free := n, events := es } := by
  unfold State.askPiece
  obtain ⟨_, es, l, -, h⟩ := State.send_cases
    { s.setUnit { s.unitJob u with waits := some s.nextId } with
      requests := (s.setUnit { s.unitJob u with waits := some s.nextId }).requests.set s.nextId (unitRequest u (u.cell s.walks) s.nextId pa len s.clk write)
      nextId := s.nextId + 1 }
    (unitRouter (u.cell s.walks)) (pointRouter pa) (if write.isSome then 2 else 0) phNet (u.cell s.walks * 64) (.deliver s.nextId)
  exact ⟨_, _, _, _, _, h⟩

/-- Asking for what a unit lacks leaves the cores, the registers, the package and every memory as they are. -/
theorem State.unitNeeds_frame (s : State) (u : MemUnit) (stop : UnitStop) :
    (s.unitNeeds u stop).cores = s.cores ∧ (s.unitNeeds u stop).barrels = s.barrels ∧ (s.unitNeeds u stop).mem = s.mem ∧
    (s.unitNeeds u stop).pkg = s.pkg ∧ (s.unitNeeds u stop).tick = s.tick ∧ (s.unitNeeds u stop).clk = s.clk := by
  unfold State.unitNeeds
  simp only
  split
  · exact ⟨rfl, rfl, rfl, rfl, rfl, rfl⟩
  · cases stop with
    | fault c v => exact ⟨rfl, rfl, rfl, rfl, rfl, rfl⟩
    | page plate ctx va write =>
      obtain ⟨_, _, _, h⟩ := State.startWalk_cases (s.setUnit { s.unitJob u with waits := some s.nextId }) plate ctx va write false (.unit u)
      simp only [h]
      exact ⟨rfl, rfl, rfl, rfl, rfl, rfl⟩
    | piece pa len =>
      obtain ⟨_, _, _, _, _, h⟩ := State.askPiece_cases s u pa len none
      simp only [h, and_self]
    | later => cases u <;> simp [State.unitAgain]

end Sys2Proof.Machine
end

