-- ==== Sys2Proof/Laws/Vector.lean ====
section
/-! SUPPORT. Lanes packed into a register, and what a lane-wise instruction puts into flight. -/

namespace Sys2Proof.Machine

open Sys2Proof

/-- A bit of a value placed at index `i` of width `m`. -/
theorem testBit_placed (m i v k : Nat) (hm : 0 < m) :
    (v % 2 ^ m * 2 ^ (m * i)).testBit k = (decide (k / m = i) && v.testBit (k % m)) := by
  rw [Nat.testBit_mul_two_pow, Nat.testBit_mod_two_pow]
  have hk := Nat.div_add_mod k m
  have hlt := Nat.mod_lt k hm
  by_cases h : k / m = i
  · subst h
    have h1 : m * (k / m) ≤ k := by omega
    have h2 : k - m * (k / m) = k % m := by omega
    simp [h1, h2, hlt]
  · have : ¬ (m * i ≤ k ∧ k - m * i < m) := by
      rintro ⟨a, b⟩
      apply h
      have e : k = m * i + (k - m * i) := by omega
      rw [e, Nat.mul_add_div hm, Nat.div_eq_of_lt b, Nat.add_zero]
    simp only [h, decide_false, Bool.false_and]
    by_cases a : m * i ≤ k
    · have : ¬ k - m * i < m := fun b => this ⟨a, b⟩
      simp [this]
    · simp [a]

/-- Numbers without a common bit add without a carry. -/
theorem testBit_add_of_disjoint {x y : Nat} (h : ∀ k, ¬(x.testBit k = true ∧ y.testBit k = true)) (k : Nat) :
    (x + y).testBit k = (x.testBit k || y.testBit k) := by
  have hand : x &&& y = 0 := by
    apply Nat.eq_of_testBit_eq
    intro i
    rw [Nat.testBit_and, Nat.zero_testBit]
    have := h i
    cases hx : x.testBit i <;> cases hy : y.testBit i <;> simp_all
  have hw : x + y < 2 ^ (x + y) := Nat.lt_two_pow_self
  have hx : x % 2 ^ (x + y) = x := Nat.mod_eq_of_lt (by omega)
  have hy : y % 2 ^ (x + y) = y := Nat.mod_eq_of_lt (by omega)
  have key : BitVec.ofNat (x + y) x + BitVec.ofNat (x + y) y = BitVec.ofNat (x + y) x ||| BitVec.ofNat (x + y) y := by
    apply BitVec.add_eq_or_of_and_eq_zero
    apply BitVec.eq_of_toNat_eq
    rw [BitVec.toNat_and, BitVec.toNat_ofNat, BitVec.toNat_ofNat, hx, hy, hand]
    simp
  have e := congrArg BitVec.toNat key
  rw [BitVec.toNat_add, BitVec.toNat_or, BitVec.toNat_ofNat, BitVec.toNat_ofNat, hx, hy,
    Nat.mod_eq_of_lt hw] at e
  rw [e, Nat.testBit_or]

/-- The sum of values placed at distinct indexes, bit by bit. -/
theorem testBit_foldl_placed (m : Nat) (hm : 0 < m) (ls : List (Nat × Nat)) (hd : (ls.map (·.1)).Nodup) (k : Nat) :
    (ls.foldl (fun (x : Nat) (l : Nat × Nat) => x + l.2 % 2 ^ m * 2 ^ (m * l.1)) 0).testBit k =
      ls.any fun l => decide (k / m = l.1) && l.2.testBit (k % m) := by
  induction ls using List.reverseRecOn generalizing k with
  | nil => simp
  | append_singleton ls l ih =>
    rw [List.map_append, List.nodup_append] at hd
    rw [List.foldl_append, List.foldl_cons, List.foldl_nil, testBit_add_of_disjoint, ih hd.1, testBit_placed _ _ _ _ hm]
    · simp
    · intro j ⟨h1, h2⟩
      rw [ih hd.1, List.any_eq_true] at h1
      rw [testBit_placed _ _ _ _ hm, Bool.and_eq_true, decide_eq_true_eq] at h2
      obtain ⟨x, hx, h3⟩ := h1
      rw [Bool.and_eq_true, decide_eq_true_eq] at h3
      exact hd.2.2 x.1 (List.mem_map_of_mem hx) l.1 (by simp) (by rw [← h3.1, h2.1])

/-- The value at an index of such a sum. -/
theorem foldl_placed_at (m : Nat) (hm : 0 < m) (ls : List (Nat × Nat)) (hd : (ls.map (·.1)).Nodup) (i : Nat) :
    (ls.foldl (fun (x : Nat) (l : Nat × Nat) => x + l.2 % 2 ^ m * 2 ^ (m * l.1)) 0) / 2 ^ (m * i) % 2 ^ m =
      match ls.find? fun l => l.1 == i with
      | some l => l.2 % 2 ^ m
      | none => 0 := by
  apply Nat.eq_of_testBit_eq
  intro j
  rw [Nat.testBit_mod_two_pow, Nat.testBit_div_two_pow, testBit_foldl_placed m hm ls hd]
  by_cases hj : j < m
  · have e1 : (j + m * i) / m = i := by rw [Nat.add_mul_div_left _ _ hm, Nat.div_eq_of_lt hj, Nat.zero_add]
    have e2 : (j + m * i) % m = j := by rw [Nat.add_mul_mod_self_left, Nat.mod_eq_of_lt hj]
    rw [e1, e2]
    simp only [hj, decide_true, Bool.true_and]
    cases hf : ls.find? fun l => l.1 == i with
    | none =>
      rw [List.find?_eq_none] at hf
      simp only [Nat.zero_testBit, List.any_eq_false, Bool.and_eq_true, decide_eq_true_eq, not_and]
      intro x hx e
      exact absurd (by simpa using e.symm) (hf x hx)
    | some l =>
      have hl := List.find?_some hf
      simp only [beq_iff_eq] at hl
      have hmem := List.mem_of_find?_eq_some hf
      simp only [Nat.testBit_mod_two_pow, hj, decide_true, Bool.true_and]
      rw [Bool.eq_iff_iff, List.any_eq_true]
      constructor
      · rintro ⟨x, hx, h⟩
        rw [Bool.and_eq_true, decide_eq_true_eq] at h
        have : x = l := List.inj_on_of_nodup_map hd hx hmem (by rw [← h.1, hl])
        rw [← this]; exact h.2
      · intro h
        exact ⟨l, hmem, by simp [hl, h]⟩
  · simp only [hj, decide_false, Bool.false_and]
    split <;> simp [Nat.testBit_mod_two_pow, hj]

/-! ## Lanes -/

theorem div_mod_trunc (x a m n : Nat) (h : a + m ≤ n) : x % 2 ^ n / 2 ^ a % 2 ^ m = x / 2 ^ a % 2 ^ m := by
  apply Nat.eq_of_testBit_eq
  intro i
  simp only [Nat.testBit_mod_two_pow, Nat.testBit_div_two_pow]
  by_cases hi : i < m
  · have : i + a < n := by omega
    simp [hi, this]
  · simp [hi]

theorem lane_fits {w j : Nat} (h : j < 256 / w) : 8 * w * j + 8 * w ≤ 2048 := by
  have h1 : (j + 1) * w ≤ 256 := Nat.le_trans (Nat.mul_le_mul_right _ h) (Nat.div_mul_le_self _ _)
  have e1 : 8 * w * j = 8 * (j * w) := by ring
  have e2 : (j + 1) * w = j * w + w := by ring
  omega

theorem width_pos {w j : Nat} (h : j < 256 / w) : 0 < w := by
  rcases Nat.eq_zero_or_pos w with rfl | h1
  · simp at h
  · exact h1

/-- A lane of packed lanes. -/
theorem lane_packLanes {w j : Nat} (hj : j < 256 / w) (ls : List (Nat × Nat)) (hd : (ls.map (·.1)).Nodup) :
    lane (packLanes w ls) w j = match ls.find? fun l => l.1 == j with
      | some l => l.2 % 2 ^ (8 * w)
      | none => 0 := by
  have h8 : 0 < 8 * w := by have := width_pos hj; omega
  rw [← foldl_placed_at (8 * w) h8 ls hd j]
  unfold lane packLanes placed
  simp only [BitVec.toNat_ofNat]
  exact div_mod_trunc _ _ _ _ (lane_fits hj)

theorem maskLanes_eq (w : Nat) (ls : List Nat) : maskLanes w ls = packLanes w (ls.map fun i => (i, 2 ^ (8 * w) - 1)) := by
  unfold maskLanes packLanes laneBits
  rw [List.foldl_map]

theorem find?_map_pair {α : Type} (ls : List Nat) (f : Nat → α) (j : Nat) (h : j ∈ ls) :
    (ls.map fun i => (i, f i)).find? (fun l => l.1 == j) = some (j, f j) := by
  induction ls with
  | nil => simp at h
  | cons a t ih =>
    rw [List.map_cons, List.find?_cons]
    by_cases e : a = j
    · simp [e]
    · have : j ∈ t := by
        rcases List.mem_cons.mp h with h | h
        · exact absurd h.symm e
        · exact h
      have e' : (a == j) = false := by simpa using e
      simp only [e']
      exact ih this

/-- A lane of the bits of some lanes. -/
theorem lane_maskLanes {w j : Nat} (hj : j < 256 / w) (ls : List Nat) (hd : ls.Nodup) :
    lane (maskLanes w ls) w j = if j ∈ ls then 2 ^ (8 * w) - 1 else 0 := by
  rw [maskLanes_eq, lane_packLanes hj _ (by simpa [List.map_map, Function.comp_def] using hd)]
  have hlt : (2 ^ (8 * w) - 1) % 2 ^ (8 * w) = 2 ^ (8 * w) - 1 := Nat.mod_eq_of_lt (Nat.sub_lt (Nat.two_pow_pos _) Nat.one_pos)
  by_cases h : j ∈ ls
  · have := find?_map_pair ls (fun _ => 2 ^ (8 * w) - 1) j h
    rw [this]
    simp [h, hlt]
  · have : (ls.map fun i => (i, 2 ^ (8 * w) - 1)).find? (fun l => l.1 == j) = none := by
      rw [List.find?_eq_none]
      intro x hx
      obtain ⟨i, hi, rfl⟩ := List.mem_map.mp hx
      simp only [beq_iff_eq]
      rintro rfl
      exact h hi
    rw [this]
    simp [h]

theorem enabledLanes_nodup (guard : Mask) (w : Nat) : (enabledLanes guard w).Nodup :=
  List.Nodup.sublist List.filter_sublist List.nodup_range

theorem mem_enabledLanes {guard : Mask} {w j : Nat} : j ∈ enabledLanes guard w ↔ j < 256 / w ∧ guard.getLsbD (w * j) = true := by
  simp [enabledLanes]

/-- What a lane-wise instruction puts into flight (R154, R156): each enabled lane as computed, the other lanes not written, and the flags
that enabled lanes raised. -/
theorem State.lanewise_spec (s : State) (g : Gate) (d : BitVec 6) (w offset opcode : Nat) (op : Core → Nat → Nat × Flags)
    (h : s.iterates g = true) :
    ∃ (x bits : VReg) (fl : List (Nat × Flags)),
      s.lanewise g d w offset opcode op =
        .next (s.flight (vOffset offset d.toNat) opcode [.v d.toNat x bits] (unitGroup s.curT.slot) fl none) ∧
      (∀ j < 256 / w, if (s.cur.pv' g.guard.toNat).getLsbD (w * j) = true
        then lane x w j = (op s.cur j).1 % 2 ^ (8 * w) ∧ lane bits w j = 2 ^ (8 * w) - 1 else lane bits w j = 0) ∧
      ∀ j u, (j, u) ∈ fl ↔ j < 256 / w ∧ (s.cur.pv' g.guard.toNat).getLsbD (w * j) = true ∧ u = (op s.cur j).2 ∧ u ≠ 0 := by
  refine ⟨_, _, _, by simp only [State.lanewise, State.vector, h, if_true]; rfl, ?_, ?_⟩
  · intro j hj
    have hm : ∀ i, i ∈ enabledLanes (s.cur.pv' g.guard.toNat) w ↔ _ := fun i => mem_enabledLanes
    have hb : lane (maskLanes w (((enabledLanes (s.cur.pv' g.guard.toNat) w).map fun i => (i, op s.cur i)).map (·.1))) w j =
        if j ∈ enabledLanes (s.cur.pv' g.guard.toNat) w then 2 ^ (8 * w) - 1 else 0 := by
      rw [lane_maskLanes hj]
      · simp
      · simpa [List.map_map, Function.comp_def] using enabledLanes_nodup (s.cur.pv' g.guard.toNat) w
    split
    · rename_i he
      have hin := (hm j).mpr ⟨hj, he⟩
      refine ⟨?_, by rw [hb, if_pos hin]⟩
      rw [lane_packLanes hj]
      · rw [List.map_map]
        have := find?_map_pair _ (fun i => (op s.cur i).1) j hin
        simp only [Function.comp_def]
        rw [this]
      · simpa [List.map_map, Function.comp_def] using enabledLanes_nodup (s.cur.pv' g.guard.toNat) w
    · rename_i he
      rw [hb, if_neg]
      exact fun hin => he ((hm j).mp hin).2
  · intro j u
    simp only [laneFlags, List.map_map, List.mem_filter, List.mem_map, Function.comp_apply, Prod.mk.injEq, mem_enabledLanes, bne_iff_ne]
    constructor
    · rintro ⟨⟨i, hi, rfl, rfl⟩, hu⟩
      exact ⟨hi.1, hi.2, rfl, hu⟩
    · rintro ⟨h1, h2, rfl, h3⟩
      exact ⟨⟨j, ⟨h1, h2⟩, rfl, rfl⟩, h3⟩

/-! ## Predicates -/

theorem testBit_ones (w k : Nat) : (2 ^ w - 1).testBit k = decide (k < w) := by
  rw [Nat.testBit_two_pow_sub_one]

theorem foldl_if_filter (ls : List (Nat × Bool × Flags)) (f : Nat → Nat) (a : Nat) :
    ls.foldl (fun x o => if o.2.1 then x + f o.1 else x) a = (ls.filter (·.2.1)).foldl (fun x o => x + f o.1) a := by
  induction ls generalizing a with
  | nil => rfl
  | cons o t ih =>
    simp only [List.foldl_cons, List.filter_cons]
    split <;> simp [ih]

/-- What a lane-wise predicate instruction puts into flight (R164): each enabled lane's bits all equal its condition. -/
theorem State.predwise_spec (s : State) (g : Gate) (d : BitVec 6) (w offset opcode : Nat) (op : Core → Nat → Bool × Flags)
    (hw : 0 < w) (h : s.iterates g = true) :
    ∃ (x bits : Mask) (fl : List (Nat × Flags)),
      s.predwise g d w offset opcode op =
        .next (s.flight offset opcode [.pv d.toNat x bits] (unitGroup s.curT.slot) fl none) ∧
      (∀ k < 256, k / w < 256 / w → bits.getLsbD k = (s.cur.pv' g.guard.toNat).getLsbD (w * (k / w)) ∧
        ((s.cur.pv' g.guard.toNat).getLsbD (w * (k / w)) = true → x.getLsbD k = (op s.cur (k / w)).1)) ∧
      ∀ j u, (j, u) ∈ fl ↔ j < 256 / w ∧ (s.cur.pv' g.guard.toNat).getLsbD (w * j) = true ∧ u = (op s.cur j).2 ∧ u ≠ 0 := by
  refine ⟨_, _, _, by simp only [State.predwise, State.vector, h, if_true]; rfl, ?_, ?_⟩
  · intro k hk hj
    have hsum : ∀ (ls : List (Nat × Bool × Flags)), (ls.map (·.1)).Nodup →
        (BitVec.ofNat 256 (ls.foldl (fun x o => x + predBits w o.1) 0)).getLsbD k = ls.any fun o => decide (k / w = o.1) := by
      intro ls hd
      rw [BitVec.getLsbD_ofNat]
      simp only [hk, decide_true, Bool.true_and]
      have e : ls.foldl (fun x o => x + predBits w o.1) 0 =
          (ls.map fun o => (o.1, 2 ^ w - 1)).foldl (fun (x : Nat) (l : Nat × Nat) => x + l.2 % 2 ^ w * 2 ^ (w * l.1)) 0 := by
        rw [List.foldl_map]
        have hlt : (2 ^ w - 1) % 2 ^ w = 2 ^ w - 1 := Nat.mod_eq_of_lt (Nat.sub_lt (Nat.two_pow_pos _) Nat.one_pos)
        simp only [predBits, hlt]
      rw [e, testBit_foldl_placed w hw _ (by simpa [List.map_map, Function.comp_def] using hd), List.any_map]
      congr 1
      funext o
      simp [testBit_ones, Nat.mod_lt _ hw]
    have hd : (((enabledLanes (s.cur.pv' g.guard.toNat) w).map fun i => (i, op s.cur i)).map (·.1)).Nodup := by
      simpa [List.map_map, Function.comp_def] using enabledLanes_nodup (s.cur.pv' g.guard.toNat) w
    constructor
    · rw [hsum _ hd, Bool.eq_iff_iff]
      simp only [List.any_map, List.any_eq_true, Function.comp_apply, decide_eq_true_eq, exists_eq_right', mem_enabledLanes]
      constructor
      · exact fun q => q.2
      · exact fun q => ⟨hj, q⟩
    · intro he
      rw [foldl_if_filter, hsum]
      · rw [Bool.eq_iff_iff]
        simp only [List.any_eq_true, List.mem_filter, List.mem_map, decide_eq_true_eq, mem_enabledLanes]
        constructor
        · rintro ⟨_, ⟨⟨i, hi, rfl⟩, h2⟩, h3⟩
          simp only at h2 h3
          rw [h3]; exact h2
        · intro q
          exact ⟨_, ⟨⟨k / w, ⟨hj, he⟩, rfl⟩, q⟩, rfl⟩
      · exact hd.sublist (List.Sublist.map _ List.filter_sublist)
  · intro j u
    simp only [List.map_map, List.mem_filter, List.mem_map, Function.comp_apply, Prod.mk.injEq, mem_enabledLanes, bne_iff_ne]
    constructor
    · rintro ⟨⟨i, hi, rfl, rfl⟩, hu⟩
      exact ⟨hi.1, hi.2, rfl, hu⟩
    · rintro ⟨h1, h2, rfl, h3⟩
      exact ⟨⟨j, ⟨h1, h2⟩, rfl, rfl⟩, h3⟩

end Sys2Proof.Machine
end

