-- ==== Sys2Proof/Tests/Slice0.lean ====
section
/-! SUPPORT. Tests: the spec's own words and worked values, ill-formed terms, and states that meet the statements' premises. -/

namespace Sys2Proof.Tests

open Sys2Proof Sys2Proof.Machine

set_option Elab.async false

/-! ## Words that the spec writes out -/

/-- 03_encoding, the example bundle after R77: its words 2 to 7. -/
theorem test_bundle_decodes :
    decodeBundle 0x80000000000000000000000000030628A000000400008E40001000C0000000000000000090210602800000000000000000000000000000000000000000000000 =
      .ok ⟨true, [(6, .addi ⟨0, 3⟩ ⟨5, 5, 64⟩),
        (5, .lds ⟨0, 0⟩ { data := 7, base := 2, space := 0, offset := 128, wcls := 0, type := 3, func := 0 }),
        (3, .vfadd ⟨0, 0⟩ { d := 1, a := 2, b := 3, c := 0, type := 10, rnd := 0, sat := 0, wcls := 0, func := 0 })]⟩ := by decide +kernel

/-- R66 and form C: `stv v60, [a3 − 64]` to the vault, wait class 1, guard p5, only in the last iteration, bit by bit. -/
theorem test_store_word : decodeSlot 4 0x02505E1BFFFE0200 =
    .ok (some (.stv ⟨2, 5⟩ { data := 60, base := 3, space := 1, offset := -64, wcls := 1, type := 0, func := 0 })) := by decide

/-- R66 and form D: `br.nz s9` two bundles back. -/
theorem test_branch_word : decodeSlot 6 0x00039FFFFFC48001 = .ok (some (.br ⟨0, 0⟩ ⟨-2, 9, 1⟩)) := by decide

/-- R65: s5 into v7, and p5 into pv9. -/
theorem test_xin_words : decodeXin 0x1147 = .ok (some (.xin 5 7)) ∧ decodeXin 0x1179 = .ok (some (.xin 5 57)) := by decide
/-- R65: 64-bit lane 31 of v7 into s2, and bit 24 of pv10 into p4. -/
theorem test_xout_words : decodeXout 0x23FC2 = .ok (some (.xout 7 31 2)) ∧ decodeXout 0x3D0C4 = .ok (some (.xout 58 3 4)) := by decide

/-- Words of the matrix, copy, sync and vector slots (07_matrix, 08_copy R235, 09_windows R274, 06_vector R160). -/
theorem test_slot_words :
    decodeSlot 1 0x0000811879A00008 = .ok (some (.mmul ⟨0, 0⟩ { f1 := 2, f2 := 12, f3 := 15, f4 := 13, tag := 0, func := 8 })) ∧
    decodeSlot 0 0x0000A51660A00012 = .ok (some (.cpg ⟨0, 0⟩ { f1 := 10, f2 := 11, f3 := 12, f4 := 5, tag := 0, func := 0x12 })) ∧
    decodeSlot 7 0x00004524B3020004 = .ok (some (.wopen ⟨0, 0⟩ { f1 := 10, f2 := 18, f3 := 22, f4 := 24, tag := 2, func := 4 })) ∧
    decodeSlot 3 0x0014E720000A0004 = .ok (some (.vred ⟨0, 1⟩
      { d := 14, a := 16, b := 0, c := 0, type := 10, rnd := 0, sat := 0, wcls := 0, func := 4 })) := by decide

/-- Words of 03_encoding, 10_barrel, 11_barrel_traps, 12_draft and 13_proof. -/
theorem test_barrel_words :
    decodeBarrel 0x02090400FFFFFFFD = .ok (.barrelAddi, ⟨9, 4, 0, -3⟩) ∧ decodeBarrel 0x48000102FFFFFFFC = .ok (.beq, ⟨0, 1, 2, -4⟩) ∧
    decodeBarrel 0x3809040A00000010 = .ok (.ld, ⟨9, 4, 10, 16⟩) ∧ decodeBarrel 0x3D050607000006B1 = .ok (.amo, ⟨5, 6, 7, 0x6B1⟩) ∧
    decodeBarrel 0x6808040000000000 = .ok (.sfn, ⟨8, 4, 0, 0⟩) ∧ decodeBarrel 0x8000000000000007 = .ok (.barrelTrap, ⟨0, 0, 0, 7⟩) ∧
    decodeBarrel 0x8400000000000000 = .ok (.exit, ⟨0, 0, 0, 0⟩) ∧ decodeBarrel 0x7806040200000000 = .ok (.propen, ⟨6, 4, 2, 0⟩) ∧
    decodeBarrel 0x790B000000000001 = .ok (.barrelPrel, ⟨11, 0, 0, 1⟩) ∧ decodeBarrel 0x7A0C040000000000 = .ok (.barrelPseal, ⟨12, 4, 0, 0⟩) ∧
    decodeBarrel 0x7D09030000000001 = .ok (.prpt, ⟨9, 3, 0, 1⟩) ∧ decodeBarrel 0x7111011200000001 = .ok (.sxapp, ⟨17, 1, 18, 1⟩) := by decide

/-- R460: WRITE of 48 bytes at physical 0x1234, tag 0xABCD, and an opcode that no command has. -/
theorem test_command_words :
    decodeCommand 0x1234ABCD000100003002 =
      some (.write { tag := 0xABCD, reserved := 0, phys := 1, ctx := 0, len := 48, word1 := 0x1234, data := 0 }) ∧
    decodeCommand 0x0A = none := by decide +kernel

/-- A word of zeros is no barrel instruction, and a NOP with a bit set no slot instruction (R66, R78). -/
theorem test_refused_words : decodeBarrel 0 = .error (.illegalOpcode 0) ∧ decodeSlot 6 0 = .ok none ∧
    decodeSlot 6 1 = .error (.illegalField 0) ∧ decodeBarrel 0x0209049000000000 = .error (.illegalField 32) := by decide

/-- The host's numbering: bit 0 is the lowest bit of a barrel word, and of a bundle. -/
theorem test_table_words : decodeTableWord 64 0x02090400FFFFFFFD = some .barrelAddi ∧
    decodeTableWord 512 0x80000000000000000000000000030628a00000040000000000000000000000000000000000000000000000000000000000000000000000000000000000000000 = some (.addi ⟨0, 3⟩ ⟨5, 5, 64⟩) := by decide +kernel

/-! ## Ill-formed terms, one for each kind of check -/

def g0 : Gate := ⟨0, 0⟩
def A0 : FormA := { d := 0, a := 0, b := 0, c := 0, type := 0, rnd := 0, sat := 0, wcls := 0, func := 0 }
def C0 : FormC := { data := 0, base := 0, space := 0, offset := 0, wcls := 0, type := 0, func := 0 }
def D0 : FormD := { target := 0, cond := 0, func := 0 }
def E0 : FormE := { f1 := 0, f2 := 0, f3 := 0, f4 := 0, tag := 0, func := 0 }

/-- R66, R69: iter 3; each unread field; classed names past 15; control registers that do not exist or have no writable field. -/
theorem test_ill_formed_scalar : ∀ i ∈ [Instr.add ⟨3, 0⟩ A0, .add g0 { A0 with c := 1 }, .add g0 { A0 with type := 1 }, .add g0 { A0 with rnd := 1 },
      .add g0 { A0 with sat := 1 }, .add g0 { A0 with wcls := 1 }, .add g0 { A0 with func := 1 }, .add g0 { A0 with d := 16, func := 0x200 },
      .sub g0 { A0 with a := 16, func := 0x100 }, .xor g0 { A0 with b := 16, func := 0x80 }, .mul g0 { A0 with func := 0x80 },
      .clz g0 { A0 with b := 1 }, .realign g0 { A0 with func := 1 }, .li g0 ⟨16, 1, 0⟩, .li g0 ⟨0, 2, 0⟩, .lih g0 ⟨0, 0, 2 ^ 32⟩, .sel g0 { A0 with c := 16 },
      .cmp g0 { A0 with d := 16 }, .cmp g0 { A0 with func := 7 }, .plog g0 { A0 with a := 16 }, .plog g0 { A0 with func := 16 },
      .br g0 { D0 with cond := 1 }, .br g0 { D0 with func := 7 }, .br g0 { D0 with func := 8 }, .brp g0 { D0 with cond := 16 },
      .brp g0 { D0 with func := 2 }, .call g0 { D0 with cond := 1 }, .call g0 { D0 with func := 1 }, .ret g0 { A0 with d := 1 },
      .loop g0 { A0 with d := 1 }, .lstr g0 { A0 with d := 16 }, .trap g0 { A0 with a := 1 }, .mfc g0 { A0 with func := 2 },
      .mtc g0 { A0 with func := 4 }, .mtc g0 { A0 with d := 1, func := 8 }], wellFormed 6 i = false := by decide

/-- R139: data past v55 or k7, space 3, a type or an option that the instruction does not have. -/
theorem test_ill_formed_memory : ∀ i ∈ [Instr.ldv g0 { C0 with data := 56 }, .lds g0 { C0 with space := 3 }, .lds g0 { C0 with type := 8 },
      .lds g0 { C0 with func := 1 }, .ldvs g0 { C0 with func := 4 }, .ldvb g0 { C0 with type := 15 }, .ldk g0 { C0 with data := 8 },
      .stvm g0 { C0 with func := 8 }, .stvx g0 { C0 with type := 1 }], wellFormed 5 i = false := by decide

/-- R69, R160 to R181: latches of the other unit, types, rounding codes, lane and part numbers, group sizes and operations. -/
theorem test_ill_formed_vector : ∀ i ∈ [Instr.vadd g0 { A0 with d := 60 }, .vadd g0 { A0 with type := 8 }, .vadd g0 { A0 with sat := 1 },
      .vnot g0 { A0 with b := 1 }, .vshl g0 { A0 with func := 1 }, .vshlImm g0 { A0 with func := 0x180 }, .vshlImm g0 { A0 with func := 1 },
      .vfadd g0 { A0 with type := 12 }, .vfadd g0 { A0 with type := 10, rnd := 5 }, .vfmin g0 { A0 with type := 10, func := 2 },
      .vcmp g0 { A0 with d := 16 }, .vcmp g0 { A0 with func := 6 }, .vfcmp g0 { A0 with type := 0 }, .vsel g0 { A0 with c := 16 },
      .vcas g0 { A0 with d := 1, c := 1, type := 10 }, .vcas g0 { A0 with c := 1, type := 11 }, .vbcast g0 { A0 with type := 3, func := 32 },
      .vslide g0 { A0 with type := 3, func := 33 }, .vred g0 { A0 with func := 9 }, .vred g0 { A0 with type := 3, func := 0xC0 },
      .vred g0 { A0 with func := 0x10 }, .vscan g0 { A0 with func := 4 }, .vcvt g0 { A0 with type := 10, func := 10 },
      .vcvt g0 { A0 with type := 10, func := 0x22 }, .vnrw g0 { A0 with type := 10, func := 0x68 }, .vnrw g0 { A0 with type := 2, rnd := 1 },
      .vnrwf g0 { A0 with type := 10, func := 8 }, .vwid g0 { A0 with type := 2, func := 10 }, .vqb g0 { A0 with type := 10, func := 23 },
      .vqb g0 { A0 with type := 8, func := 0x3F0 }, .vdqb g0 { A0 with type := 11, func := 16 }, .vmxFit g0 { A0 with type := 21 },
      .vmxCvt g0 { A0 with type := 22 }, .vexp2 g0 { A0 with type := 8 }, .vbias g0 { A0 with type := 8, func := 1 },
      .vrng g0 { A0 with type := 6, a := 1 }, .vmov g0 { A0 with type := 15 }, .kand g0 { A0 with d := 8, func := 4 }, .knot g0 { A0 with b := 1 },
      .kpop g0 { A0 with func := 4 }], wellFormed 3 i = false := by decide

/-- R203, R207 to R216, R235, R242 to R245, R272 to R284, R65: tiles, records, types, unread fields and options. -/
theorem test_ill_formed_engines : ∀ i ∈ [Instr.mlds g0 { E0 with tag := 4 }, .mldst g0 { E0 with f3 := 1 }, .mmul g0 { E0 with f1 := 4 },
      .mmul g0 { E0 with func := 16 }, .mmul64 g0 { E0 with func := 0x50 }, .mzero g0 E0, .mswap g0 { E0 with func := 4 },
      .mrdz g0 { E0 with tag := 11, f2 := 56 }, .mrdz g0 { E0 with tag := 11, func := 0x100 }, .mrdz g0 { E0 with tag := 14, func := 4 },
      .mrdz g0 { E0 with tag := 0, func := 0x40 }, .mwrz g0 { E0 with tag := 10, func := 8 }, .mgang g0 { E0 with func := 64 },
      .mscl g0 { E0 with func := 0x14 }, .mchk g0 { E0 with f1 := 4 }, .mec g0 { E0 with f2 := 1 }, .cpt g0 { E0 with func := 2 },
      .cpt g0 { E0 with func := 8 }, .cptx g0 { E0 with func := 4 }, .cph g0 { E0 with func := 1 }, .cpg g0 { E0 with func := 32 },
      .cpd g0 { E0 with func := 16 }, .cpf g0 { E0 with f3 := 1 }, .ctags g0 { E0 with func := 4 }, .ccancel g0 { E0 with f1 := 1 },
      .waitt g0 { E0 with func := 4 }, .wopen g0 { E0 with func := 3 }, .wopen g0 { E0 with f4 := 61 }, .wopen g0 { E0 with tag := 16 },
      .getpost g0 { E0 with func := 5 }, .bar g0 { E0 with f2 := 1 }, .rcnt g0 { E0 with tag := 4 }, .fence g0 E0, .rdtk g0 { E0 with func := 1 },
      .yield g0 { E0 with tag := 1 }], wellFormed 7 i = false := by decide
theorem test_ill_formed_crossings : wellFormed 8 (.xin 16 56) = false ∧ wellFormed 9 (.xout 56 0 16) = false := by decide

/-- R79 and the encoding tables of the barrel chapters: unread fields, options, register numbers past 143, pairs of common registers. -/
theorem test_ill_formed_words : ∀ x ∈ ([(.barrelAdd, ⟨144, 0, 0, 0⟩), (.barrelAdd, ⟨0, 0, 0, 2⟩), (.barrelAnd, ⟨0, 0, 0, 1⟩), (.barrelClz, ⟨0, 0, 1, 0⟩),
      (.shli, ⟨0, 0, 0, 64⟩), (.barrelLih, ⟨0, 1, 0, 0⟩), (.sext, ⟨0, 0, 0, 3⟩), (.fadd, ⟨0, 0, 0, 0x20⟩), (.fadd, ⟨0, 0, 0, 5⟩),
      (.fsqrt, ⟨0, 0, 1, 0⟩), (.fcmp, ⟨0, 0, 0, 0x800⟩), (.fcvt, ⟨0, 0, 0, 0x20303⟩), (.fsgn, ⟨0, 0, 0, 0x300⟩), (.fgetf, ⟨0, 0, 0, 1⟩),
      (.fsetf, ⟨0, 0, 0, 0x40⟩), (.ld, ⟨0, 0, 7, 0⟩), (.ld, ⟨0, 0, 0x20, 0⟩), (.st, ⟨0, 0, 4, 0⟩), (.lde, ⟨0, 0, 2, 0⟩), (.ldp, ⟨128, 0, 0, 0⟩),
      (.wld, ⟨0, 0, 16, 0⟩), (.wpost, ⟨0, 0, 64, 0⟩), (.amo, ⟨0, 0, 0, 0x10⟩), (.amo, ⟨0, 0, 0, 0x39⟩), (.cas, ⟨0, 0, 0, 0x31⟩),
      (.barrelFence, ⟨0, 0, 0, 0⟩), (.beq, ⟨1, 0, 0, 0⟩), (.jmp, ⟨0, 1, 0, 0⟩), (.send, ⟨0, 0, 0, 0⟩), (.recv, ⟨0, 0, 0, 9⟩), (.sfn, ⟨0, 0, 0, 0x800⟩),
      (.sxqry, ⟨0, 0, 0, 17⟩), (.sxrep, ⟨0, 0, 1, 0⟩), (.smpd, ⟨0, 128, 0, 0⟩), (.barrelPrel, ⟨0, 0, 0, 2⟩), (.getc, ⟨0, 0, 0, 0xE⟩),
      (.setc, ⟨0, 0, 0, 0⟩), (.exit, ⟨1, 0, 0, 0⟩), (.tqget, ⟨0, 0, 0, 1⟩)] : List (Instr × BarrelWord)), wellFormedWord x.1 x.2 = false := by decide

/-- The same terms with their fields put right are well formed. -/
theorem test_well_formed : wellFormed 6 (.add g0 { A0 with d := 15, func := 0x200 }) = true ∧ wellFormed 3 (.vred g0 { A0 with type := 3, func := 0xA0 }) = true ∧
    wellFormed 1 (.mzero g0 { E0 with tag := 14 }) = true ∧ wellFormedWord .sxqry ⟨8, 1, 2, 37⟩ = true := by decide

/-! ## Numbers: 02_numbers, Worked conversions and R61; 13_proof R394 -/

theorem test_philox : philox 0 0 = [0x6627E8D5, 0xE169C58D, 0xBC57AC4C, 0x9B00DBD8] := by decide
theorem test_crc64 : crc64 [0x31, 0x32, 0x33, 0x34, 0x35, 0x36, 0x37, 0x38, 0x39] = 0x995DC9BBDF1939FA := by decide +kernel
theorem test_e4m3_nearest : convert 10 12 0x43960000 0 false 0 = (0x79, fNx) := by decide
theorem test_e4m3_up : convert 10 12 0x43960000 2 false 0 = (0x7A, fNx) := by decide
theorem test_e4m3_overflow : convert 10 12 0x43FA0000 0 false 0 = (0x7F, fOf ||| fNx) ∧ convert 10 12 0x43FA0000 0 true 0 = (0x7E, fSa ||| fNx) ∧
    convert 10 12 0x43FA0000 1 false 0 = (0x7E, fOf ||| fNx) := by decide
theorem test_f16_underflow : convert 10 8 0x33400000 0 false 0 = (1, fUf ||| fNx) := by decide
theorem test_bf16 : convert 10 9 0x3F808001 0 false 0 = (0x3F81, fNx) ∧ convert 10 9 0x3F808001 1 false 0 = (0x3F80, fNx) := by decide
theorem test_to_i8 : convert 10 0 0xC1B80000 0 false 0 = (0xE9, 0) ∧ convert 10 0 0x43400000 0 false 0 = (0x7F, fNv) ∧
    convert 10 0 0x43400000 0 true 0 = (0x7F, fSa) := by decide
theorem test_stochastic : (philox 0 0).map (fun w => (convert 10 9 0x3F80C000 5 false w).1) = [0x3F81, 0x3F80, 0x3F81, 0x3F81] := by decide

/-! ## Meanings of the timed slots, on hand-worked values -/

/-- Cell 0's core as `f` makes it, its slot 6 executing the bundle at 0x1000. -/
def timed (f : Core → Core) : State := { State.reset with curT := { State.reset.curT with slot := 6, pc := 0x1000 } }.updCore 0 f
/-- The same with s registers set. -/
def withS (l : List (Nat × Word)) : State := timed fun c => { c with regs := l.foldl (fun r x => r.setS x.1 x.2) c.regs }
def withV (l : List (Nat × VReg)) : State := timed fun c => { c with regs := l.foldl (fun r x => r.setV x.1 x.2 (BitVec.allOnes 2048)) c.regs }

/-- The state that an instruction answers. -/
def after (i : Instr) (s : State) : State := match exec i s with | .next t => t | _ => State.reset
/-- What it put in flight: landings, with their offset. -/
def flown (i : Instr) (s : State) : List (Nat × List Landing) := (after i s).cur.flights.map fun f => (f.due, f.landings)
def lands (i : Instr) (s : State) : List Landing := (after i s).cur.flights.flatMap (·.landings)
/-- Lane `j` of width `w` of the vector register that landed. -/
def landed (i : Instr) (s : State) (w j : Nat) : Option Nat := match lands i s with | .v _ x _ :: _ => some (lane x w j) | _ => none
/-- Cause and TVAL of the trap that a core without a handler stops with. -/
def trapped (i : Instr) (s : State) : Nat × Word := let q := (after i s).cur.seq; (q.fault.cause, q.fault.val)
def ones : Word := BitVec.allOnes 64
def A12 : FormA := { A0 with d := 3, a := 1, b := 2 }

theorem test_add_wraps : flown (.add g0 A12) (withS [(1, ones), (2, 1)]) = [(1, [.s 3 0])] := by decide +kernel
theorem test_sub : lands (.sub g0 A12) (withS [(2, 1)]) = [.s 3 ones] := by decide +kernel
theorem test_addi : lands (.addi g0 ⟨1, 1, -3⟩) (withS [(1, 2)]) = [.s 1 ones] := by decide +kernel
theorem test_logic : lands (.and g0 A12) (withS [(1, 6), (2, 3)]) = [.s 3 2] ∧ lands (.or g0 A12) (withS [(1, 6), (2, 3)]) = [.s 3 7] ∧
    lands (.xor g0 A12) (withS [(1, 6), (2, 3)]) = [.s 3 5] := by decide +kernel
theorem test_shifts : lands (.shl g0 A12) (withS [(1, 3), (2, 65)]) = [.s 3 6] ∧ lands (.shr g0 A12) (withS [(1, ones), (2, 63)]) = [.s 3 1] ∧
    lands (.sar g0 A12) (withS [(1, -8), (2, 2)]) = [.s 3 (-2)] := by decide +kernel
theorem test_products : flown (.mul g0 A12) (withS [(1, -3), (2, 7)]) = [(3, [.s 3 (-21)])] ∧ lands (.mulh g0 A12) (withS [(1, ones), (2, 1)]) = [.s 3 ones] ∧
    lands (.mulhn g0 A12) (withS [(1, ones), (2, ones)]) = [.s 3 (-2)] := by decide +kernel
theorem test_div : flown (.div g0 A12) (withS [(1, -7), (2, 2)]) = [(18, [.s 3 (-3)])] ∧ lands (.rem g0 A12) (withS [(1, -7), (2, 2)]) = [.s 3 ones] ∧
    lands (.divn g0 A12) (withS [(1, ones), (2, 2)]) = [.s 3 0x7FFFFFFFFFFFFFFF] ∧ lands (.remn g0 A12) (withS [(1, ones), (2, 16)]) = [.s 3 15] := by decide +kernel
theorem test_div_least : lands (.div g0 A12) (withS [(1, 0x8000000000000000), (2, ones)]) = [.s 3 0x8000000000000000] := by decide +kernel
theorem test_div_by_zero : trapped (.rem g0 A12) (withS [(1, 9)]) = (16, 9) ∧ lands (.rem g0 A12) (withS [(1, 9)]) = [] := by decide +kernel
theorem test_extremes : lands (.min g0 A12) (withS [(1, ones), (2, 1)]) = [.s 3 ones] ∧ lands (.max g0 A12) (withS [(1, ones), (2, 1)]) = [.s 3 1] ∧
    lands (.minn g0 A12) (withS [(1, ones), (2, 1)]) = [.s 3 1] ∧ lands (.maxn g0 A12) (withS [(1, ones), (2, 1)]) = [.s 3 ones] := by decide +kernel
theorem test_counts : lands (.clz g0 A12) (withS []) = [.s 3 64] ∧ lands (.clz g0 A12) (withS [(1, 0x100)]) = [.s 3 55] ∧
    lands (.popc g0 A12) (withS [(1, 0xF0F)]) = [.s 3 8] := by decide +kernel
theorem test_constants : lands (.li g0 ⟨3, 1, -1⟩) (withS []) = [.a 3 ones] ∧ lands (.lih g0 ⟨3, 0, 1⟩) (withS [(3, ones)]) = [.s 3 0x1FFFFFFFF] := by decide +kernel
theorem test_sel : lands (.sel g0 { A12 with c := 4 }) (withS [(1, 10), (2, 20)]) = [.s 3 20] ∧
    lands (.sel g0 A12) (withS [(1, 10), (2, 20)]) = [.s 3 10] := by decide +kernel
theorem test_cmp : lands (.cmp g0 { A12 with func := 2 }) (withS [(1, ones), (2, 1)]) = [.p 3 true] ∧
    lands (.cmp g0 { A12 with func := 4 }) (withS [(1, ones), (2, 1)]) = [.p 3 false] := by decide +kernel
theorem test_plog_xor : lands (.plog g0 { A12 with a := 0, func := 6 }) (withS []) = [.p 3 true] ∧
    lands (.plog g0 { A12 with a := 0, b := 0, func := 6 }) (withS []) = [.p 3 false] := by decide +kernel
theorem test_guard_false : after (.add ⟨0, 5⟩ A12) (withS [(1, 1)]) = withS [(1, 1)] := by decide +kernel
theorem test_branches : (after (.br g0 ⟨2, 1, 3⟩) (withS [(1, -1)])).cur.seq.taken = some 0x1080 ∧
    (after (.br g0 ⟨2, 1, 3⟩) (withS [])).cur.seq.taken = none ∧ (after (.brp g0 ⟨-1, 0, 0⟩) (withS [])).cur.seq.taken = some 0xFC0 := by decide +kernel
theorem test_call_and_ret : (after (.call g0 ⟨4, 0, 0⟩) (withS [])).cur.seq.rstack = [0x1040] ∧ trapped (.ret g0 A0) (withS []) = (6, 0) := by decide +kernel
theorem test_loop : ((after (.loop g0 { A12 with d := 0, b := 0, func := 3 }) (withS [(1, 5)])).cur.seq.loops.map fun l => (l.left, l.start, l.last)) =
    [(5, 0x1040, 0x1100)] ∧ (after (.loop g0 { A12 with d := 0, b := 0, func := 3 }) (withS [])).cur.seq.taken = some 0x1140 := by decide +kernel
theorem test_xin_xout : landed (.xin 1 7) (withS [(1, 77)]) 8 31 = some 77 ∧ flown (.xout 7 31 2) (withV [(7, 5 <<< 1984)]) = [(4, [.s 2 5])] := by decide +kernel
theorem test_misaligned_load : trapped (.lds g0 { C0 with data := 7, offset := 4, type := 3 }) (withS []) = (50, 4) := by decide +kernel
theorem test_load_offsets : ((after (.lds g0 { C0 with data := 7, offset := 8, type := 3 }) (withS [])).accesses.map fun a => (a.due, a.lines)) =
    [(2, [{ address := 8, len := 8, lane := 0 }])] := by decide +kernel
theorem test_late_waitt : trapped (.waitt g0 { E0 with f2 := 1, func := 1 }) { withS [(1, 9)] with tick := 12 } = (181, 3) := by decide +kernel

def V12 : FormA := { A0 with d := 3, a := 1, b := 2, type := 7 }
theorem test_vadd_wraps : landed (.vadd g0 V12) (withV [(1, 0xFFFFFFFFFFFFFFFF + 7 <<< 64), (2, 1)]) 8 0 = some 0 ∧
    landed (.vadd g0 V12) (withV [(1, 0xFFFFFFFFFFFFFFFF + 7 <<< 64), (2, 1)]) 8 1 = some 7 := by decide +kernel
theorem test_vadds_clamps : landed (.vadds g0 { V12 with type := 3 }) (withV [(1, 0x7FFFFFFFFFFFFFFF), (2, 1)]) 8 0 = some 0x7FFFFFFFFFFFFFFF ∧
    ((after (.vadds g0 { V12 with type := 3 }) (withV [(1, 0x7FFFFFFFFFFFFFFF), (2, 1)])).cur.flights.map (·.flags)) = [[(0, fSa)]] := by decide +kernel
theorem test_vshr_by_width : landed (.vshr g0 V12) (withV [(1, 0xFF), (2, 64)]) 8 0 = some 0 ∧
    landed (.vsar g0 { V12 with type := 3 }) (withV [(1, 0x8000000000000000), (2, 64)]) 8 0 = some 0xFFFFFFFFFFFFFFFF := by decide +kernel
theorem test_vfadd : landed (.vfadd g0 { V12 with type := 11 }) (withV [(1, 0x3FF0000000000000), (2, 0x3FF0000000000000)]) 8 0 = some 0x4000000000000000 := by decide +kernel
theorem test_vfdiv : ((after (.vfdiv g0 { V12 with type := 11 }) (withV [(1, 0x3FF0000000000000), (2, 0x4000000000000000)])).cur.flights.map (·.due)) = [20] ∧
    landed (.vfdiv g0 { V12 with type := 11 }) (withV [(1, 0x3FF0000000000000), (2, 0x4000000000000000)]) 8 0 = some 0x3FE0000000000000 := by decide +kernel
theorem test_vrot : landed (.vrot g0 { V12 with b := 0, func := 1 }) (withV [(1, 9)]) 8 1 = some 9 ∧
    landed (.vslide g0 { V12 with b := 0, c := 2, func := 32 }) (withV [(1, 9), (2, 4)]) 8 0 = some 4 := by decide +kernel
theorem test_vred_sum : landed (.vred g0 { V12 with b := 0 }) (withV [(1, 3 + 4 <<< 1984)]) 8 0 = some 7 := by decide +kernel
theorem test_vscan : landed (.vscan g0 { V12 with b := 0, func := 0x200 }) (withV [(1, 3 + 4 <<< 64)]) 8 1 = some 3 ∧
    landed (.vscan g0 { V12 with b := 0 }) (withV [(1, 3 + 4 <<< 64)]) 8 31 = some 7 := by decide +kernel
theorem test_masks : landed (.kpop g0 { A0 with d := 3 }) (withS []) 8 0 = some 256 ∧ landed (.kfirst g0 { A0 with d := 3, a := 1 }) (withS []) 8 0 = some 256 := by decide +kernel
/-- R179: lane 0 of `vrng.f32` from key and counter 0. -/
theorem test_vrng : landed (.vrng g0 { A0 with d := 3, type := 10 }) (withS []) 4 0 = some 0x3ECC4FD0 := by decide +kernel
theorem test_mec : lands (.mec g0 { E0 with f1 := 4, f2 := 1, func := 4 }) (withS [(1, ones)]) =
    [.s 4 ((withS []).cur.mtx.rate.setWidth 64), .energy (withS []).cur.mtx.cap] := by decide +kernel
theorem test_ctags : lands (.ctags g0 { E0 with f1 := 4, f2 := 1, func := 1 }) (withS [(1, ones)]) = [.s 4 0] := by decide +kernel
theorem test_rdtk : flown (.rdtk g0 { E0 with f1 := 4 }) { withS [] with tick := 99 } = [(1, [.s 4 99])] := by decide +kernel

/-! ## Meanings of thread instructions -/

/-- Thread 0 of cell 0, with 16 registers from 0 on, executing the word's fields at address 0x1000. -/
def thread0 (f : Thread → Thread) (w : BarrelWord) (l : List (Nat × Word)) : State :=
  { State.reset with curB := { cell := 0, thread := 0, word := w } }.updBarrel 0 fun b =>
    l.foldl (fun (b : BarrelCore) (x : Nat × Word) => b.write 0 x.1 x.2) { b with threads := b.threads.set 0 (f (Thread.fresh 1 0 16 0 0x1000 0 0 0 0 0)) }
def barrel (w : BarrelWord) (l : List (Nat × Word)) : State := thread0 id w l
/-- Translation enabled for context 0. -/
def translated (s : State) : State := s.updCtx 0 fun x => { x with xen := true }
/-- What an instruction puts in flight for its thread, with the offset. -/
def writes (i : Instr) (w : BarrelWord) (l : List (Nat × Word)) : List (Nat × List BarrelWrite) :=
  ((after i (barrel w l)).barrel 0).flights.map fun f => (f.due, f.writes)
def thread (i : Instr) (s : State) : Thread := (after i s).th
def faulted (i : Instr) (s : State) : Option (Nat × Word) := (thread i s).fault.map fun f => (f.cause, f.val)

theorem test_barrel_add_word : writes .barrelAdd ⟨3, 1, 2, 1⟩ [(1, 0x7FFFFFFF), (2, 1)] = [(7, [.reg 3 0xFFFFFFFF80000000])] := by decide +kernel
theorem test_barrel_shr_word : writes .barrelShr ⟨3, 1, 2, 1⟩ [(1, ones), (2, 36)] = [(7, [.reg 3 0x0FFFFFFF])] := by decide +kernel
theorem test_barrel_mulhn : writes .barrelMulhn ⟨3, 1, 2, 0⟩ [(1, ones), (2, ones)] = [(7, [.reg 3 (-2)])] := by decide +kernel
theorem test_barrel_div : writes .barrelDiv ⟨3, 1, 2, 0⟩ [(1, -7), (2, 2)] = [(23, [.reg 3 (-3)])] ∧
    writes .barrelDiv ⟨3, 1, 2, 1⟩ [(1, 0x80000000), (2, ones)] = [(15, [.reg 3 0xFFFFFFFF80000000])] := by decide +kernel
theorem test_barrel_div_by_zero : faulted .barrelRem (barrel ⟨3, 1, 2, 1⟩ [(1, 5), (2, 0x100000000)]) = some (20, 5) := by decide +kernel
/-- 10_barrel R305: `addi x5, x0, −0x8000_0000` and `lih x5, 0`. -/
theorem test_barrel_constant : writes .barrelAddi ⟨5, 0, 0, 0x80000000⟩ [] = [(7, [.reg 5 0xFFFFFFFF80000000])] ∧
    writes .barrelLih ⟨5, 0, 0, 0⟩ [(5, 0xFFFFFFFF80000000)] = [(7, [.reg 5 0x80000000])] := by decide +kernel
theorem test_barrel_clz_word : writes .barrelClz ⟨3, 1, 0, 1⟩ [(1, 0xFFFFFFFF00000001)] = [(7, [.reg 3 31])] := by decide +kernel
theorem test_barrel_sext : writes .sext ⟨3, 1, 0, 0⟩ [(1, 0x180)] = [(7, [.reg 3 (-128)])] ∧ writes .zext ⟨3, 1, 0, 0⟩ [(1, 0x180)] = [(7, [.reg 3 0x80])] := by decide +kernel
theorem test_barrel_slt : writes .slt ⟨3, 1, 2, 0⟩ [(1, ones), (2, 1)] = [(7, [.reg 3 1])] ∧ writes .sltn ⟨3, 1, 2, 0⟩ [(1, ones), (2, 1)] = [(7, [.reg 3 0])] := by decide +kernel
theorem test_barrel_fadd : writes .fadd ⟨3, 1, 2, 0⟩ [(1, 0x3FF0000000000000), (2, 0x4000000000000000)] = [(7, [.reg 3 0x4008000000000000])] := by decide +kernel
theorem test_barrel_fcvt : writes .fcvt ⟨3, 1, 0, 0x00030B01⟩ [(1, 0xC004000000000000)] = [(7, [.reg 3 (-2), .flags fNx])] := by decide +kernel
/-- R328: RNGPX from counter and key 0. -/
theorem test_rngpx : writes .rngpx ⟨4, 1, 3, 0⟩ [] = [(11, [.reg 4 0xE169C58D6627E8D5, .reg 5 0x9B00DBD8BC57AC4C])] := by decide +kernel
theorem test_barrel_branch : (thread .blt (barrel ⟨0, 1, 2, -2⟩ [(1, ones), (2, 1)])).pc = 0xFF0 ∧ (thread .bltn (barrel ⟨0, 1, 2, -2⟩ [(1, ones), (2, 1)])).pc = 0x1008 := by decide +kernel
theorem test_barrel_call : (thread .barrelCall (barrel ⟨0, 0, 0, 4⟩ [])).returns = [0x1008] ∧ (thread .barrelCall (barrel ⟨0, 0, 0, 4⟩ [])).pc = 0x1020 := by decide +kernel
theorem test_barrel_ret_empty : faulted .barrelRet (barrel ⟨0, 0, 0, 0⟩ []) = some (6, 0) := by decide +kernel
theorem test_barrel_jmpr_misaligned : faulted .jmpr (barrel ⟨3, 1, 0, 0⟩ [(1, 12)]) = some (50, 12) := by decide +kernel
theorem test_barrel_load_misaligned : faulted .ld (barrel ⟨3, 1, 0x0B, 0⟩ [(1, 4)]) = some (50, 4) := by decide +kernel
theorem test_barrel_store_request : ((after .st (barrel ⟨3, 1, 0x0A, 8⟩ [(1, 16), (3, 0x1234)])).requests.map fun r => (r.2.kind, r.2.va, r.2.len)) =
    [(.store 4 0x1234, 24, 4)] := by decide +kernel
theorem test_barrel_trap : faulted .barrelTrap (barrel ⟨0, 0, 0, 7⟩ []) = some (9, 7) := by decide +kernel
theorem test_rte : (thread .rte (thread0 (fun t => { t with level := 1, levels := t.levels.setIfInBounds 0 { cause := 0, epc := 0x2000, val := 0, scr := 0 } })
    ⟨0, 0, 0, 0⟩ [])).pc = 0x2000 ∧ faulted .rte (barrel ⟨0, 0, 0, 0⟩ []) = some (10, 0) := by decide +kernel
theorem test_park : (thread .park (barrel ⟨0, 0, 0, 0⟩ [])).state = .parked ∧ (thread .park (thread0 (fun t => { t with wake := true }) ⟨0, 0, 0, 0⟩ [])).wake = false := by decide +kernel
theorem test_join : writes .join ⟨3, 0, 0, 0⟩ [] = [(7, [.reg 3 0])] := by decide +kernel
theorem test_fork : ((after .fork (barrel ⟨3, 1, 0, 2⟩ [(3, 8), (1, 9)])).barrel 0).deque.map (fun e => (e.entry, e.args)) = [(0x1010, (8, 9))] := by decide +kernel
theorem test_exit : (after .exit (barrel ⟨0, 0, 0, 0⟩ [])).thread? 0 0 = none := by decide +kernel
theorem test_recv_waits : (thread .recv (barrel ⟨3, 1, 0, 2⟩ [])).wait = .recv 3 1 2 0 := by decide +kernel

/-! ## Steps, reset and the placing of an instruction -/

/-- The host's question: the first step after reset runs the word that was placed. -/
theorem test_step_runs_word : (match step (State.reset.withFetchWord 64 0x02090400FFFFFFFD) with
    | .next t => (t.barrel 0).flights.map (·.writes) == [[.reg 9 (-3)]] | _ => false) = true := by decide +kernel
theorem test_tick : (after .tickIncrement { State.reset with mgmt := { State.reset.mgmt with released := true }, tick := ones }).tick = 0 := by decide +kernel
theorem test_memory_canonical : (((Memory.putNum [] 8 4 0x1234).putNum 8 4 0) : Memory) = [] ∧ ((Memory.putNum [] 8 4 0x1234) : Memory) = [(8, 0x34), (9, 0x12)] := by decide +kernel

/-! ## States that meet the statements' premises, timed slots -/

def base : State := withS []
def updC (f : Core → Core) (s : State) : State := s.updCur f
def inHandler : State := timed fun c => { c with ctl := { c.ctl with inh := true } }

theorem witness_issues : base.issues g0 = true ∧ base.issues ⟨0, 5⟩ = false ∧ base.iterates g0 = true ∧
    { base with curT := { base.curT with first := false } }.issues ⟨1, 0⟩ = false := by decide +kernel
theorem witness_ScalarDivisionsComplete : (withS [(2, 1)]).issues g0 = true ∧ (withS [(2, 1)]).cur.s' 2 ≠ 0 ∧ base.issues g0 = true ∧ base.cur.s' 2 = 0 := by decide +kernel
theorem witness_ScalarSelectionsComplete : (withS [(1, 0x4000000)]).issues g0 = true ∧ (((withS [(1, 0x4000000)]).cur.s' 1).extractLsb' 24 3).toNat ≤ 4 ∧
    (55 : BitVec 6).toNat < 56 ∧ ¬(56 : BitVec 6).toNat < 56 := by decide +kernel
def level : LoopLevel := { left := 1, index := 0, start := 0, last := 0x10000, strides := [] }
def stacked (n m k : Nat) : State := timed fun c =>
  { c with seq := { c.seq with rstack := List.replicate n 0x2000, loops := List.replicate m level, pending := List.replicate k (1, 1) } }
theorem witness_ControlTransfersComplete :
    (stacked 7 0 0).issues g0 = true ∧ (stacked 7 0 0).cur.ctl.inh = false ∧ (stacked 7 0 0).cur.seq.rstack.length < 8 ∧
    (stacked 1 0 0).cur.seq.rstack = [0x2000] ∧ (stacked 0 5 0).cur.seq.loops.length < 6 ∧
    (∀ l ∈ (stacked 0 5 0).cur.seq.loops, (loopEnd (stacked 0 5 0).curT.pc A0).toNat ≤ l.last.toNat) ∧
    (stacked 0 1 0).cur.seq.loops = [level] ∧ (stacked 0 1 0).cur.ctl.plevel < 7 ∧
    (stacked 0 0 3).cur.seq.pending.length < 4 ∧ (stacked 0 0 3).iterates g0 = true := by decide +kernel
/-- Levels that end at the bundle of `level`, with one iteration left and with two; one that ends elsewhere. -/
def level2 : LoopLevel := { level with left := 2, strides := [(3, 8)] }
def levelFar : LoopLevel := { level2 with last := 0x20000 }
def nested (ls : List LoopLevel) : State := timed fun c => { c with seq := { c.seq with loops := ls } }
theorem witness_lbrk_levels : (nested []).issues g0 = true ∧ (nested []).cur.ctl.inh = false ∧
    (∀ ps ∈ [[], [level], [{ level with left := 0 }, level]], (∀ x ∈ ps, x.last = level.last ∧ x.left.toNat ≤ 1) ∧
      ∀ rest ∈ [[], [levelFar], [level2, level]], (nested (level :: (ps ++ rest))).cur.seq.loops = level :: (ps ++ rest)) ∧
    [levelFar].head?.all (fun x => x.last ≠ level.last) = true ∧ level2.last = level.last ∧ 1 < level2.left.toNat := by decide +kernel
theorem witness_TrapAndReturnComplete : inHandler.issues g0 = true ∧ inHandler.cur.ctl.inh = true ∧ base.cur.ctl.inh = false := by decide +kernel
def inDomain : State := { withS [(3, 3)] with tick := 9 }.updPkg fun k => { k with indom := true, domPos := 1, domSize := 2 }
theorem witness_TickReadsComplete : { withS [(2, 9)] with tick := 9 }.issues g0 = true ∧ { withS [(2, 9)] with tick := 9 }.tick.toNat ≤ ((withS [(2, 9)]).cur.s' 2).toNat ∧
    base.openedInGroup 15 = false ∧ inDomain.issues g0 = true ∧ inDomain.pkg.indom = true ∧ (inDomain.cur.s' 3).getLsbD inDomain.pkg.domPos = true ∧
    (inDomain.cur.s' 3).toNat < 2 ^ inDomain.pkg.domSize ∧ (∀ c ∈ [1, 2, 3], base.cur.clock.refusal c = none) ∧ (3 : BitVec 5).toNat ≤ 3 := by decide +kernel
def opening : State := { withS [(1, 0x2FFFC0), (2, 64), (3, 11)] with tick := 9 }
theorem witness_WindowOpensComplete : opening.issues g0 = true ∧ (∀ x ∈ opening.cur.clock.windows.toList, x.isOpen = true →
      x.meet (opening.cur.s' 1).toNat (opening.cur.s' 2).toNat = none) ∧ (opening.cur.window 15).isOpen = false ∧ (opening.cur.s' 1).toNat % 64 = 0 ∧
    (opening.cur.s' 2).toNat % 64 = 0 ∧ (opening.cur.s' 1).toNat + (opening.cur.s' 2).toNat ≤ 0x300000 ∧ opening.tick.toNat + opening.stepBy < (opening.cur.s' 3).toNat ∧
    (∀ r ∈ opening.cur.cpy.liveRanges opening.clk, Window.meet { Window.reset with base := opening.cur.s' 1, size := opening.cur.s' 2 } r.1 r.2 = none) := by decide +kernel
/-- A core of a context whose proof domain and mirror are enabled. -/
def proving : State := (withS [(1, 5), (2, 0x2FFFC0), (3, 0x3F0000), (4, 0xFFFFFFFF)]).updCtx 0 fun x => { x with pen := true, mirror := true, live := true }
theorem witness_AgentRequestsComplete : proving.issues g0 = true ∧ proving.syncFault (.signal g0 { E0 with f2 := 3 }) = none ∧ (proving.ctx proving.cur.ctx).pen = true ∧
    (proving.ctx proving.cur.ctx).mirror = true ∧ (proving.cur.clock.prIssued - proving.cur.clock.prDone).toNat < 65535 ∧ (proving.cur.s' 4).toNat < 2 ^ 32 ∧
    (proving.cur.s' 2).toNat % 64 = 0 ∧ (proving.cur.s' 2).toNat + 64 ≤ 0x300000 ∧ proving.regionHit proving.curT.cell (proving.cur.s' 2).toNat 64 = none ∧
    proving.cur.cpy.slots < 256 := by decide +kernel
theorem witness_LoadsAndStoresComplete : base.issues g0 = true ∧ (∀ i ∈ [Instr.lds, .ldv, .ldvs, .ldvx, .ldvb, .ldk, .sts, .stv, .stvm, .stvx, .stk],
      base.memFault (i g0 C0) = none) ∧ ∀ i ∈ [Instr.strs, .strv], base.memFault (i g0 { C0 with space := 2 }) = none := by decide +kernel
theorem witness_MisalignedAccessesTrap : base.cur.clock.refusal 0 = none ∧ legalSpace (.ldk g0 { C0 with offset := 1 }) 0 = true ∧
    (Claims.addresses base.cur (.ldk g0 { C0 with offset := 1 })).head? = some 1 ∧ 1 % 32 ≠ 0 := by decide +kernel
theorem witness_VectorSignsAndTestsComplete : base.iterates g0 = true ∧ 0 < Claims.width { A0 with type := 10 } := by decide +kernel
/-- A sum, an argmax and an exclusive-or over groups of 8 lanes of 8 bytes. -/
theorem witness_VectorFoldsComplete : base.iterates g0 = true ∧ (∀ op ∈ [0, 4, 8], (BitVec.ofNat 10 (3 * 32 + op)).toNat % 16 = op ∧
      (BitVec.ofNat 10 (3 * 32 + op)).toNat / 32 % 16 = 3) ∧ 2 ^ 3 = 8 ∧ 8 ≤ 256 / Claims.width { A0 with type := 7 } ∧
    isIntType (7 : BitVec 5).toNat = true := by decide +kernel
/-- A narrowing of f32 into the last part of bytes; widening has no further premise. -/
theorem witness_VectorConversionsComplete : base.iterates g0 = true ∧ (3 + 1) * (256 / Claims.width { A0 with type := 10, func := 0x6C }) ≤ 256 / typeBytes 12 := by decide +kernel
def scaled : State := withV [(2, 255)]
/-- The last part of bytes in v1, its field 0 reserved in one of the two states. -/
def coded (c : Nat) : State := withV [(1, BitVec.ofNat 2048 (c * 2 ^ (3 * 64 * 8)))]
theorem witness_VectorBlocksComplete : lane (scaled.cur.v' 2) 1 0 = 255 ∧ lane (base.cur.v' 2) 1 0 ≠ 255 ∧ 0 < blockBits 22 ∧ (3 + 1) * 64 * blockBits 22 ≤ 2048 ∧
    blockBits 22 = 8 ∧ ((List.range 64).all fun j => ((coded 0).cur.v' 1).toNat / 2 ^ (3 * 64 * 8 + j * 8) % 2 ^ 8 != 2 ^ 7) = true ∧
    ((coded 0x80).cur.v' 1).toNat / 2 ^ (3 * 64 * 8) % 2 ^ 8 = 2 ^ 7 ∧ Claims.enabled (coded 0x80) g0 4 0 = true := by decide +kernel
theorem witness_VectorFunctionsComplete : base.iterates g0 = true ∧ ({ A0 with type := 6 } : FormA).type = 6 := by decide +kernel
/-- Format record 0 for f16, record 1 for MX elements, record 2 for f64, an f16 plane in use, tile 0 a48 and tile 1 f64. -/
def prepare (m : Matrix) : Matrix :=
  let records : Vector Word 4 := #v[0x808, 0x1616, 0xB0B, 0]
  { m with fmt := records, active := { m.active with valid := true, stype := 8 }, z := m.z.setIfInBounds 1 { f64 := true, fill := 0, cells := [] } }
def matrixReady : State := (withS [(1, 0), (2, 0x8000), (3, 256), (4, 255)]).updCur fun c => { c with mtx := prepare c.mtx }
def matrixReady64 : State := matrixReady.updCur fun c => { c with mtx := { c.mtx with active := { c.mtx.active with stype := 11 } } }
theorem witness_MatrixProductsComplete : matrixReady.issues g0 = true ∧ matrixReady.matrixFault (.mlds g0 { E0 with f1 := 1, f2 := 2 }) = none ∧
    matrixReady.matrixFault (.mldst g0 { E0 with f1 := 1, f2 := 2, tag := 1 }) = none ∧ matrixReady.matrixFault (.mmul g0 { E0 with f2 := 1, f3 := 3 }) = none ∧
    matrixReady64.matrixFault (.mmul64 g0 { E0 with f1 := 1, f2 := 1, f3 := 3, tag := 2 }) = none ∧ matrixReady64.issues g0 = true := by decide +kernel
theorem witness_MatrixCommandsComplete : (∀ i ∈ [Instr.mswap g0 E0, .mzero g0 { E0 with tag := 14 }, .mscl g0 E0, .mchk g0 E0, .mgang g0 { E0 with func := 4 },
      .mrdz g0 { E0 with tag := 14, f3 := 4 }, .mwrz g0 { E0 with tag := 14, f3 := 4 }], matrixReady.matrixFault i = none) ∧ (3 : BitVec 6).toNat < 4 ∧
    (0x10 : BitVec 16).toNat / 4 % 8 ≠ 5 := by decide +kernel
def copying : State := (withS [(1, 0x1000), (2, 0x2FFFC0), (3, 1), (4, 64), (5, 0x1000), (6, 0x4000)]).updCur fun c =>
  { c with cpy := { c.cpy with cmask := 1 }, gangSize := 1 }
theorem witness_TimedCopiesComplete : copying.issues g0 = true ∧ copying.copyFault (.cpt g0 { E0 with f1 := 1, f2 := 2, f3 := 3, func := 1 }) = none ∧
    copying.copyFault (.cptx g0 { E0 with f1 := 1, f2 := 5, f3 := 3 }) = none := by decide +kernel
theorem witness_TaggedCopiesComplete : ∀ i ∈ [Instr.cph g0 { E0 with f1 := 2, f2 := 1, f3 := 4 }, .cpw g0 { E0 with f1 := 1, f2 := 2, f3 := 4 },
      .cpm g0 { E0 with f1 := 2, f2 := 1, f3 := 4 }, .cpd g0 { E0 with f1 := 1, f2 := 5, f3 := 4 }, .cpf g0 { E0 with f1 := 1, f2 := 4 },
      .cdisc g0 { E0 with f1 := 1, f2 := 4 }, .cpg g0 { E0 with f1 := 1, f2 := 6, f3 := 3 }, .cps g0 { E0 with f1 := 6, f2 := 1, f3 := 4 }],
    copying.copyFault i = none := by decide +kernel
theorem witness_TagWaitsComplete : ∀ i ∈ [Instr.cwany g0 E0, .cwall g0 E0, .cfirst g0 E0], (withS [(0, ones)]).tagFault i ones = none := by decide +kernel

/-! ## States that meet the statements' premises, threads -/

theorem witness_BarrelDivisionsComplete : (if fbit (barrel ⟨3, 1, 2, 1⟩ [(2, 0x100000000)]).curB.word.imm 0 then
      (barrel ⟨3, 1, 2, 1⟩ [(2, 0x100000000)]).xb.setWidth 32 = (0 : BitVec 32) else (barrel ⟨3, 1, 2, 1⟩ [(2, 0x100000000)]).xb = 0) ∧
    ¬(if fbit (barrel ⟨3, 1, 2, 0⟩ [(2, 0x100000000)]).curB.word.imm 0 then
      (barrel ⟨3, 1, 2, 0⟩ [(2, 0x100000000)]).xb.setWidth 32 = (0 : BitVec 32) else (barrel ⟨3, 1, 2, 0⟩ [(2, 0x100000000)]).xb = 0) := by decide +kernel
/-- 1 / 3 is inexact: with no flag enabled it completes, with nx enabled it traps. -/
def third (en : Flags) : State := thread0 (fun t => { t with en }) ⟨3, 1, 2, 0⟩ [(1, 0x3FF0000000000000), (2, 0x4008000000000000)]
theorem witness_BarrelFloatsComplete :
    (third 0).th.en &&& (Claims.fround (third 0) (divVal (Claims.fval (third 0) (third 0).xa) (Claims.fval (third 0) (third 0).xb))).2 = 0 ∧
    (third fNx).th.en &&& (Claims.fround (third fNx) (divVal (Claims.fval (third fNx) (third fNx).xa) (Claims.fval (third fNx) (third fNx).xb))).2 ≠ 0 := by decide +kernel
theorem witness_BarrelUnitsComplete : Claims.frnd (barrel ⟨3, 1, 0, 0x00030B01⟩ []) ≠ 5 ∧ (barrel ⟨3, 1, 0, 0x00030B01⟩ []).th.en = 0 ∧
    (∀ rnd ∈ [1, 5], (convert 11 3 0xC004000000000000 rnd false 0).2 = fNx) ∧ fNx &&& fNx ≠ 0 ∧
    4 ≤ fld (0x000A0B01 : BitVec 32) 16 5 ∧ fld (0x00030B01 : BitVec 32) 16 5 < 4 := by decide +kernel
def returning (n : Nat) : State := thread0 (fun t => { t with returns := List.replicate n 0x2000 }) ⟨0, 1, 0, 0⟩ [(1, 0x3000)]
theorem witness_BarrelJumpsComplete : (returning 15).xa.toNat % 8 = 0 ∧ (barrel ⟨0, 1, 0, 0⟩ [(1, 7)]).xa.toNat % 8 ≠ 0 ∧ (returning 15).th.returns.length < 16 ∧
    (returning 1).th.returns = [0x2000] ∧ (returning 0).th.returns = [] ∧ (returning 0).th.spcnt = 0 := by decide +kernel
/-- Local accesses at the scratchpad's end; accesses of an address whose translation is not known. -/
theorem witness_BarrelAccessesComplete : (Claims.thread (barrel ⟨3, 1, 0x0B, 0⟩ [(1, 0x7FFF8)])).isSome = true ∧
    Claims.address (barrel ⟨3, 1, 0x0B, 0⟩ [(1, 0x7FFF8)]) % 8 = 0 ∧ Claims.isLocal (barrel ⟨3, 1, 0x0B, 0⟩ [(1, 0x7FFF8)]) = true ∧
    Claims.address (barrel ⟨3, 1, 0x0B, 0⟩ [(1, 0x7FFF8)]) + 8 ≤ 0x80000 ∧ Claims.isLocal (barrel ⟨3, 1, 3, 0⟩ [(1, 64)]) = false ∧
    (translated (barrel ⟨3, 1, 3, 0⟩ [(1, 64)])).translateNow 0 0 64 false false = none ∧ Claims.address (barrel ⟨3, 1, 3, 0⟩ [(1, 1)]) % 2 ^ Claims.option (barrel ⟨3, 1, 3, 0⟩ [(1, 1)]) 0 2 ≠ 0 := by
  decide +kernel
theorem witness_reachable : Claims.reachable (translated (barrel ⟨3, 1, 3, 0⟩ [(1, 64)])) (.load 3 8 false) 64 := by
  have h : (translated (barrel ⟨3, 1, 3, 0⟩ [(1, 64)])).translateNow 0 0 64 false false = none := by decide +kernel
  have hc : plateOf (translated (barrel ⟨3, 1, 3, 0⟩ [(1, 64)])).curB.cell = 0 ∧ (translated (barrel ⟨3, 1, 3, 0⟩ [(1, 64)])).th.ctx = 0 := by
    decide +kernel
  simp only [Claims.reachable, hc.1, hc.2, RequestKind.writes, h]
  exact ⟨fun c => by simp, fun pa => by simp⟩
def waiting (f : Thread → Thread) (r : List (Nat × Word)) : State := thread0 f ⟨3, 1, 2, 2⟩ r
/-- A thread with an access under way. -/
def busy : State := after .st (barrel ⟨3, 1, 0x0A, 8⟩ [(1, 16)])
theorem witness_BarrelThreadsComplete : (∃ x, Claims.thread (waiting id []) = some x ∧ (waiting id []).outstanding x.uid = [] ∧ x.pair = none ∧
      ((waiting id []).barrel 0).deque.length < 256 ∧ x.live = 0 ∧ x.wake = false ∧ x.level = 0 ∧ ((waiting id []).barrel 0).queued x.uid = false ∧ x.parent = none ∧
      x.senders = []) ∧ (∃ x, Claims.thread busy = some x ∧ busy.outstanding x.uid ≠ []) ∧ (waiting id [(1, ones)]).xa = BitVec.allOnes 64 ∧
    (∃ x, Claims.thread (waiting (fun t => { t with live := 65534, wake := true }) []) = some x ∧ x.live ≠ 65535 ∧ x.live ≠ 0 ∧ x.wake = true) ∧
    (let s := (waiting id [(1, 7)]).updCtx 0 fun x => { x with live := true, quads := 3 }
     s.xa.toNat < 320 ∧ clusterOf s.xa.toNat = clusterOf s.curB.cell ∧ s.holds 0 s.xa.toNat = true ∧ s.retired s.xa.toNat = false) := by
  refine ⟨⟨_, rfl, ?_⟩, ⟨_, rfl, ?_⟩, by decide +kernel, ⟨_, rfl, ?_⟩, ?_⟩ <;> decide +kernel
theorem witness_no_holder (n : Nat) : ((waiting id []).group n).holder = none := by
  by_cases h : n < 16
  · exact (by decide +kernel : ∀ n < 16, ((waiting id []).group n).holder = none) n h
  · simp only [State.group]
    rw [Vector.getElem?_eq_none (by omega)]
    rfl

theorem witness_BarrelMessagesComplete : (∃ x, Claims.thread (waiting id [(1, 0x3F0000)]) = some x ∧ (waiting id [(1, 0x3F0000)]).xa.toNat / 2 ^ 9 % 2 ^ 7 = 0 ∧
      (waiting id [(1, 0x3F0000)]).xa.toNat / 2 ^ 22 = 0 ∧ (waiting id [(1, 0x3F0000)]).mayName x.ctx 0 = true ∧ x.inbox = [] ∧ x.senders = []) ∧
    (∃ x, Claims.thread (thread0 id ⟨3, 1, 2, 8⟩ [(1, 0x7FFC0)]) = some x ∧ (thread0 id ⟨3, 1, 2, 8⟩ [(1, 0x7FFC0)]).xa.toNat % 64 = 0 ∧
      (thread0 id ⟨3, 1, 2, 8⟩ [(1, 0x7FFC0)]).xa.toNat + 64 ≤ 0x80000 ∧ (thread0 id ⟨3, 1, 2, 8⟩ [(1, 0x7FFC0)]).mayName x.ctx 0 = true ∧
      (thread0 id ⟨3, 1, 2, 8⟩ [(1, 0x7FFC0)]).holds 0 0 = false ∧ ((thread0 id ⟨3, 1, 2, 8⟩ []).barrel 0).tasks = []) ∧ 0x7FFD0 % 8 = 0 ∧ 0x7FFD0 + 48 ≤ 0x80000 := by
  refine ⟨⟨_, rfl, ?_⟩, ⟨_, rfl, ?_⟩, ?_⟩ <;> decide +kernel
/-- A packet at a queue's head, the address of its destination not yet translated; a message for thread 1 of the package at position 2. -/
theorem witness_queue_and_remote : let s := translated ((barrel ⟨3, 1, 2, 0⟩ [(1, 64)]).updBarrel 0 fun b => { b with tasks := [{ ctx := 0, words := [] }] })
    (s.xa.toNat % 64 = 0 ∧ fbit s.curB.word.imm 3 = false ∧ (s.barrel s.curB.cell).tasks ≠ [] ∧ s.translateNow 0 0 64 true false = none) ∧
    (let a := 2 ^ 38 + 2 * 2 ^ 32 + 2 ^ 16; a / 2 ^ 9 % 2 ^ 7 = 0 ∧ a / 2 ^ 22 % 2 ^ 10 = 0 ∧ a / 2 ^ 38 = 1) := by decide +kernel
/-- TQPUT's target has a context when the thread's own is not 0, or when context 0 holds the cell. -/
theorem witness_taskContext : ((waiting id []).updCtx 0 fun x => { x with live := true, quads := 1 }).taskContext 0 0 = some 0 ∧ (waiting id []).taskContext 5 0 = some 5 := by
  decide +kernel
theorem witness_BarrelControlComplete : ((waiting id []).named 0 0 1).isSome = true ∧ (waiting id []).th.level = 0 ∧ ∃ x, Claims.thread (waiting (fun t => { t with level := 2 }) []) = some x ∧ x.level ≠ 0 :=
  ⟨by decide +kernel, by decide +kernel, _, rfl, by decide +kernel⟩
/-- Context 0 on every quad, and group 3 of its cell 0. -/
def serving (g : ServingGroup → ServingGroup) (xa : Word) : State :=
  ((waiting id [(1, xa)]).updCtx 0 fun x => { x with live := true, quads := BitVec.allOnes 80 }).updGroup 3 fun x => g { x with en := true, mask := 1 }
def mine : Nat × Nat × Nat := (0, 0, 1)
theorem witness_BarrelServingComplete : (serving id 0x7FFE0).xa.toNat % 8 = 0 ∧ (serving id 0x7FFE0).sxMayUse 0 39 = true ∧ (serving id 0x7FFE0).xa.toNat + 32 ≤ 0x80000 ∧
    (serving id 64).xa.toNat % 64 = 0 ∧ (serving id 0xFFFF2700).xa.toNat / 2 ^ 32 = 0 ∧ (serving id 0xFFFF2700).xa.toNat / 2 ^ 14 % 4 = 0 ∧
    (serving id 0xFFFF2700).xa.toNat / 2 ^ 8 % 64 ≤ 39 ∧ (serving id 0).xb.toNat % 64 = 0 ∧
    (serving id 3).xa = BitVec.ofNat 64 3 ∧ ((serving id 3).group 3).en = true ∧ ((serving id 3).group 3).ctx = 0 ∧ ((serving id 3).group 3).mask.getLsbD 0 = true ∧
    ((serving id 3).group 3).holder = none ∧ ((serving id 3).group 3).waiters = [] ∧ ((serving id 3).group 3).cell = 0 ∧
    ((serving (fun g => { g with holder := some mine }) 3).group 3).holder = some mine ∧ (serving (fun g => { g with holder := some mine }) 3).outstanding 1 = [] := by
  decide +kernel
/-- The holder of a token with an access under way. -/
theorem witness_pass_waits : ((busy.updGroup 3 fun x => { x with en := true, holder := some mine }).group 3).holder = some mine ∧
    (busy.updGroup 3 fun x => { x with en := true, holder := some mine }).outstanding 1 ≠ [] := by decide +kernel
theorem witness_BarrelProofComplete : ((waiting id [(1, 64), (2, 8)]).updCtx 0 fun x => { x with pen := true, mirror := true }).xb.toNat % 8 = 0 ∧
    (((waiting id []).updCtx 0 fun x => { x with pen := true, mirror := true }).ctx 0).pen = true ∧
    (((waiting id []).updCtx 0 fun x => { x with pen := true, mirror := true }).ctx 0).mirror = true ∧ (waiting id [(1, 64)]).xa.toNat % 64 = 0 ∧
    (waiting id [(1, 0x1FFFF)]).xa.toNat / 2 ^ 17 = 0 := by decide +kernel

/-! ## States that meet the statements' premises, events -/

/-- Context 1 on quad 0, with the first GiB of its addresses mapped as they stand. -/
def leaf1 : CachedLeaf := { plate := 0, ctx := 1, base := 0, size := 2 ^ 30, pa := 0, w := true, x := true, proof := false }
def mapped (s : State) : State := s.updPkg fun k =>
  { k with cached := [leaf1], ctxs := k.ctxs.set 1 { Context.reset with live := true, quads := 1, xen := true }, imgbase := k.imgbase.set 0 0x100000 }
/-- Cell 0 running a core that `f` makes. -/
def running (f : Core → Core) : State := timed fun c => f { c with run := .running, ctx := 1 }
def seqOf (f : Sequencer → Sequencer) (s : State) : State := s.updCore 0 fun c => { c with seq := f c.seq }
def bundle0 : Bundle := { stop := true, instrs := [(6, .add g0 A12)] }
def group0 : Group := { base := 0, index := 0, bundles := [bundle0], first := true, last := true }
def issuing : State := seqOf (fun q => { q with group := some group0, notBefore := 0 }) (running id)
theorem witness_group_issue : (issuing.core 0).run = .running ∧ (issuing.core 0).seq.drained = false ∧ (issuing.core 0).seq.notBefore = issuing.clk ∧
    (issuing.core 0).seq.group = some group0 ∧ (issuing.core 0).seq.loops = [] ∧ bundle0.stop = true ∧
    issuing.bundleFault 0 0 group0 bundle0 = none := by decide +kernel
def landing : Flight := { due := 0, seq := 0, issued := 0, slot := 6, opcode := 1, pc := 0, landings := [.s 3 7], group := .none, flags := [], park := none }
theorem witness_landing : ((timed fun c => { c with flights := [landing] }).core 0).flights = [landing] ∧ landing.due ≤ (timed id).clk ∧ landing.landings = [.s 3 7] ∧
    landing.park = none ∧ landing.flags = [] ∧
    (∀ l ∈ [Landing.s 63 7, .a 15 7, .p 15 true, .v 59 7 1, .pv 15 7 1, .k 7 7 1, .stride 15 8], Claims.toRegister l = true) ∧
    unionFlags landing.flags &&& (timed id).cur.ctl.enables landing.group = 0 := by decide +kernel
/-- Results that park and that raise an enabled flag. -/
def flagged : Flight := { landing with group := .va, flags := [(31, fNv)] }
theorem witness_landing_faults : ({ landing with park := some (9, 0x80) } : Flight).park = some (9, 0x80) ∧ flagged.park = none ∧
    unionFlags flagged.flags &&& ((timed fun c => { c with ctl := { c.ctl with vae := fNv } }).core 0).ctl.enables flagged.group ≠ 0 ∧
    (∀ l ∈ flagged.landings, Claims.toRegister l = true) := by decide +kernel
/-- The other results: a control register, the planes, the energy rate, a run of containers in tile 3, window 15. -/
theorem witness_landing_kinds : ∀ l ∈ [Landing.creg 0x10 1, .swapPlanes, .energy 5, .zrow 3 32704 [7], .openWindow 15 0x1000 64 9 0 1 (Vector.replicate 4 0)],
    let s := running fun c => { c with flights := [{ landing with landings := [l] }] }
    (s.core 0).flights = [{ landing with landings := [l] }] ∧ landing.due ≤ s.clk ∧ (s.core 0).run = .running := by decide +kernel
def endingAs (r : RunState) : State := timed fun c => { c with run := r }
theorem witness_core_ends : ((seqOf (fun q => { q with drained := true }) (running id)).core 0).seq.drained = true ∧
    (∀ r ∈ [RunState.halting, .stopping, .parking, .preempting], ((endingAs r).core 0).run = r ∧ ((endingAs r).core 0).faults = [] ∧ (endingAs r).quiet 0 = true ∧
      (endingAs r).drainedNow 0 = true ∧ ((endingAs r).core 0).clock.released = true ∧ ((endingAs r).core 0).clock.firstRefusal [1, 2, 3] = none ∧
      ((endingAs r).core 0).mtx.busy 0 = 0 ∧ (∀ x ∈ (endingAs r).throughs, x.2.agent ≠ timedAgent 0)) := by decide +kernel
def preempted : State := timed fun c => { c with run := .running, clock := { c.clock with prq := true } }
theorem witness_preemption : (preempted.core 0).run = .running ∧ (preempted.core 0).clock.prq = true ∧ (preempted.core 0).ctl.inh = false ∧
    (preempted.core 0).seq.realign = none ∧ (preempted.core 0).redirectsNow preempted.tick = false ∧
    ((preempted.setWindow 0 15 { Window.reset with action := 1, absent := true, missed := true }).core 0).redirectsNow preempted.tick = true := by
  decide +kernel
def saving : State := mapped (timed fun c => { c with run := .preempting, ctx := 1, ctl := { c.ctl with psav := 0x1000 } })
theorem witness_image_save : (match (saving.asUnit (.image 0) false).imagePages (plateOf 0) (saving.core 0).ctx (saving.core 0).ctl.psav.toNat true
      (imageSize / 4096) with | .ok (.ok ps) => ps.length == imageSize / 4096 | _ => false) = true ∧
    saving.quiet 0 = true ∧ (saving.core 0).run = .preempting ∧ (saving.core 0).seq.drained = false ∧ (saving.core 0).mtx.busy saving.clk = 0 ∧
    (saving.core 0).clock.released = true ∧ ((seqOf (fun q => { q with drained := true }) saving).core 0).seq.drained = true ∧
    (saving.unitJob (.image 0)).waits = none ∧ (saving.unitJob (.image 0)).left.getD [] = [] ∧ saving.throughs = [] := by decide +kernel
def waits5 : Realign := { address := 0x40, arrived := some 0, timeout := 5, dest := some 3, release := none }
def gang2 (s : State) : State := s.updPkg fun k => { k with gangs := k.gangs.set (gangKey 0 2) { ctx := 1, members := [0, 1], preempt := [] } }
def realigning : State :=
  { gang2 ((seqOf (fun q => { q with realign := some waits5 }) (running fun c => { c with gang := 2 })).setCore 1 { Core.reset with run := .running, gang := 2 }) with clk := 6 }
theorem witness_realign_timeout : (realigning.core 0).seq.realign = some waits5 ∧ waits5.arrived = some 0 ∧ 0 + waits5.timeout + 1 = realigning.clk ∧ waits5.release = none ∧
    (realigning.realignMates 0).any (fun m => !realigning.realignedAt m waits5.address) = true := by decide +kernel
def line8 : AccessLine := { address := 0x2FFFF8, len := 8, lane := 0 }
def performing (k : AccessKind) : State :=
  { base with accesses := [{ due := 0, seq := 0, issued := 0, cell := 0, slot := 4, pc := 0, space := 0, lines := [line8], kind := k }] }
theorem witness_perform : ∀ k ∈ [AccessKind.store 7 255, .load (.scalar 3 3) 5], ((performing k).accesses.map fun a => (a.kind, a.lines)) = [(k, [line8])] ∧
    (∀ a ∈ (performing k).accesses, (performing k).regionHit (a.store line8) (a.storeOffset line8) line8.len = none ∧
      (performing k).pkg.poison.contains (lineOf (spacePhys a.cell a.space line8.address)) = false) := by decide +kernel
def command0m : MatrixCommand :=
  { id := 1, issued := 0, ends := 0, opcode := 1, pc := 0x1000, kind := .load false false, record := 0x808, address := 0, scaleAt := 0, elems := [], scales := [],
    planes := [], abandoned := false }
def zeroing : State := after (.mzero g0 { E0 with f1 := 3, tag := 11 }) base
theorem witness_matrix_end : Claims.endsNow { zeroing with clk := 16 } 0 (({ zeroing with clk := 16 }.core 0).mtx.cmds.headD command0m) ∧
    (({ zeroing with clk := 16 }.core 0).mtx.cmds.map fun (k : MatrixCommand) => k.kind) = [.zero 3 true] := by
  unfold Claims.endsNow
  decide +kernel
/-- Commands that end now, of f16, of f64 and of blocks with and without a reserved code. -/
def endingCommand (kind : MatrixKind) (record : Word) (code : Nat) : MatrixCommand :=
  { command0m with kind, record, elems := Memory.putNum [] 0 1 code, planes := [(0, { Plane.reset with valid := true, stype := recStype record })] }
def endingState (k : MatrixCommand) : State := running fun c => { c with mtx := { c.mtx with cmds := [k] } }
theorem witness_command_ends : ∀ k ∈ [endingCommand (.product 3 1 false) 0x808 0, endingCommand (.product 3 1 true) 0x1616 0, endingCommand (.product 3 1 false) 0x1616 0x80,
      endingCommand (.product64 3 1 0 true) 0xB0B 0, endingCommand (.load false true) 0x808 0, endingCommand (.load false true) 0x1616 0,
      endingCommand (.load false false) 0x1616 0x80, endingCommand (.load true true) 0x1616 0, endingCommand (.scale 3 (-1) 0) 0x808 0],
    (((endingState k).core 0).mtx.cmds.filter (fun k => decide (k.ends ≤ (endingState k).clk)) = [k] ∧ k.abandoned = false) ∧ recordOk k.record = true ∧
    (k.planes.map (·.1)).Nodup ∧ ∀ p ∈ k.planes, p.2.stype = recStype k.record ∧ ((endingState k).core p.1).mtx.badCols = 0 := by decide +kernel
/-- The scales of 8 rows or of 128 and the codes of one row or of all: none is reserved where all are 0, and the code of 128 is. -/
theorem witness_reserved : isBlockType 22 = true ∧ isBlockType 8 = false ∧ Claims.unreserved (endingCommand (.product 3 1 true) 0x1616 0) 22 1 1 ∧
    ¬Claims.unreserved (endingCommand (.product 3 1 false) 0x1616 0x80) 22 1 1 := by
  unfold Claims.unreserved
  decide +kernel
def discarding : State := after (.cdisc g0 { E0 with f1 := 1, f2 := 4 }) copying
theorem witness_copy_line : (discarding.cur.cpy.tagged.flatMap fun c => c.lines.map fun l => (l.read, l.src, l.dsts)) = [(false, .zeros, [.global 0x1000])] := by decide +kernel
def line0 : CopyLine :=
  { id := 0, src := .zeros, dsts := [.global 0x1000], stage := 0, read := false, physical := 0, data := 0, bytes := 64, discard := false }
def copy0 (l : CopyLine) : TaggedCopy :=
  { id := 9, tag := 63, pc := 0x1000, issued := 0, lines := [l], list := none, ranges := [], fallen := [], coll := false, proof := false }
/-- Core 0 of context 1 with one copy of one line. -/
def lined (l : CopyLine) : State := { mapped (running fun c => { c with cpy := { c.cpy with tagged := [copy0 l] } }) with nextId := 1 }
/-- Zeros; a source in core store, waiting and at its turn; a destination there; a global source and destination at each stage. -/
theorem witness_copy_lines : ∀ l ∈ [line0, { line0 with src := .core 1 0x2FFFC0 128 }, { line0 with src := .core 1 0x2FFFC0 128, stage := 2 },
      { line0 with read := true, dsts := [.core 1 0x2FFFC0 79] }, { line0 with read := true, dsts := [.core 1 0x2FFFC0 79], stage := 3 },
      { line0 with read := true, dsts := [.core 1 0x2FFFC0 80], stage := 3 }, { line0 with src := .global 0x1000 }, { line0 with read := true },
      { line0 with read := true, stage := 4 }, { line0 with read := true, discard := true, stage := 1 }, { line0 with src := .global 0x1000, stage := 1 }],
    ((lined l).core 0).cpy.copyOfLine l.id = some (copy0 l) ∧ (copy0 l).lines.find? (fun x => x.id == l.id) = some l ∧ (copy0 l).tag < 64 ∧
    (∀ x ∈ ((lined l).core 0).cpy.tagged, ∀ y ∈ x.lines, y.id < (lined l).nextId) ∧ l.dsts ≠ [] := by decide +kernel
/-- Each outcome of a translation, of a poison check, of a refusal and of a wait at a slice. -/
theorem witness_copy_conditions : let s := lined line0
    s.translateNow 0 1 0x1000 true false = some (.ok 0x1000) ∧ s.translateNow 0 1 (2 ^ 48) true false = some (.error 48) ∧
    ({ s with pkg := { s.pkg with cached := [] } } : State).translateNow 0 1 0x1000 true false = none ∧ stackPlate 0x1000 = plateOf 0 ∧ inHbm 0x1000 = true ∧
    inHbm 0x030000000000 = false ∧ s.refusesLine 1 0x2FFFC0 = false ∧ (s.updCore 1 fun c => { c with run := .contained }).refusesLine 1 0x2FFFC0 = true ∧
    (∀ x ∈ [true, false], (if x then s.updPkg fun k => { k with poison := [coreStoreBase 1 + 0x2FFFC0] } else s).pkg.poison.contains (coreStoreBase 1 + 0x2FFFC0) = x) ∧
    s.linePoisoned 0 = false ∧ (s.updPkg fun k => { k with poison := [63 / 8 * 8] }).linePoisoned 0 = true ∧
    s.sliceHolds (sliceOf 0) (.line 0 0) 0 false false = false ∧
    (s.updPkg fun k => { k with resets := [{ plate := 0, step := 3, lost := 0 }] }).sliceHolds (sliceOf 0) (.line 0 0) 0 false false = true := by decide +kernel
def remote1 : RemoteStore :=
  { source := 0, cell := 1, offset := 0x2FFFF8, len := 8, data := 7, cls := 1, arrived := false, queued := false,
    left := [0], turn := none, refused := false, counted := true }
def posted : State := { base with remotes := [(4, remote1)] }
theorem witness_remote_store : posted.remotes.get? 4 = some remote1 ∧ remote1.turn = none ∧ remote1.queued = false ∧ remote1.left ≠ [] ∧
    remote1.refused = false ∧ (∀ x ∈ posted.remotes, x.2.source = remote1.source → x.2.cell = remote1.cell → x.1 = 4) ∧ remote1.counted = true := by
  decide +kernel
/-- Acknowledgements of a refused store, and of one that an earlier program posted. -/
theorem witness_remote_ack : ∀ r ∈ [{ remote1 with refused := true }, { remote1 with counted := false }],
    ({ base with remotes := [(4, r)] } : State).remotes.get? 4 = some r := by decide +kernel
def turned : State := { base with remotes := [(4, { remote1 with arrived := true, queued := true, turn := some 0 })] }
theorem witness_remote_turn : turned.turnsAway 1 = false ∧ (turned.core 1).run ≠ .contained ∧ turned.regionHit 1 0x2FFFF8 8 = none ∧
    remote1.left.erase 0 = [] ∧ (turned.remotes.all fun x => x.1 == 4) = true ∧ (turned.updPkg fun k => { k with retired := 2, retiredAt := [] }).turnsAway 1 = true := by decide +kernel

/-- A schedule entry of cell 0 in context 1: kind, armed, due at a tick. -/
def entryOf (kind : Nat) (armed : Bool) (tick : Nat) : BitVec 512 :=
  BitVec.ofNat 512 (tick + 2 ^ 64 + (if kind = 2 then 0 else 0x4000) * 2 ^ 384 + 2 * 2 ^ 435 + armed.toNat * 2 ^ 445 + kind * 2 ^ 446 + 2 ^ 496)
def scheduled (kind : Nat) : State := (mapped base).setEntry 3 4095 (entryOf kind true 0)
def scheduled0 (kind : Nat) : State := (mapped base).setEntry 0 0 (entryOf kind true 0)
theorem witness_entry_write : seArmed (entryOf 0 true 4096) = true ∧ base.entryRefused 0 (entryOf 0 true 4096) = false ∧ base.entryRefused 0 (entryOf 0 true 4095) = true ∧
    seKind (entryOf 0 true 4096) = 0 := by decide +kernel
def brought (u : MemUnit) (n : Nat) : UnitJob :=
  { UnitJob.fresh u with reads := (List.range n).map fun j => { pa := 64 * j, len := 64, x := 0, bad := false, upTo := 0 } }
/-- The argument block at 0 has been read; the launch tick comes while the copy still waits for it. -/
theorem witness_launch : let s := scheduled0 0; let e := s.entry 0 0
    seArmed e = true ∧ seKind e = 0 ∧ seTick e ≤ s.tick.toNat ∧ seCells e = [0] ∧ s.argsDue 0 0 = s ∧
    (∀ s1 ∈ [s, ({ s with units := [UnitJob.fresh (.args 0 0)] } : State).argsDue 0 0], (∀ n ∈ seCells e, s1.launchOffends (seContext e) n = false) ∧
      s1.pkg.gangs.get? (gangKey 0 (seGang e)) = none ∧ (s1.plate 0).argFaults.get? 0 = none) := by decide +kernel
theorem witness_argument_copy : (match (({ scheduled0 0 with units := [brought (.args 0 0) 4] } : State).asUnit (.args 0 0) false).readRange 0
    (seContext ((scheduled0 0).entry 0 0)) (seArgs ((scheduled0 0).entry 0 0)) 256 with | .ok (.ok bs) => bs.length == 256 | _ => false) = true := by decide +kernel
/-- At tick 65536, with the table of images at 0x4000 naming the image at 0x10_0000. -/
def resuming : State := { scheduled0 1 with tick := 65536, mem := Memory.putNum [] 0x4000 8 0x100000 }.setEntry 0 0 (entryOf 1 true 65536)
theorem witness_resume : let s := resuming; let e := s.entry 0 0
    seArmed e = true ∧ seKind e = 1 ∧ seTick e ≤ s.tick.toNat ∧ (∀ n ∈ seCells e, s.resumeOffends e n = false) ∧ s.resumable 0 e = true ∧ (s.imagesNow 0 0 e).isSome = true := by
  decide +kernel
def preempting : State := (scheduled0 2).updPkg fun k => { k with gangs := k.gangs.set (gangKey 0 2) { ctx := 1, members := [0], preempt := [] } }
theorem witness_schedule_preempt : let s := preempting; let e := s.entry 0 0
    seArmed e = true ∧ seKind e = 2 ∧ seTick e ≤ s.tick.toNat ∧ s.preemptOffends 0 e = none := by decide +kernel
def containing : State := (gang2 base).updPkg fun k => { k with kPlate := 0, kGang := 2, kCtx := 1, kBusy := true }
theorem witness_kcont : containing.pkg.gangs.get? (gangKey containing.pkg.kPlate containing.pkg.kGang) = some { ctx := 1, members := [0, 1], preempt := [] } ∧
    containing.pkg.kCtx = 1 ∧ containing.pkg.kBusy = true := by decide +kernel

/-- Cell 0's window 15 as `f` makes it, its region a line at 0x1000, closing at tick 5. -/
def window5 : Window := { Window.reset with base := 0x1000, size := 64, close := 5, isOpen := true }
def windowed (f : Window → Window) : State := { (running id).setWindow 0 15 (f window5) with tick := 5 }
theorem witness_window_close : let w := ((windowed id).core 0).window 15
    w.isOpen = true ∧ w.close.toNat ≤ (windowed id).tick.toNat ∧ w.stalling = false ∧ ¬(w.action = 2 ∧ w.hit = false) := by decide +kernel
theorem witness_window_redirect : (List.range 16).find? (fun n => (((windowed fun w => { w with owed := true }).core 0).window n).owed) = some 15 := by decide +kernel
/-- The requests of a store, a window store and a window post by thread 0 of cell 0. -/
def asked (i : Instr) (w : BarrelWord) : State := after i (translated (barrel w [(1, 0x2000)]))
theorem witness_window_accesses : ((asked .wpost ⟨3, 1, 0x1F, 0⟩).requests.map fun r => r.2.kind) = [.wpost 15 1 0] ∧
    ((asked .wst ⟨3, 1, 0x0F, 0⟩).requests.map fun r => r.2.kind) = [.wst 15 0] ∧ ((asked .wld ⟨3, 1, 0x0F, 0⟩).requests.map fun r => r.2.kind) = [.wld 3 15] := by decide +kernel
def barWait : BarWait := { barrier := 4, dom := false, mask := 0, arrived := 0, limit := none, release := none }
def barred (b : BarWait) : State := gang2 (seqOf (fun q => { q with bar := some b }) (running fun c => { c with gang := 2 }))
theorem witness_barrier_release : (barred barWait).allArrived ((barred barWait).gangMembers 0 2) 4 = true ∧ (barred barWait).gangMembers 0 2 = [0, 1] := by decide +kernel
/-- `bar` with a timeout in s1 in the text at 0. -/
def barText : State := { barred { barWait with limit := some 0 } with text := Memory.putNum [] 0 64 (encodeBundle 7 (.bar g0 { E0 with f2 := 1, tag := 4, func := 2 })).toNat }
theorem witness_barrier_timeout : (barText.core 0).seq.bar = some { barWait with limit := some 0 } ∧ (barText.core 0).run = .running ∧ barWait.release = none ∧
    ((barText.checkedGroup 0 ((barText.core 0).seq.pc)).toOption.map fun bs => (((barText.core 0).waiters bs).filter fun m => m.instr matches .bar ..).map fun m => m.instr) =
      some [.bar g0 { E0 with f2 := 1, tag := 4, func := 2 }] ∧ (barText.core 0).seq.barsDone = 0 ∧ 0 ≤ barText.clk := by decide +kernel
def domBar : DomainBarrier := { gang := 2, barrier := 4, plates := [(0, 3, 9)], ticks := [(1, 7)], seen := [] }
theorem witness_domain_release : let s := { (barred barWait).updPkg fun k => { k with domBars := [domBar], domLat := 5 } with tick := 14 }
    s.pkg.domBars.find? (fun b => b.gang == 2 && b.barrier == 4 && (b.plates.get? 0).isSome) = some domBar ∧
    domBar.release s.pkg.domPos s.pkg.domLat 0 = some 14 ∧ 14 ≤ s.tick.toNat := by decide +kernel
theorem witness_domain_arrival : let s := barred { barWait with dom := true, mask := 3 }
    s.pkg.domBars.find? (fun b => b.gang == 2 && b.barrier == 4 && (b.plates.get? 0).isSome) = none ∧
    s.allArrived (s.gangMembers 0 2) 4 = true ∧ (s.waitingAt (s.gangMembers 0 2) 4).head? = some 0 := by decide +kernel
theorem witness_CounterEventsComplete : base.mgmt.released = false ∧ (base.updMgmt fun m => { m with released := true }).mgmt.released = true ∧
    base.tick.toNat / 64 % ((base.plate 0).frame.1 + (base.plate 0).frame.2) < (base.plate 0).frame.1 ∧ base.resetting 0 = false ∧
    (base.updPkg fun k => { k with resets := [{ plate := 0, step := 3, lost := 0 }] }).resetting 0 = true ∧
    (let p := (base.updPlate 0 fun p => { p with set := true, lend := false }).plate 0; p.set = true ∧ p.lend = false) ∧ (base.plate 0).frame.1 ≤ ({ base with tick := 192 }).tick.toNat / 64 % ((base.plate 0).frame.1 + (base.plate 0).frame.2) := by decide +kernel

def thr : Thread := Thread.fresh 1 0 16 0 0x1000 0 0 0 0 0
def goes (s : State) : State := s.updMgmt fun m => { m with released := true }
theorem witness_issue : let s := goes ((barrel ⟨0, 0, 0, 0⟩ []).updThread 0 0 fun x => { x with fetched := some 0x1000 })
    s.retired 0 = false ∧ s.mgmt.released = true ∧ (s.thread? 0 (Claims.turn s 0 0)).any (fun x => x.canIssue s.clk && (s.fetchAt 0 x).isSome && !s.fetchHeld 0 x) = true := by decide +kernel
theorem witness_turn : let s := barrel ⟨0, 0, 0, 0⟩ []
    s.thread? 0 (Claims.turn s 0 0) = some thr ∧ thr.canIssue s.clk = true ∧ s.sfnHolds 0 thr = false := by decide +kernel
def packet1 : TaskPacket := { ctx := 0, words := [BitVec.ofNat 64 (16 * 2 ^ 48 + 0x4000), 0, 0, 7, 8, 9, 10, 11] }
def tasked : State := (barrel ⟨0, 0, 0, 0⟩ []).updBarrel 0 fun b => { b with tasks := [packet1] }
theorem witness_dispatch : (goes tasked).mgmt.released = true ∧ (tasked.barrel 0).smpStart = false ∧ tasked.retired 0 = false ∧ (tasked.barrel 0).freeSlot = some 1 ∧ (tasked.barrel 0).tasks = [packet1] ∧ (tasked.barrel 0).firstFit packet1.count = some 16 ∧
    packet1.paired = false ∧ packet1.count = 16 := by decide +kernel
def sampling : State := base.updBarrel 0 fun b => { b with smpStart := true, smpEn := true }
theorem witness_sampler : (goes sampling).mgmt.released = true ∧ sampling.retired 0 = false ∧ (sampling.barrel 0).smpStart = true ∧ (sampling.barrel 0).threads.get? 63 = none ∧ (sampling.barrel 0).reserved = [] ∧
    (sampling.barrel 0).firstFit (sampling.barrel 0).smpRegs = some 0 ∧ (goes sampling).cellContext 0 = none ∧
    ((goes sampling).updCtx 7 fun x => { x with live := true, quads := 1 }).cellContext 0 = some 7 := by decide +kernel
def sfnAsked : State := { after .sfn (barrel ⟨8, 4, 0, 0⟩ []) with clk := 1 }
theorem witness_sfn_start : ((sfnAsked.barrel 0).sfn.find? (fun q => q.lands.isNone)).any (fun q => decide (q.entered ≤ sfnAsked.clk)) = true ∧ (sfnAsked.barrel 0).sfnStart = none := by decide +kernel
def sfnStarted : State := { after (.sfnStart 0) sfnAsked with clk := 33 }
theorem witness_sfn_landing : ((sfnStarted.barrel 0).sfn.map fun q => (q.lands, sfnStarted.named 0 q.thread 7)) = [(some 33, none)] ∧
    ((sfnStarted.barrel 0).sfn.map fun q => (sfnStarted.named 0 q.thread q.uid).map (·.wait)) = [some .none] := by decide +kernel
def faultOf : BarrelFault := { cause := 20, val := 5, epc := 0x1000, issued := 0, detected := 7 }
def faulting (level : Nat) (tvec : BitVec 48) : State := thread0 (fun t => { t with level, tvec, fault := some faultOf }) ⟨0, 0, 0, 0⟩ []
theorem witness_trap_entry : ∀ n ∈ [0, 1, 2], (faulting n 0x8000).th.fault = some faultOf ∧ (faulting n 0x8000).th.level = n ∧ ((faulting n 0x8000).barrel 0).queued 1 = false ∧
    (faulting n 0x8000).th.tvec ≠ 0 ∧ (faulting n 0).th.tvec = 0 ∧ (faulting n 0).clk < faultOf.detected ∧
    faultOf.detected ≤ ({ faulting n 0x8000 with clk := 7 } : State).clk := by decide +kernel
def note : Message := { kind := 8, cause := 20, cell := 0, thread := 0, ctx := 5, pc := 0, val := 0 }
theorem witness_kill_complete : ({ base with kills := [(5, note)] }).kills.get? 5 = some note ∧ ({ base with kills := [(5, note)] }).hasThreads 5 = false := by decide +kernel
theorem witness_mailbox_post : ∀ en ∈ [false, true], let s := base.updPlate 0 fun p => { p with queue := [note], supEn := en }
    (s.plate 0).queue = [note] ∧ (s.plate 0).supEn = en ∧ scratchBase (s.plate 0).supCell + (s.plate 0).supBox + 32 * (s.plate 0).mbNext ∉ s.full := by decide +kernel

def away (i : Instr) (w : BarrelWord) : State := (asked i w).updReq 0 fun r => { r with stage := .away, pa := 0x030000000000 }
theorem witness_bank : let s := { away .lde ⟨3, 1, 0, 0⟩ with scratchPorts := [(bankKey 0 0, [(5, 0)])] }
    s.scratchPorts.getD (bankKey 0 0) [] = [(5, 0)] ∧ ((s.requests.get? 0).map (·.stage)) = some .away := by decide +kernel
def parkedOn (stage : Stage) : State := { (away .ste ⟨3, 1, 0, 0⟩).updReq 0 fun r => { r with stage } with parked := [(0x030000000000, [0])] }
theorem witness_full_empty : ((parkedOn .parked).parked.getD 0x030000000000 []).find? (parkedOn .parked).canServe = some 0 ∧
    ((parkedOn .parked).requests.get? 0).map (·.stage) = some .parked ∧ 0 ∈ (parkedOn .parked).parked.getD 0x030000000000 [] := by decide +kernel
def answered (fault : Option (Nat × Word)) : State := (asked .ld ⟨3, 1, 3, 0⟩).updReq 0 fun r => { r with stage := .served, fault, answer := [5] }
theorem witness_completion : (answered none).th.wait = .request 0 ∧ (((answered none).requests.get? 0).map fun r => (r.stage, r.fault, r.kind)) = some (.served, none, .load 3 8 false) ∧
    (((answered (some (57, 8))).requests.get? 0).map fun r => (r.stage, r.fault)) = some (.served, some (57, 8)) := by decide +kernel

/-- Context 0 on all quads; cell 0 with an automatic thread and a load of 100, cell 1 idle. -/
def loaded : State := { ((barrel ⟨0, 0, 0, 0⟩ []).updCtx 0 fun x => { x with live := true, quads := BitVec.allOnes 80 }).updBarrel 0 fun b => { b with migEn := true } with
  cload := [(0, 0x80E4)] }
theorem witness_choice : ((loaded.barrel 0).threads.filter fun t => t.2.auto && loaded.eligible 0 t.1 t.2).getLast? = some (0, thr) ∧ loaded.idlest 0 0 = some 1 ∧
    (loaded.barrel 0).migEn = true ∧ (loaded.barrel 0).migHi < loaded.cloadByte 0 % 128 ∧
    loaded.cloadByte 1 % 128 + (loaded.barrel 0).migDiff ≤ loaded.cloadByte 0 % 128 := by decide +kernel
def leaving : State := thread0 (fun t => { t with state := .migrating, wait := .migrate 3 7 }) ⟨0, 0, 0, 0⟩ []
def held7 : Reservation := { uid := 1, slot := 0, base := 0, count := 16 }
theorem witness_migration : leaving.th.wait = .migrate 3 7 ∧ leaving.th.count ≤ 128 ∧ (leaving.barrel 7).freeSlot = some 0 ∧ (leaving.barrel 7).firstFit 16 = some 0 ∧
    ((leaving.updBarrel 7 fun b => { b with smpEn := true, threads := (List.range 63).map fun n => (n, thr) }).barrel 7).freeSlot = none ∧
    (leaving.updPkg fun k => { k with retired := 2 ^ 7 }).retired 7 = true ∧ leaving.retired 7 = false ∧
    ((leaving.updBarrel 7 fun b => { b with reserved := [held7] }).barrel 7).reserved.find? (fun r => r.uid == leaving.th.uid) = some held7 := by decide +kernel
/-- The requests of a paired thread in cell 0 and of its shadow in cell 1: a store of 0, and of x. -/
def compared0 (cell uid index : Nat) (x : Word) : Request :=
  { cell, thread := 0, uid, ctx := 0, kind := .store 8 x, va := 0x2000, pa := 0, len := 8, sp := false, posted := true, release := false, ord := 0, scope := 0, issued := 0,
    promoted := false, pc := 0x1000, stage := .comparing (some 0), slot := true, turns := 0, felim := 20, index, answer := [], fault := none, before := 0 }
def pairedRequests (x : Word) : State := { base with requests := [(0, compared0 0 2 2 0), (1, compared0 1 1 3 x)] }
theorem witness_pair_hash : (compared0 0 2 2 0).hash = (compared0 1 1 3 0).hash ∧ (compared0 0 2 2 0).hash ≠ (compared0 1 1 3 1).hash := by decide +kernel
theorem witness_pair (x : Word) : ((pairedRequests x).requests.findSome? fun (p : Nat × Request) => if p.2.cell == 0 && p.2.thread == 0 && p.2.compared.isSome then
      (((pairedRequests x).shadowOf p.2).filter fun q => q.2.compared.isSome).map fun q => (p, q) else none) = some ((0, compared0 0 2 2 0), (1, compared0 1 1 3 x)) := rfl
theorem witness_pair_timeout : (({ pairedRequests 0 with clk := 65536 }.requests.find? fun (p : Nat × Request) => p.2.cell == 1 && p.2.thread == 0 &&
    p.2.compared.any fun t => decide (t + 65536 ≤ 65536)).map fun (p : Nat × Request) => p.1) = some 1 := by decide +kernel

def flyer (dest : Nat) : Packet := { source := 0, here := 3, input := 3, since := 0, via := none, dest, cls := 0, phase := phNet, key := 0, item := .mailbox }
theorem witness_packet : let s : State := { base with packets := [(9, flyer 3)] }
    s.packets.get? 9 = some (flyer 3) ∧ (flyer 3).here = (flyer 3).dest ∧ s.outputOf 3 1023 = none ∧ s.served 3 1023 = some (9, flyer 3) ∧ (flyer 5).here ≠ (flyer 5).dest ∧
    ({ base with packets := [(9, flyer 5)] }).served 3 (flyer 5).next = some (9, flyer 5) ∧
    ({ s with outputs := [(1024 * 3 + 1023, { servedAt := s.clk, turns := [] })] }).outputOf 3 1023 = some { servedAt := s.clk, turns := [] } := by decide +kernel
/-- A beat that reaches its port, for this package and for its neighbour. -/
def beat0 (destination : Nat) (body : BeatBody) : Beat := { sent := 4, destination, body }
theorem witness_beat : (11 : Nat) < 12 ∧ (1 : Nat) ≠ base.pkg.domPos ∧ (0 : Nat) = base.pkg.domPos ∧
    (∀ n ∈ [(3 : Nat), 4, 5], decide ((beat0 0 (.counter 0)).sent.toNat + (({ base with tick := BitVec.ofNat 64 n }).link 11).lat = n) = decide (n = 4)) := by decide +kernel
def reading : State := (away .ld ⟨3, 1, 3, 0⟩).updReq 0 fun r => { r with pa := 64 }
def sliced : State := reading.updSlice (sliceOf 64) fun x => { x with ways := [64] }
theorem witness_slice : ((sliced.requests.get? 0).map fun r => (r.stage, r.pa, r.kind.writes)) = some (.away, 64, false) ∧
    sliced.sliceHolds (sliceOf 64) (.request 0) (lineOf 64) false false = false ∧ sliced.lineReady (sliceOf 64) (lineOf 64) = true ∧
    reading.sliceHolds (sliceOf 64) (.request 0) (lineOf 64) false false = false ∧ reading.lineReady (sliceOf 64) (lineOf 64) = false ∧
    lineOf 64 ∉ (reading.slice (sliceOf 64)).misses ∧ (reading.slice (sliceOf 64)).misses.length < 256 ∧ inHbm (lineOf 64) = true ∧
    stackPlate (lineOf 64) < 4 := by decide +kernel
theorem witness_slice_tables : (base.slice 0).canTake 64 = true ∧
    ((base.updSlice 0 fun x => { x with buffer := [64], granted := [64] }).slice 0).granted = [64] ∧ 64 ∈ ((base.updSlice 0 fun x => { x with buffer := [64] }).slice 0).buffer ∧
    (base.updSlice 0 fun x => { x with dead := [(5, [64])] }).nextSwept 0 = [64] ∧ stackPlate 64 < 4 ∧
    base.nextSwept 0 = [] := by decide +kernel
def walk0 : Walk := { plate := 0, ctx := 0, va := 0, write := false, fetch := false, user := .request 0, started := true, caches := true }
/-- A walk in a context without translation is refused; one in a context with it needs an entry of its root table. -/
theorem witness_walk : let s : State := { base with walks := [(2, walk0)] }
    s.walks.get? 2 = some walk0 ∧ (match (s.asUnit (.walk 2) false).walk 0 0 0 false false with | .ok (.error 64) => true | _ => false) = true ∧
    (match ((translated s).asUnit (.walk 2) false).walk 0 0 0 false false with | .error (.piece 0 8) => true | _ => false) = true ∧
    ((translated s).unitJob (.walk 2)).waits = none := by decide +kernel
theorem witness_vault_port : ({ away .ld ⟨3, 1, 3, 0⟩ with vaultPorts := [(5, [.request 0])] }).vaultPorts.getD (0 * 128 + 5) [] = [.request 0] ∧
    ((away .ld ⟨3, 1, 3, 0⟩).requests.get? 0).any (fun r => !r.kind.writes) = true ∧
    ((away .st ⟨3, 1, 3, 0⟩).requests.get? 0).any (fun r => r.kind.writes && !(away .st ⟨3, 1, 3, 0⟩).poisonAt r) = true := by
  decide +kernel
def sequence0 : Sequence := { ctx := 0, failed := false, n := 0, logC := 10, ring := 0, b := 0, table := [], vocab := 0, padlo := 0, padhi := 0, repn := 0, mode := 0, sxst := 0, spos := 0, run := 0 }
def closing : State := { asked .sxclose ⟨3, 1, 0, 0⟩ with suffix := [(0, { gens := [(0, 0)], open' := [(0, sequence0)], queue := [0], after := none })] }
theorem witness_suffix : (closing.unit 0).queue = [0] ∧ ((closing.requests.get? 0).map fun r => (r.kind, r.ctx)) = some (.suffix 0x76 3 0x2000 0 0 0, 0) ∧ (closing.ctx 0).killed = false ∧
    (closing.unit 0).open'.get? (0x2000 % 256) = some sequence0 ∧ (closing.unit 0).gens.getD (0x2000 % 256) 0 = 0x2000 / 2 ^ 16 % 2 ^ 16 ∧ (closing.unit 0).after = none ∧
    (closing.unitJob (.suffix 0)).waits = none := by decide +kernel
def message0 : RemoteMessage := { sender := 0, position := 1, cell := 0, thread := 0, ctx := 0, job := 5, words := [1] }
def joined : State := (barrel ⟨0, 0, 0, 0⟩ []).updPkg fun k => { k with map := [(0, BitVec.ofNat 192 (2 ^ 191 + 5 * 2 ^ 128))] }
theorem witness_message : joined.thread? 0 0 = some thr ∧ thr.ctx = message0.ctx ∧ joined.ownJob = some message0.job ∧ thr.wait = .none ∧ thr.inbox.length < 8 := by decide +kernel
def sending : State := (asked .st ⟨3, 1, 3, 0⟩).updReq 0 fun r => { r with kind := .remoteSend 3 1 0x2000 [] }
theorem witness_delivery_failure : (thread0 (fun t => { t with wait := .request 0 }) ⟨0, 0, 0, 0⟩ []).th.wait = .request 0 ∧
    ((sending.requests.get? 0).map fun r => r.kind) = some (.remoteSend 3 1 0x2000 []) := by decide +kernel

def through0 : WriteThrough := { line := 64, data := 0, ctx := 1, agent := 0, order := 0, reached := false }
def mirror0 : MirrorLine := { ctx := 1, line := 64, data := 0, agent := 0, order := 0, since := 0, lost := false }
def seal0 : Impression := { n := 1, extents := [], pages := [], slotA := [], slotB := [], parts := [], stage := .writing, asker := .core 0, before := 0, waits := [], t0 := 0, start := 0 }
theorem witness_proof_tables : ({ base with throughs := [(3, through0)] }).throughs.get? 3 = some through0 ∧ ({ base with mirrors := [(3, mirror0)] }).mirrors.get? 3 = some mirror0 ∧
    mirror0.lost = false ∧ ({ base with impressions := [(1, seal0)] }).impressions.get? 1 = some seal0 ∧ seal0.stage = .writing ∧ base.throughs = [] ∧ base.mirrors = [] ∧ seal0.liesOn 0 = false ∧
    (2 ^ (base.ctx 1).mto = 2 ^ 20 ∧ ({ base with clk := 2 ^ 20 }).clk = mirror0.since + 2 ^ 20 ∧ base.clk < mirror0.since + 2 ^ 20) := by decide +kernel
def keeping : State := { (asked .st ⟨3, 1, 3, 0⟩).updReq 0 fun r => { r with kind := .proof 0x7B 3 0 0 0 } with keeper := [(0, .request 0)], clk := 1 }
theorem witness_keeper : keeping.keeper = [(0, .request 0)] ∧ 0 < keeping.clk ∧ ((keeping.requests.get? 0).map fun r => r.kind) = some (.proof 0x7B 3 0 0 0) := by decide +kernel
def part0 (phase : Phase) : Participant := { cell := 0, copy := 8, record := 0x4000, words := [], position := 0, issued := 0, phase, source := [], flags := 0 }
def coll0 (phase : Phase) : Collective :=
  { no := 0, ctx := 1, gang := 2, plate := 0, id := 5, attempt := 0, size := 1, here := [part0 phase], gone := [], orders := [], sent := false,
    given := false, differ := false }
theorem witness_collective : ∀ ph ∈ [Phase.abandoned 371, .delivering, .served 371, .waiting], let s := base.updPkg fun k => { k with colls := [coll0 ph] }
    s.pkg.colls.find? (fun x => x.here.any fun p => p.copy == 8) = some (coll0 ph) ∧ (coll0 ph).here.find? (fun p => p.copy == 8) = some (part0 ph) ∧ (part0 ph).cell = 0 ∧
      (s.core 0).cpy.copy? 8 = none ∧ Phase.waiting.live = true := by decide +kernel
theorem witness_attempts : newer (base.attempt 1 5) 0xFFFF = true ∧ newer 1 (base.attempt 1 5) = true ∧ newer (base.attempt 1 5) 1 = false ∧ newer 0 (base.attempt 1 5) = false := by decide +kernel

def command0 : MailboxCommand := { tag := 0, reserved := 0, phys := 1, ctx := 0, len := 48, word1 := 0x1000, data := 0 }
def ready : State := base.updMgmt fun m => { m with ready := true, neg := true, agreed := 0x7F }
theorem witness_serving : ∀ op ∈ [2, 3, 4, 5, 6, 7, 8, 9], Claims.serving ready op command0 := by
  unfold Claims.serving
  decide +kernel
/-- The slice of the command's line holds it, or does not. -/
def hitting : State := ready.updSlice (sliceOf 0x1000) fun x => { x with ways := [0x1000] }
theorem witness_read_and_write : State.badLen command0 = false ∧ ∀ op ∈ [2, 3], (Claims.queued hitting op command0).cmdWaits op command0 = none ∧
    (hitting.cmdAddresses command0 (op == 2)).toOption = some ((List.range 48).map (0x1000 + ·)) ∧
    ((List.range 48).map (0x1000 + ·)).all (fun pa => !inControl pa && !hitting.badByte pa && hitting.atOnce (op == 2) pa) = true ∧
    hitting.engine = UnitJob.fresh .mailbox ∧
    (match (hitting.asUnit .mailbox false).cmdPhys command0 (op == 2) 48 with | .ok (.ok ps) => ps.length == 48 | _ => false) = true := by decide +kernel
theorem witness_command_waits : ready.engine = UnitJob.fresh .mailbox ∧ ready.cmdReady 3 (cmdWord command0 0) = true ∧ badCommand 3 command0 = false ∧
    hitting.mgmt = ready.mgmt ∧ ready.atOnce false 0x1000 = false ∧ ready.mgmt.stopped = false ∧
    (match (ready.asUnit .mailbox false).cmdPhys command0 false 48 with | .ok (.ok ps) => ps.contains 0x1000 | _ => false) = true := by decide +kernel
theorem witness_MailboxCommandsComplete :
    ready.feature 1 = true ∧ ready.feature 5 = true ∧ ready.feature 6 = true ∧ (ready.ctx 5).live = false ∧ badCommand 4 { command0 with phys := 0, ctx := 5 } = false ∧
    (ready.pkg.ctxs.filter fun x => x.2.live).foldl (fun n x => n + x.2.ceiling.toNat) (cmdWord command0 0).toNat ≤ ready.mgmt.policy ∧ command0.word1.toNat + 48 ≤ 2 ^ 26 ∧
    cmdWord command0 0 = 0 ∧ ready.mgmt.placed = false ∧ cmdWord { command0 with data := 1 } 0 = 1 ∧ (4095 : Nat) < 4096 ∧
    (command0.data.extractLsb' 0 64 : BitVec 64) = 0 ∧ [(7 : Byte)][0]? = some 7 := by
  decide +kernel
theorem witness_mailbox_queue : 64 ≤ (base.updMgmt fun m => { m with queue := List.replicate 64 (1, command0) }).mgmt.queue.length ∧
    (base.updMgmt fun m => { m with queue := List.replicate 63 (1, command0) }).mgmt.queue.length < 64 ∧ (base.updMgmt fun m => { m with ready := true }).mgmt.neg = false := by decide +kernel
theorem witness_ctxrel : let s := ready.updCtx 5 fun x => { x with live := true }
    ({ command0 with phys := 0, ctx := 5 } : MailboxCommand).ctx ≠ 0 ∧ (s.ctx 5).live = true ∧ s.contextLive 5 = false := by decide +kernel
theorem witness_ManagementEventsComplete : ((base.updCtx 0xFFFE fun x => { x with live := true }).ctx 0xFFFE).live = true ∧ (base.group 15).en = false ∧
    ((base.updGroup 15 fun g => { g with mask := 1 }).group 15).mask.getLsbD 0 = true ∧ (0x8000000000000000 : BitVec 64).getLsbD 63 = true ∧
    ((base.updCtx 0 fun x => { x with live := true, quads := 1 }).holds 0 0) = true ∧ inControl 4096 = false ∧ inControl 0x040000001000 = true ∧
    base.mgmt.held = none ∧ (base.mgmt.consumed - base.mgmt.consumed).toNat ≤ (base.mgmt.written - base.mgmt.consumed).toNat ∧ base.contextsOn 0 = [] ∧
    (base.updPkg fun k => { k with resets := [{ plate := 0, step := 1, lost := 0 }] }).pkg.resets = [{ plate := 0, step := 1, lost := 0 }] := by decide +kernel
theorem witness_mrExtend : base.feature 5 = false ∧ ready.feature 5 = true ∧ (3 : Nat) ≤ 7 := by decide +kernel
theorem witness_tickLoad : (base.updMgmt fun m => { m with placed := true }).mgmt.placed = true ∧ (base.updMgmt fun m => { m with placed := true }).mgmt.released = false := by decide +kernel

/-! ## States that meet the statements' premises, the machine as a whole -/

theorem witness_SlotInstructionsRoundTrip : 7 ∈ slotsOf (.yield g0 E0) ∧ wellFormed 7 (.yield g0 E0) = true ∧ 0 ∈ slotsOf (.ccancel g0 { E0 with f2 := 63 }) ∧
    wellFormed 0 (.ccancel g0 { E0 with f2 := 63 }) = true := by decide +kernel
theorem witness_OtherEncodingsRoundTrip : 8 ∈ slotsOf (.xin 63 55) ∧ wellFormed 8 (.xin 63 55) = true ∧ 9 ∈ slotsOf (.xout 63 31 15) ∧ wellFormed 9 (.xout 63 31 15) = true ∧
    10 ∈ slotsOf .exit ∧ wellFormedWord .exit ⟨0, 0, 0, 0⟩ = true ∧ commandParts (.commitSystemImage command0) = some (7, command0) ∧ command0.ctx ≠ 0xFFFF ∧
    command0.data.extractLsb' 0 64 = 0 := by decide +kernel
/-- The placed word is due first, decodes, and names registers below the count. -/
theorem witness_StepRunsDecoded : let s := State.reset.withFetchWord 64 0x02090400FFFFFFFD; let s1 : State := { s with events := s.events.drop 1 }
    s.mgmt.stopped = false ∧ (s.events.head?.map fun e => (e.item, decide (e.due ≤ s.clk))) = some (.thread 0 0, true) ∧
    (s1.thread? 0 0).any (fun x => (match s1.fetchWord 0 x with | .ok w => w == 0x02090400FFFFFFFD | .error _ => false) && (overCount x.count .barrelAddi ⟨9, 4, 0, -3⟩).isNone) = true ∧
    ((s1.barrel 0).poisonRead .barrelAddi ⟨9, 4, 0, -3⟩).isNone = true := by decide +kernel
theorem witness_step_slot : let s := State.reset.withFetchWord 512 (encodeBundle 6 (.add g0 A12)).toNat; let s1 : State := { s with events := s.events.drop 1 }
    (s.events.head?.map fun e => e.item) = some (.slot 0 0 6) ∧ (s1.core 0).run = .running ∧ (s1.core 0).seq.drained = false ∧
    ((s1.core 0).seq.group.map fun g => (bundlePc g.base g.index, g.bundles.map fun b => b.instrs.find? (fun x => x.1 == 6))) = some (0, [some (6, .add g0 A12)]) ∧
    s1.bundleAt 0 0 = some (encodeBundle 6 (.add g0 A12)) := by decide +kernel
theorem witness_step_idle : ({ State.reset with events := [] } : State).mgmt.stopped = false ∧ (State.reset.updMgmt fun m => { m with stopped := true }).mgmt.stopped = true := by decide +kernel
theorem witness_TimedTrapsEnter : (base.core 0).seq.realign = none ∧ (base.core 0).ctl.inh = false ∧ ((timed fun c => { c with ctl := { c.ctl with tvec := 0x4000 } }).core 0).ctl.tvec ≠ 0 ∧
    (issuing.core 0).seq.group = some group0 ∧ (issuing.core 0).run = .running ∧ (issuing.core 0).seq.loops = [] ∧ (issuing.core 0).clock.prq = false ∧
    (issuing.core 0).seq.after = none ∧ ((after (.trap g0 A0) issuing).core 0).seq.after = some .trap ∧ ((after (.trap g0 A0) issuing).core 0).seq.taken = none := by decide +kernel
/-- Levels that end at the bundle at 0 with one iteration left and with two, below one that ends elsewhere. -/
def level0 (left : Nat) : LoopLevel := { level with left := BitVec.ofNat 64 left, last := 0 }
theorem witness_iteration_ends : bundlePc group0.base group0.index = 0 ∧ ∀ ls ∈ [[level0 1], [level0 1, levelFar], [level0 0, level0 1, level0 2], [level0 2, levelFar], [levelFar]],
    let c := (seqOf (fun q => { q with loops := ls }) issuing).core 0
    c.seq.group = some group0 ∧ c.run = .running ∧ c.seq.realign = none ∧ c.clock.prq = false ∧ c.ctl.inh = false ∧ c.seq.taken = none ∧ c.seq.after = none ∧
    c.seq.loops = ls ∧ levelFar.last ≠ 0 ∧ (level0 1).left.toNat ≤ 1 ∧ 1 < (level0 2).left.toNat := by decide +kernel
theorem witness_TimedInstructionsFrame : slotsOf (.add g0 A12) = [6] ∧ base.cur.seq.realign = none ∧ (match exec (.add g0 A12) base with | .next _ => true | _ => false) = true := by decide +kernel
theorem witness_BarrelInstructionsFrame : 10 ∈ slotsOf .exit ∧ (match exec .exit (barrel ⟨0, 0, 0, 0⟩ []) with | .next _ => true | _ => false) = true := by decide +kernel
def landing9 : BarrelFlight := { due := 0, seq := 0, thread := 0, uid := 1, writes := [.reg 15 7] }
theorem witness_RegistersHoldWrites : (0 : Nat) < 15 ∧ (15 : Nat) < 16 ∧ (7 : Nat) < 8 ∧ (143 : Nat) < 144 ∧ (((barrel ⟨0, 0, 0, 0⟩ []).updBarrel 0 fun b => { b with flights := [landing9] }).barrel 0).flights = [landing9] ∧
    (barrel ⟨0, 0, 0, 0⟩ []).named 0 0 1 = some thr := by decide +kernel
theorem witness_MemoriesStayCanonical : State.reset.memoriesWf = true ∧ ((barrel ⟨0, 0, 0, 0⟩ []).mem.putNum 0 8 5).wf = true := by decide +kernel

end Sys2Proof.Tests
end

/-! SUPPORT. The canonical form of the byte memories, and the step that breaks it. -/

namespace Sys2Proof.Machine

open Sys2Proof

/-! ## A resume whose gathered images overrun a page (09_windows R256)

A resume copies a member's core store from its image, which `State.resumeImages` puts together page by page: behind the cells of a page stand
those of the next. What the unit has gathered of a page counts as a whole, even where a piece goes on past the page's end. A unit
asks for pieces of one line (`State.unitPage`), but a premise about the byte memories alone admits a longer one. -/

/-- An armed resume of cell 0 in context 1, due at TICK 65536, its table of images at 0x4000 (R252). -/
def overrunEntry : ScheduleEntry :=
  BitVec.ofNat 512 (65536 + 2 ^ 64 + 0x4000 * 2 ^ 384 + 2 ^ 445 + 2 ^ 446 + 2 ^ 496)

/-- The entry's tick has come. Its image lies at 0x100000, so the pages of the core store's first 8 KiB are those at 0x220000 and 0x221000.
Of the first page two bytes have been gathered that begin at its last byte; memory holds a byte at the start of the second. -/
def overrun : State :=
  { State.reset with
    tick := 65536
    events := [{ due := 0, phase := 0, key := 0, item := .op (.scheduleResume 0 0) }]
    mem := (Memory.putNum [] 0x4000 8 0x100000).putNum 0x221000 1 1
    units := [{ UnitJob.fresh (.resume 0 0) with reads := [{ pa := 0x220FFF, len := 2, x := 0x0101, bad := false, upTo := 0 }] }]
    pkg := { Package.reset with
      ctxs := [(1, { Context.reset with live := true, quads := 1, xen := true })]
      plates := Package.reset.plates.set 0 { Plate.reset with table := [(0, overrunEntry)] }
      cached := [{ plate := 0, ctx := 1, base := 0, size := 2 ^ 30, pa := 0, w := true, x := true, proof := false }] } }

theorem overrun_memoriesWf : overrun.memoriesWf = true := by decide +kernel

/-- Device memory of the state that an outcome goes on with. -/
def memAfter (r : Result) : Memory :=
  match r with
  | .next t => t.mem
  | _ => []

/-- The resumed core store lists the byte at its offset 0x1000 twice. -/
theorem memAfter_step_overrun : memAfter (step overrun) =
    [(0x4002, 0x10), (0x221000, 1), (0x020000000FFF, 1), (0x020000001000, 1), (0x020000001000, 1)] := by decide +kernel

theorem wf_mem_of_memoriesWf {s : State} (h : s.memoriesWf = true) : s.mem.wf = true := by
  simp only [State.memoriesWf, Bool.and_eq_true] at h
  exact h.1.1

/-- Refutes O60: the resume of `overrun` leaves two cells of one address in device memory. -/
theorem not_memoriesStayCanonical : ¬ Obligations.MemoriesStayCanonical := by
  unfold Obligations.MemoriesStayCanonical
  intro h
  have hwf : (memAfter (step overrun)).wf = true := by
    cases hn : step overrun with
    | next t => exact wf_mem_of_memoriesWf (h overrun t overrun_memoriesWf hn)
    | fault | refused => rfl
  rw [memAfter_step_overrun] at hwf
  exact absurd hwf (by decide)

end Sys2Proof.Machine

/-! SUPPORT. The counter and the HBM slots: what a clock period, a neighbour's counter and a slot of the stacks change. -/

namespace Sys2Proof.Machine

open Sys2Proof

variable {s t : State}

/-! ## Bookkeeping: what is due, and records beside the cores, the plates and the counter -/

/-- From `s` to `t` the counter, the cores, the memory, the barrel cores and the plates stay, and whatever was due is due still. -/
structure State.Books (s t : State) : Prop where
  clk     : t.clk = s.clk
  tick    : t.tick = s.tick
  stepBy  : t.stepBy = s.stepBy
  cores   : t.cores = s.cores
  mem     : t.mem = s.mem
  barrels : t.barrels = s.barrels
  plates  : t.pkg.plates = s.pkg.plates
  events  : s.events ⊆ t.events

namespace State.Books

theorem refl (s : State) : s.Books s := ⟨rfl, rfl, rfl, rfl, rfl, rfl, rfl, fun _ h => h⟩

theorem ite {c : Prop} [Decidable c] {u : State} (ht : s.Books t) (hu : s.Books u) : s.Books (if c then t else u) := by
  split
  · exact ht
  · exact hu

theorem foldl {α : Type} {f : State → α → State} {l : List α} (h : s.Books t) (hf : ∀ {u x}, s.Books u → s.Books (f u x)) :
    s.Books (l.foldl f t) := List.foldlRecOn l f h fun _ hu _ _ => hf hu

theorem at' {due phase key item} (h : s.Books t) : s.Books (t.at' due phase key item) where
  clk := by simp [h.clk]
  tick := by simp [h.tick]
  stepBy := by simp [h.stepBy]
  cores := by simp [h.cores]
  mem := by simp [h.mem]
  barrels := by simp [h.barrels]
  plates := by simp [h.plates]
  events := fun e he => (t.mem_at' due phase key item e).mpr (.inr (h.events he))

theorem after {n phase key item} (h : s.Books t) : s.Books (t.after n phase key item) := h.at'

theorem updPkg {f : Package → Package} (h : s.Books t) (hf : ∀ k, (f k).plates = k.plates) : s.Books (t.updPkg f) where
  clk := h.clk
  tick := h.tick
  stepBy := h.stepBy
  cores := h.cores
  mem := h.mem
  barrels := h.barrels
  plates := (hf t.pkg).trans h.plates
  events := h.events

/-- A plate is read from the plates alone. -/
theorem plate (h : s.Books t) (p : Nat) : t.plate p = s.plate p := by simp only [State.plate, h.plates]

theorem due {i : Item} (h : s.Books t) (hi : Claims.due s i) : Claims.due t i := by
  obtain ⟨e, he, hd, hitem⟩ := hi
  exact ⟨e, h.events he, hd.trans h.clk.symm, hitem⟩

/-! ## A new TICK value (R250, R437) -/

theorem linkTargets (h : s.Books t) : s.Books t.linkTargets := h.foldl fun h => h.after.ite h

theorem tickTargets (h : s.Books t) : s.Books t.tickTargets := by
  unfold State.tickTargets
  extract_lets s1 s2
  have h1 : s.Books s1 := h.foldl fun h => h.foldl fun h => h.at'.ite h
  have h2 : s.Books s2 := h1.foldl fun h => h.foldl fun h => h.at'.ite h
  refine h2.linkTargets.foldl fun h => h.foldl fun h => ?_
  split
  · exact h.at'.ite h
  · exact h

theorem queueBeat {p cls dest body} (h : s.Books t) : s.Books (t.queueBeat p cls dest body) := by
  unfold State.queueBeat State.updLink
  exact h.updPkg fun _ => rfl

theorem tickMarks (h : s.Books t) : s.Books t.tickMarks := by
  unfold State.tickMarks
  extract_lets n s1 s2 s3 s4
  have h1 : s.Books s1 := (h.foldl fun h => h.at').ite h
  have h2 : s.Books s2 := h1.at'.at'.ite h1
  have h3 : s.Books s3 := h2.foldl fun h => h.at'.ite h
  have h4 : s.Books s4 := by
    unfold s4
    split
    · split
      · exact (h3.updPkg fun _ => by rfl).at'
      · exact h3
    · exact h3
  exact (h4.foldl fun h => h.queueBeat.ite h).ite h4

theorem linkSlots (h : s.Books t) : s.Books t.linkSlots := by
  unfold State.linkSlots
  exact h.updPkg fun _ => rfl

/-! ## The dynamic plane's slots (R270) -/

theorem updSlice {k f} (h : s.Books t) : s.Books (t.updSlice k f) := h.updPkg fun _ => by rfl

/-- A write-through that reaches the stacks is acknowledged later: its own record changes, and what is due. -/
theorem throughReaches {id} (h : s.Books t) : s.Books (t.throughReaches id) := by
  unfold State.throughReaches
  split
  · exact h
  · exact State.Books.at' ⟨h.clk, h.tick, h.stepBy, h.cores, h.mem, h.barrels, h.plates, h.events⟩

theorem grantJob {j} (h : s.Books t) : s.Books (t.grantJob j) := by
  cases j with
  | fill k l => exact h.after
  | back k l => exact h.updSlice.after
  | through id l => exact h.throughReaches

end State.Books

/-! ## The clock and the counter (R26, R249, R251) -/

/-- A released package's period: TICK rises by the step in force, the next step is one, and what the new value makes due is bookkeeping. -/
theorem execTickIncrement_released (h : s.mgmt.released = true) :
    ∃ t, execTickIncrement s = .next t ∧
      State.Books { s with clk := s.clk + 1, tick := s.tick + word s.stepBy, stepBy := 1 } t := by
  refine ⟨_, by simp only [execTickIncrement, h]; rfl, ?_⟩
  exact ((State.Books.refl _).ite (State.Books.refl _).tickMarks.linkSlots).tickTargets

theorem execTickIncrement_held (h : s.mgmt.released = false) : execTickIncrement s = .next { s with clk := s.clk + 1 } := by
  simp [execTickIncrement, h]

/-- What a posted message leaves of a state: its cores, its memory, and what the package holds of its neighbours' counters. -/
structure State.SameCounter (s t : State) : Prop where
  cores : t.cores = s.cores
  mem   : t.mem = s.mem
  slew  : t.pkg.slew = s.pkg.slew
  skew  : t.pkg.skew = s.pkg.skew

theorem State.SameCounter.refl (s : State) : s.SameCounter s := ⟨rfl, rfl, rfl, rfl⟩

theorem State.SameCounter.postMessage {plate m} (h : s.SameCounter t) : s.SameCounter (t.postMessage plate m) := by
  unfold State.postMessage
  split
  · exact ⟨by simp [State.updPlate, h.cores], by simp [State.updPlate, h.mem], by simp [State.updPlate, State.updPkg, h.slew],
      by simp [State.updPlate, State.updPkg, h.skew]⟩
  · exact ⟨h.cores, h.mem, h.slew, h.skew⟩

/-- A neighbour's counter sets the slew's direction and the skew error; a difference above two also posts messages. -/
theorem execCounterExchange_next (x : BitVec 64) (s : State) :
    ∃ t, execCounterExchange x s = .next t ∧ State.SameCounter (s.updPkg fun k =>
      { k with slew := if x.toInt == 0 then none else some (decide (0 < x.toInt)), skew := k.skew || decide (2 < x.toInt.natAbs) }) t := by
  refine ⟨_, rfl, ?_⟩
  by_cases hx : 2 < x.toInt.natAbs
  · rw [if_pos hx]
    exact List.foldlRecOn _ _ (State.SameCounter.refl _) fun _ h _ _ => h.postMessage
  · rw [if_neg hx]
    exact State.SameCounter.refl _

/-! ## HBM slots (R269, R270) -/

theorem State.plate_updPlate {p : Nat} (hp : p < 4) (f : Plate → Plate) : (s.updPlate p f).plate p = f (s.plate p) := by
  simp [State.plate, State.updPlate, State.updPkg, hp]

/-- After each of a list's members has been made due in this period, each is due. -/
theorem due_foldl_after {α : Type} (l : List α) (phase : Nat) (key : α → Nat) (item : α → Item) :
    s.Books (l.foldl (fun s b => s.after 0 phase (key b) (item b)) s) ∧
      ∀ b ∈ l, Claims.due (l.foldl (fun s b => s.after 0 phase (key b) (item b)) s) (item b) := by
  induction l generalizing s with
  | nil => exact ⟨.refl s, fun _ h => absurd h List.not_mem_nil⟩
  | cons b l ih =>
    obtain ⟨hk, hd⟩ := ih (s := s.after 0 phase (key b) (item b))
    have hb : Claims.due (s.after 0 phase (key b) (item b)) (item b) :=
      ⟨_, (s.mem_after 0 phase (key b) (item b) _).mpr (.inl rfl), by simp, rfl⟩
    refine ⟨?_, List.forall_mem_cons.mpr ⟨hk.due hb, hd⟩⟩
    exact (State.Books.refl s).foldl .after

/-- The dynamic plane's slots take the jobs they serve off their plate's list; all else they do is bookkeeping. -/
theorem State.dynamicSlots_books (s : State) (plate : Nat) (free : Nat → Bool) :
    State.Books (s.updPlate plate fun p => { p with dyn := p.dyn.filter fun j => !(servedJobs free (s.plate plate).dyn).contains j })
      (s.dynamicSlots plate free) :=
  ((State.Books.refl _).foldl .grantJob).foldl fun h => h.after.ite h

/-- A slot is timed where it lies in the first part of its plate's frame. -/
def State.slotTimed (s : State) (plate : Nat) : Bool :=
  decide (s.tick.toNat / 64 % ((s.plate plate).frame.1 + (s.plate plate).frame.2) < (s.plate plate).frame.1)

/-- The bursts that a slot serves: in a timed slot one of each channel, else none. -/
def State.slotBursts (s : State) (plate : Nat) : List (Nat × Nat × Nat) :=
  if s.slotTimed plate then servedBursts (s.plate plate).bursts else []

/-- The channels that a slot leaves to the dynamic plane: every one in a dynamic slot, the lent idle ones in a timed slot. -/
def State.slotLends (s : State) (plate channel : Nat) : Bool :=
  !s.slotTimed plate ||
    ((!(s.plate plate).set || (s.plate plate).lend) && !(s.slotBursts plate).any fun b => channelOf b.1 == channel)

section Slot

variable {plate : Nat}

theorem State.slotBursts_timed (h : s.slotTimed plate = true) : s.slotBursts plate = servedBursts (s.plate plate).bursts := by
  simp [State.slotBursts, h]

theorem State.slotBursts_dynamic (h : s.slotTimed plate = false) : s.slotBursts plate = [] := by simp [State.slotBursts, h]

theorem State.slotLends_timed (h : s.slotTimed plate = true) (hset : (s.plate plate).set = true)
    (hlend : (s.plate plate).lend = false) : s.slotLends plate = fun _ => false := by
  funext c
  simp [State.slotLends, h, hset, hlend]

theorem State.slotLends_dynamic (h : s.slotTimed plate = false) : s.slotLends plate = fun _ => true := by
  funext c
  simp [State.slotLends, h]

end Slot

/-- A slot that lends no channel serves no job. -/
theorem servedJobs_none (js : List HbmJob) : servedJobs (fun _ => false) js = [] := by
  simp [servedJobs]

/-- A slot of stacks that are not in reset: the bursts served are due and leave the plate, as do the jobs served on the channels left to
the dynamic plane; cores and memory stay. -/
theorem execHbmSlot_next {plate : Nat} (hp : plate < 4) (hr : s.resetting plate = false) :
    ∃ t, execHbmSlot plate s = .next t ∧ t.cores = s.cores ∧ t.mem = s.mem ∧
      (∀ b ∈ s.slotBursts plate, Claims.due t (.op (.taggedCopyLine b.2.1 b.2.2))) ∧
      t.plate plate = { s.plate plate with
        bursts := (s.plate plate).bursts.filter fun b => !(s.slotBursts plate).contains b
        dyn := (s.plate plate).dyn.filter fun j => !(servedJobs (s.slotLends plate) (s.plate plate).dyn).contains j } := by
  let s1 := s.updPlate plate fun p => { p with bursts := p.bursts.filter fun b => !(s.slotBursts plate).contains b }
  let s2 := (s.slotBursts plate).foldl (fun s b => s.after 0 phNet b.2.1 (.op (.taggedCopyLine b.2.1 b.2.2))) s1
  obtain ⟨h12, hdue⟩ := due_foldl_after (s := s1) (s.slotBursts plate) phNet (·.2.1) fun b => .op (.taggedCopyLine b.2.1 b.2.2)
  have h2t := s2.dynamicSlots_books plate (s.slotLends plate)
  refine ⟨s2.dynamicSlots plate (s.slotLends plate), by simp only [execHbmSlot, hr]; rfl, ?_, ?_, ?_, ?_⟩
  · exact h2t.cores.trans h12.cores
  · exact h2t.mem.trans h12.mem
  · exact fun b hb => h2t.due (hdue b hb)
  · rw [h2t.plate, State.plate_updPlate hp, h12.plate, State.plate_updPlate hp]

/-! ## The obligation -/

/-- Settles O43: each clause reads off what the step of its event does; a timed slot of a plate that does not lend leaves no channel to the
dynamic plane, and a dynamic slot leaves every channel. -/
theorem counterEventsComplete : Obligations.CounterEventsComplete := by
  unfold Obligations.CounterEventsComplete
  refine ⟨fun s hrel => ?_, fun s hheld => execTickIncrement_held hheld, fun advance s => ?_, fun x s => ?_, fun plate s => ?_⟩
  · obtain ⟨t, ht, hb⟩ := execTickIncrement_released hrel
    exact ⟨t, ht, hb.clk, hb.tick, hb.stepBy, hb.cores, hb.mem, hb.barrels⟩
  · simp [exec, execSlewStep]
  · obtain ⟨t, ht, hc⟩ := execCounterExchange_next x s
    refine ⟨t, ht, hc.cores, hc.mem, ?_, hc.skew⟩
    have hx : x.toInt = 0 ↔ x = 0 := by simp [← BitVec.toInt_inj]
    simp only [hc.slew, State.updPkg, beq_iff_eq, hx]
  · refine ⟨fun hr => by simp [exec, execHbmSlot, hr], fun hp hr => ?_⟩
    obtain ⟨t, ht, hcores, hmem, hdue, hplate⟩ := execHbmSlot_next hp hr
    refine ⟨t, ht, hcores, hmem, fun htimed => ?_, fun hdyn => ?_⟩
    · have hslot : s.slotTimed plate = true := decide_eq_true htimed
      rw [State.slotBursts_timed hslot] at hdue hplate
      refine ⟨fun b hb => ⟨hdue b hb, by simp [hplate, hb]⟩, fun hset hlend => ?_⟩
      simp [hplate, State.slotLends_timed hslot hset hlend, servedJobs_none]
    · have hslot : s.slotTimed plate = false := decide_eq_false (Nat.not_lt.mpr hdyn)
      rw [State.slotBursts_dynamic hslot, State.slotLends_dynamic hslot] at hplate
      exact ⟨by simp [hplate], fun j hj => by simp [hplate, hj]⟩

end Sys2Proof.Machine

/-! SUPPORT. The scalar slot: what its instructions put in flight, and what its counts and copies compute (05_sequencer R132, R133). -/

namespace Sys2Proof.Machine

open Sys2Proof

/-! ## Instructions that issue -/

theorem State.when_on {s : State} {g : Gate} (h : s.issues g = true) (k : State → Result) : s.when g k = k s := by
  simp [State.when, h]

theorem State.scalar_on {s : State} {g : Gate} (h : s.issues g = true) (offset : Nat) (land : Core → Landing) :
    s.scalar g offset land = .next (s.fly offset [land s.cur]) := State.when_on h _

/-- An instruction of the classed form completes with its operation. -/
theorem sums_of_classed {i : Gate → FormA → Instr} {op : Word → Word → Word} (hi : ∀ g f s, exec (i g f) s = s.classed g f op) :
    Claims.sums i op := fun g f s h => (hi g f s).trans (State.scalar_on h _ _)

/-- An instruction over two s registers completes with its operation. -/
theorem binary_of_binary {i : Gate → FormA → Instr} {offset : Nat} {op : Word → Word → Word}
    (hi : ∀ g f s, exec (i g f) s = s.binary g f offset op) : Claims.binary i offset op :=
  fun g f s h => (hi g f s).trans (State.scalar_on h _ _)

/-! ## Counts -/

/-- A word that is not zero has its highest one at its logarithm, below which its leading zeros end. -/
theorem leadingZeros_spec (a : Word) : ∃ n : Nat, n ≤ 64 ∧ leadingZeros a = BitVec.ofNat 64 n ∧
    (∀ j, 64 - n ≤ j → a.getLsbD j = false) ∧ (n < 64 → a.getLsbD (63 - n) = true) := by
  by_cases ha : a = 0
  · exact ⟨64, by simp [leadingZeros, ha]⟩
  · have hne : a.toNat ≠ 0 := by simpa [← BitVec.toNat_inj] using ha
    have hlog : a.toNat.log2 < 64 := (Nat.log2_lt hne).mpr a.isLt
    refine ⟨63 - a.toNat.log2, by omega, by rw [leadingZeros, if_neg (by simpa using ha), word], fun j hj => ?_, fun _ => ?_⟩
    · exact Nat.testBit_lt_two_pow (Nat.lt_log2_self.trans_le (Nat.pow_le_pow_right Nat.two_pos (by omega)))
    · rw [show 63 - (63 - a.toNat.log2) = a.toNat.log2 by omega]
      exact Nat.testBit_log2 hne

/-- The ones counted among the lowest bits of a number are the bits that are set. -/
theorem onesIn_eq_length_filter (n x : Nat) : onesIn n x = ((List.range n).filter x.testBit).length := by
  induction n generalizing x with
  | zero => rfl
  | succ n ih =>
    have htail : (fun i => x.testBit (i + 1)) = (x / 2).testBit := by funext i; rw [Nat.testBit_succ]
    rw [onesIn, ih, List.range_succ_eq_map, List.filter_cons, List.filter_map, Function.comp_def, htail, Nat.testBit_zero]
    rcases Nat.mod_two_eq_zero_or_one x with h | h <;> simp [h, Nat.add_comm]

theorem popCount_eq (a : Word) : popCount a = BitVec.ofNat 64 ((List.range 64).filter fun j => a.getLsbD j).length := by
  rw [popCount, onesIn_eq_length_filter]
  rfl

/-! ## Copies of a word -/

/-- A digit repeated: each digit of the number it makes is that digit. -/
theorem mul_repunit_digit {b v n j : Nat} (hb : 2 ≤ b) (hv : v < b) (hj : j < n) : v * ((b ^ n - 1) / (b - 1)) / b ^ j % b = v := by
  rw [← Nat.geomSum_eq hb]
  induction n generalizing j with
  | zero => omega
  | succ n ih =>
    rw [geom_sum_succ, Nat.mul_add, Nat.mul_one, Nat.mul_left_comm]
    cases j with
    | zero => rw [Nat.pow_zero, Nat.div_one, Nat.mul_add_mod, Nat.mod_eq_of_lt hv]
    | succ j => rw [Nat.pow_succ', ← Nat.div_div_eq_div_mul, Nat.mul_add_div (by omega), Nat.div_eq_of_lt hv, Nat.add_zero, ih (by omega)]

/-- Every 64-bit lane of the copies of a word is that word. -/
theorem extractLsb'_repeat64 (v : Word) {j : Nat} (hj : j < 32) : (repeat64 v).extractLsb' (64 * j) 64 = v := by
  apply BitVec.eq_of_toNat_eq
  have hones : (2 ^ 64) ^ 32 = 2 ^ 2048 := (Nat.pow_mul 2 64 32).symm
  have hdigit := mul_repunit_digit (b := 2 ^ 64) (n := 32) (by norm_num) v.isLt hj
  rw [hones, ← Nat.pow_mul] at hdigit
  rw [BitVec.extractLsb'_toNat, Nat.shiftRight_eq_div_pow, repeat64, BitVec.toNat_ofNat, div_mod_trunc _ _ _ _ (by omega), hdigit]

/-! ## Obligations -/

/-- The sums, logic and shifts: all are of the classed form, ADDI apart. -/
theorem scalarSums_hold : Claims.scalarSums := by
  refine ⟨sums_of_classed fun _ _ _ => rfl, sums_of_classed fun _ _ _ => rfl, sums_of_classed fun _ _ _ => rfl,
    sums_of_classed fun _ _ _ => rfl, sums_of_classed fun _ _ _ => rfl, sums_of_classed fun _ _ _ => rfl,
    sums_of_classed fun _ _ _ => rfl, sums_of_classed fun _ _ _ => rfl, fun g f s h => ?_⟩
  show execAddi g f s = _
  rw [execAddi, State.scalar_on h]

/-- The products, extremes, counts and constants: the first two over two s registers, the counts by what they count. -/
theorem scalarProducts_hold : Claims.scalarProducts := by
  refine ⟨binary_of_binary fun g f s => ?_, binary_of_binary fun _ _ _ => rfl, binary_of_binary fun _ _ _ => rfl,
    binary_of_binary fun _ _ _ => rfl, binary_of_binary fun _ _ _ => rfl, binary_of_binary fun _ _ _ => rfl,
    binary_of_binary fun _ _ _ => rfl, fun g f s h => ?_, fun g f s h => ?_,
    fun g f s h => ⟨?_, ?_⟩⟩
  · simp only [BitVec.ofInt_mul, BitVec.ofInt_toInt]
    rfl
  · obtain ⟨n, hn, heq, hzeros, hone⟩ := leadingZeros_spec (s.cur.s' f.a.toNat)
    refine ⟨n, hn, ?_, hzeros, hone⟩
    show execClz g f s = _
    rw [execClz, State.scalar_on h, heq]
  · show execPopc g f s = _
    rw [execPopc, State.scalar_on h, popCount_eq]
  · show execLi g f s = _
    rw [execLi, State.scalar_on h]
  · show execLih g f s = _
    rw [execLih, State.scalar_on h]

/-- Settles O1: the classed form, the form over two s registers, and the counts. -/
theorem scalarArithmeticComplete : Obligations.ScalarArithmeticComplete := ⟨scalarSums_hold, scalarProducts_hold⟩

/-- A division whose divisor is not zero completes. -/
theorem State.divide_on {s : State} {g : Gate} {f : FormA} (h : s.issues g = true) (hb : s.cur.s' f.b.toNat ≠ 0)
    (op : Word → Word → Word) :
    s.divide g f op = .next (s.fly 18 [.s f.d.toNat (op (s.cur.s' f.a.toNat) (s.cur.s' f.b.toNat))]) := by
  rw [State.divide, State.when_on h, if_neg (by simpa using hb)]

/-- A division by zero traps at issue. -/
theorem State.divide_zero {s : State} {g : Gate} {f : FormA} (h : s.issues g = true) (hb : s.cur.s' f.b.toNat = 0)
    (op : Word → Word → Word) : s.divide g f op = s.issueTrap 16 0 (s.cur.s' f.a.toNat) := by
  rw [State.divide, State.when_on h, if_pos (by simpa using hb)]

/-- Settles O2: the four divisions share their trap and their offset. -/
theorem scalarDivisionsComplete : Obligations.ScalarDivisionsComplete := by
  refine ⟨⟨fun _ _ _ h hb => State.divide_on h hb _, fun _ _ _ h hb => State.divide_on h hb _,
    fun _ _ _ h hb => State.divide_on h hb _, fun _ _ _ h hb => State.divide_on h hb _⟩, fun i hi g f s h hb => ?_⟩
  simp only [List.mem_cons, List.not_mem_nil, or_false] at hi
  rcases hi with rfl | rfl | rfl | rfl <;> exact State.divide_zero h hb _

/-! ## Selections and crossings -/

/-- R133: MTC of FMODE with a legal rounding mode, or of another register, does not trap. -/
theorem mtcFault_eq_false {c : Core} {f : FormA}
    (h : f.func.toNat = 0x21 → ((c.s' f.a.toNat).extractLsb' 24 3).toNat ≤ 4) : mtcFault c f = false := by
  rw [mtcFault, Bool.and_eq_false_iff, beq_eq_false_iff_ne, decide_eq_false_iff_not, Nat.not_lt]
  by_cases hf : f.func = 0x21
  · exact .inr (h (by rw [hf]; rfl))
  · exact .inl hf

/-- Settles O3: each lands what its definition names; XIN's copies and the conditions of CMP by what they compute. -/
theorem scalarSelectionsComplete : Obligations.ScalarSelectionsComplete := by
  refine ⟨fun g f s h => ?_, fun g f s h => ?_, fun g f s h => ?_, fun g f s h => ?_, fun g f s h hm => ?_, fun a d s => ?_,
    fun a lane d s => ?_⟩
  · show execSel g f s = _
    rw [execSel, State.scalar_on h]
  · show execCmp g f s = _
    rw [execCmp, State.scalar_on h]
    refine congrArg (fun r => Host.Outcome.next (s.fly 1 [.p f.d.toNat r])) ?_
    generalize f.func.toNat % 8 = cc
    rcases cc with _ | _ | _ | _ | _ | _ | cc <;> simp [compare, Bool.beq_eq_decide_eq, bne]
  · show execPlog g f s = _
    rw [execPlog, State.scalar_on h]
    cases s.cur.p' f.a.toNat <;> cases s.cur.p' f.b.toNat <;> rfl
  · show execMfc g f s = _
    rw [execMfc, State.when_on h]
  · show execMtc g f s = _
    rw [execMtc, State.when_on h, mtcFault_eq_false hm]
    rfl
  · show ∃ l, execXin a d s = _ ∧ _
    by_cases hd : d.toNat < 56
    · simp only [execXin, hd, if_true]
      exact ⟨_, rfl, _, rfl, fun j hj => extractLsb'_repeat64 _ hj⟩
    · simp only [execXin, hd, if_false, show 8 + (d.toNat - 56) = d.toNat - 48 by omega]
      exact ⟨_, rfl, rfl⟩
  · show execXout a lane d s = _
    by_cases ha : a.toNat < 56
    · simp only [execXout, ha, if_true]
    · simp only [execXout, ha, if_false, show 8 + (a.toNat - 56) = a.toNat - 48 by omega]

end Sys2Proof.Machine

/-! SUPPORT. The control instructions and the loop stack, TRAP and RTT (05_sequencer R125 to R130, R134 to R137, R145). -/

namespace Sys2Proof.Machine

open Sys2Proof

/-! ## Issue-time faults outside a handler -/

section Faults

variable {s : State} {g : Gate} {f : FormA}

theorem State.controlFault_call {f : FormD} (hi : s.cur.ctl.inh = false) (hr : s.cur.seq.rstack.length < 8) :
    s.controlFault (.call g f) = none := by simp [State.controlFault, hi, hr]

theorem State.controlFault_ret {a : BitVec 64} {t : List (BitVec 64)} (hi : s.cur.ctl.inh = false) (hr : s.cur.seq.rstack = a :: t) :
    s.controlFault (.ret g f) = none := by simp [State.controlFault, hi, hr]

theorem State.controlFault_loop (hi : s.cur.ctl.inh = false) (hl : s.cur.seq.loops.length < 6)
    (hn : ∀ l t, s.cur.seq.loops = l :: t → (loopEnd s.curT.pc f).toNat ≤ l.last.toNat) : s.controlFault (.loop g f) = none := by
  simp only [State.controlFault, hi, if_neg (Nat.not_le.mpr hl)]
  cases hs : s.cur.seq.loops with
  | nil => rfl
  | cons l t => simp [hn l t hs]

theorem State.controlFault_lbrk {l : LoopLevel} {t : List LoopLevel} (hi : s.cur.ctl.inh = false) (hl : s.cur.seq.loops = l :: t) :
    s.controlFault (.lbrk g f) = none := by simp [State.controlFault, hi, hl]

theorem State.controlFault_lstr (hi : s.cur.ctl.inh = false) (hp : s.cur.seq.pending.length < 4) :
    s.controlFault (.lstr g f) = none := by simp [State.controlFault, hi, hp]

theorem State.controlFault_rtt : s.controlFault (.rtt g f) = if s.cur.ctl.inh then none else some (10, 0, 0) := rfl

end Faults

/-! ## Ends of iterations (R129) -/

/-- Where the head of the stack does not end, no iteration ends. -/
theorem endIterations_of_head_ne {e : BitVec 64} {ls : List LoopLevel} (h : ls.head?.all (fun l => l.last ≠ e) = true) :
    endIterations e ls = { loops := ls, next := none, strides := [], least := none } := by
  cases ls with
  | nil => rfl
  | cons l t => simp_all [endIterations]

/-- A level that ends with iterations left goes on to its next one. -/
theorem endIterations_of_left {e : BitVec 64} {l : LoopLevel} {t : List LoopLevel} (hl : l.last = e) (hn : 1 < l.left.toNat) :
    endIterations e (l :: t) =
      { loops := { l with left := l.left - 1, index := l.index + 1 } :: t, next := some l.start, strides := l.strides,
        least := some (t.length + 1) } := by
  simp [endIterations, hl, hn]

/-- Levels that end with no iteration left go; what remains ends as it ends alone, and where it does not end the program goes on behind. -/
theorem endIterations_append {e : BitVec 64} {ps : List LoopLevel} (rest : List LoopLevel)
    (hps : ∀ x ∈ ps, x.last = e ∧ x.left.toNat ≤ 1) :
    endIterations e (ps ++ rest) =
      let r := endIterations e rest
      { loops := r.loops,
        strides := (ps.flatMap fun x => x.strides) ++ r.strides,
        next := if ps = [] then r.next else some (r.next.getD (e + 64)),
        least := if ps = [] then r.least else some (r.least.getD (rest.length + 1)) } := by
  induction ps with
  | nil => rfl
  | cons x ps ih =>
    obtain ⟨⟨hlast, hleft⟩, hps⟩ := List.forall_mem_cons.mp hps
    rw [List.cons_append, endIterations, ih hps]
    cases ps <;> simp [hlast, Nat.not_lt.mpr hleft]

/-- What LBRK leaves depends on the end of iterations only by its levels, strides, target and least depth. -/
theorem breaks_eq (s : State) (l : LoopLevel) (r : LoopEnd) :
    (let s1 := (s.applyLoopEnd s.curT.cell r).transfer (r.next.getD (l.last + 64))
     if decide ((r.least.getD 7) ≤ s.cur.ctl.plevel) then s1.updCurSeq fun q => { q with after := some .boundary } else s1) =
      Claims.breaks s r.loops r.strides (r.next.getD (l.last + 64)) (r.least.getD 7) := by
  simp only [Claims.breaks, State.applyLoopEnd, List.isEmpty_iff, decide_eq_true_eq]
  rfl

/-- R128: the last bundle of a body, in bytes. -/
theorem loopEnd_eq (pc : BitVec 64) (f : FormA) : loopEnd pc f = pc + BitVec.ofNat 64 (64 * (f.func.toNat + 1)) := by
  rw [loopEnd]
  congr 1
  apply BitVec.eq_of_toNat_eq
  simp [Nat.shiftLeft_eq, Nat.mul_comm 64]

/-- Settles O4: each instruction that issues without a fault leaves what its definition names; LBRK by what the end of a run of levels leaves. -/
theorem controlTransfersComplete : Obligations.ControlTransfersComplete := by
  refine ⟨fun g f s h => ?_, fun g f s h => ?_, fun g f s h hi hr => ?_, fun g f s a t h hi hr => ?_, fun g f s h hi hl hn => ?_,
    fun g f s l ps rest h hi hl hps => ?_, fun g f s h hi hp => ?_, fun g f s h => ?_, fun g f s h => ?_⟩
  · show execBr g f s = _
    rw [execBr, State.guarded_on h, fld, Nat.pow_zero, Nat.div_one]
    rfl
  · show execBrp g f s = _
    rw [execBrp, State.guarded_on h]
    simp only [beq_iff_eq]
  · show execCall g f s = _
    rw [execCall, State.controlFault_call hi hr, State.guarded_on h]
  · show execRet g f s = _
    rw [execRet, State.controlFault_ret hi hr, State.guarded_on h, hr]
  · show execLoop g f s = _
    rw [execLoop, State.controlFault_loop hi hl hn, State.guarded_on h]
    simp only [beq_iff_eq, Claims.level, loopEnd_eq]
  · have hexec : exec (.lbrk g f) s = .next (Claims.breaks s (endIterations l.last (ps ++ rest)).loops
        (endIterations l.last (ps ++ rest)).strides ((endIterations l.last (ps ++ rest)).next.getD (l.last + 64))
        ((endIterations l.last (ps ++ rest)).least.getD 7)) := by
      show execLbrk g f s = _
      rw [execLbrk, State.controlFault_lbrk hi hl, State.guarded_on h, hl, ← breaks_eq]
    rw [hexec, endIterations_append rest hps]
    refine ⟨fun hrest => ?_, fun x t hrest hlast hleft => ?_⟩
    · rw [endIterations_of_head_ne hrest]
      cases ps <;> simp
    · rw [hrest, endIterations_of_left hlast hleft]
      cases ps <;> simp
  · show execLstr g f s = _
    rw [execLstr, State.controlFault_lstr hi hp, State.guarded_on h]
  · show execHalt g f s = _
    rw [execHalt, State.guarded_on h]
  · show execRealign g f s = _
    rw [execRealign, if_pos h]
    rfl

/-- Settles O5: RTT's only fault is to stand outside a handler. -/
theorem trapAndReturnComplete : Obligations.TrapAndReturnComplete := by
  refine ⟨fun g f s h => ?_, fun g f s h hi => ?_, fun g f s h hi => ?_⟩
  · show execTrap g f s = _
    rw [execTrap, State.guarded_on h]
    rfl
  · show execRtt g f s = _
    rw [execRtt, State.controlFault_rtt, hi, if_pos rfl, State.guarded_on h, BitVec.setWidth_eq]
  · show execRtt g f s = _
    rw [execRtt, State.controlFault_rtt, hi, if_neg Bool.false_ne_true, State.guarded_trap h]
    rfl

end Sys2Proof.Machine

/-! SUPPORT. Loads, stores and posted remote stores: what they touch, their faults, what they put in flight, and what becomes of a remote
store (04_ordering R97, R101 to R103; 05_sequencer R139 to R141). -/

namespace Sys2Proof.Machine

open Sys2Proof

/-! ## The lines that an instruction touches -/

/-- Lines of one length at some addresses, in order. -/
def linesAt (len : Nat) (addresses : List Nat) : List AccessLine :=
  addresses.zipIdx.map fun x => { address := x.1, len, lane := x.2 }

/-- The instructions of the load and store slots. -/
def memoryForms : List (Gate → FormC → Instr) :=
  [Instr.lds, .ldv, .ldvs, .ldvx, .ldvb, .ldk, .sts, .stv, .stvm, .stvx, .stk, .strs, .strv]

/-- The bytes of a line. -/
def lineBytes (i : Instr) (f : FormC) : Nat :=
  match i with
  | .ldk .. | .stk .. => 32
  | .lds .. | .ldvb .. | .sts .. | .strs .. => typeBytes f.type.toNat
  | _ => 64

/-- An instruction of the load and store slots touches lines at the addresses of R139 to R141, each of its own length and aligned to it. -/
theorem touched_eq {i : Gate → FormC → Instr} (hi : i ∈ memoryForms) (c : Core) (g : Gate) (f : FormC) :
    c.touched (i g f) = some (f, g, linesAt (lineBytes (i g f) f) (Claims.addresses c (i g f)), lineBytes (i g f) f) := by
  simp only [memoryForms, List.mem_cons, List.not_mem_nil, or_false] at hi
  rcases hi with rfl | rfl | rfl | rfl | rfl | rfl | rfl | rfl | rfl | rfl | rfl | rfl | rfl
  all_goals rfl

/-- Each of them runs through `State.memory`. -/
theorem exec_memory {i : Gate → FormC → Instr} (hi : i ∈ memoryForms) (g : Gate) (f : FormC) (s : State) :
    ∃ k, exec (i g f) s = s.memory g (i g f) k := by
  simp only [memoryForms, List.mem_cons, List.not_mem_nil, or_false] at hi
  rcases hi with rfl | rfl | rfl | rfl | rfl | rfl | rfl | rfl | rfl | rfl | rfl | rfl | rfl
  all_goals
    dsimp only [exec, execLds, execLdv, execLdvs, execLdvx, execLdvb, execLdk, execSts, execStv, execStvm, execStvx, execStk,
      execStrs, execStrv, State.loadOp, State.storeOp, State.remoteOp]
    exact ⟨_, rfl⟩

/-! ## Faults at issue -/

/-- An instruction of the slots with no fault runs its effect on the lines that it touches. -/
theorem State.memory_on {s : State} {g : Gate} {i : Instr} {t : FormC × Gate × List AccessLine × Nat} (h : s.issues g = true)
    (hf : s.memFault i = none) (ht : s.cur.touched i = some t) (k : State → Core → List AccessLine → State) :
    s.memory g i k = .next (k s s.cur t.2.2.1) := by
  rw [State.memory, State.when_on h, hf, ht]

/-- An instruction of the slots takes its fault; a refused class is no part of a fault with another cause. -/
theorem State.memory_trap {s : State} {g : Gate} {i : Instr} {x : SlotFault} (h : s.issues g = true) (hf : s.memFault i = some x)
    (hx : x.1 ≠ 56) (k : State → Core → List AccessLine → State) : s.memory g i k = s.issueTrap x.1 x.2.1 x.2.2 := by
  simp only [State.memory, State.when_on h, hf, beq_eq_false_iff_ne.mpr hx, Bool.false_eq_true, if_false]

/-- A misaligned first line is the fault that counts (R139). -/
theorem State.lineFault_misaligned (s : State) (cell space : Nat) {align : Nat} {l : AccessLine} (ls : List AccessLine)
    (h : l.address % align ≠ 0) : s.lineFault cell space align (l :: ls) = some (50, l.lane, word l.address) := by
  simp [State.lineFault, h]

/-- Settles O11: of R139's checks alignment is the first, and of the lines the first. -/
theorem misalignedAccessesTrap : Obligations.MisalignedAccessesTrap := by
  intro i hi g f s h href hlegal a ha align hmis
  have halign : align = lineBytes (i g f) f := by
    simp only [List.mem_cons, List.not_mem_nil, or_false] at hi
    rcases hi with rfl | rfl | rfl | rfl | rfl | rfl | rfl | rfl | rfl | rfl | rfl | rfl | rfl
    all_goals rfl
  have hfault : s.memFault (i g f) = some (50, 0, word a) := by
    obtain ⟨as, has⟩ := List.head?_eq_some_iff.mp ha
    rw [State.memFault, touched_eq hi, has]
    simp only [href, hlegal]
    exact State.lineFault_misaligned s _ _ _ (halign ▸ hmis)
  obtain ⟨k, hk⟩ := exec_memory hi g f s
  rw [hk, State.memory_trap h hfault (show 50 ≠ 56 by decide)]
  rfl

/-! ## Accesses in flight -/

theorem accessOffsets_eq (cell space a : Nat) : accessOffsets cell space a = Claims.offsets cell space a := by
  unfold accessOffsets Claims.offsets spaceCluster
  rcases space with _ | _ | n <;> simp

theorem map_lines_lineAccesses (s : State) (space : Nat) (kind : Nat → AccessKind) (rank : Nat) (ls : List AccessLine) :
    (lineAccesses s space kind rank ls).map (fun a => a.lines) = ls.map fun l => [l] := by
  induction ls generalizing rank with
  | nil => rfl
  | cons l ls ih => simp [lineAccesses, ih]

/-- Each access in flight is one line's, at the offsets of its distance. -/
theorem mem_lineAccesses {s : State} {space : Nat} {kind : Nat → AccessKind} {rank : Nat} {ls : List AccessLine} {a : Access}
    (ha : a ∈ lineAccesses s space kind rank ls) :
    a.cell = s.curT.cell ∧ a.space = space ∧ a.issued = s.clk ∧ a.pc = s.curT.pc ∧ ∀ l ∈ a.lines,
      a.due = s.clk + (Claims.offsets s.curT.cell space l.address).1 ∧
      a.kind = kind (s.clk + (Claims.offsets s.curT.cell space l.address).2) := by
  induction ls generalizing rank with
  | nil => exact absurd ha List.not_mem_nil
  | cons l ls ih =>
    rcases List.mem_cons.mp ha with rfl | ha
    · simp [accessOffsets_eq]
    · exact ih ha

/-- An instruction of the slots whose effect is its lines' accesses performs as R97 says. -/
theorem performs_of_accessLines {i : Gate → FormC → Instr} {n : Nat} {kind : Core → FormC → Nat → AccessKind} (hi : i ∈ memoryForms)
    (hn : ∀ g f, lineBytes (i g f) f = if n = 0 then typeBytes f.type.toNat else n)
    (hexec : ∀ g f s, exec (i g f) s = s.memory g (i g f) fun s c ls => s.accessLines f.space.toNat (kind c f) ls) :
    Claims.performs i n kind := by
  intro g f s h hf
  obtain ⟨hacc, hcores, hmem, hpkg, hbarrels, htick, -, -⟩ :=
    s.accessLines_spec f.space.toNat (kind s.cur f) (linesAt (lineBytes (i g f) f) (Claims.addresses s.cur (i g f)))
  refine ⟨_, _, (hexec g f s).trans (State.memory_on h hf (touched_eq hi s.cur g f) _),
    ⟨hacc, hcores, hmem, hpkg, hbarrels, htick⟩, ?_, fun a ha => mem_lineAccesses ha⟩
  rw [map_lines_lineAccesses, linesAt, List.map_map, hn]
  rfl

/-- Every load puts its lines in flight. -/
theorem loads_hold : Claims.loads := by
  refine ⟨?_, ?_, ?_, ?_, ?_, ?_⟩
  all_goals exact performs_of_accessLines (by simp [memoryForms]) (fun _ _ => rfl) fun _ _ _ => rfl

/-- Every store puts its lines in flight with the data read at issue. -/
theorem stores_hold : Claims.stores := by
  refine ⟨?_, ?_, ?_, ?_, ?_⟩
  all_goals exact performs_of_accessLines (by simp [memoryForms]) (fun _ _ => rfl) fun _ _ _ => rfl

end Sys2Proof.Machine

/-! SUPPORT. Remote stores: posted, arriving, at their turns and acknowledged (04_ordering R101 to R103; 05_sequencer R141). -/

namespace Sys2Proof.Machine

open Sys2Proof

/-! ## Posting -/

theorem remoteClass_pred_lt (src dst : Nat) : remoteClass src dst - 1 < 3 := by
  unfold remoteClass
  split_ifs <;> decide

/-- A packet sent stands under the next number with what it carries; the cores, the memory and the remote stores stay. -/
theorem State.send_spec (s : State) (src dest cls phase key : Nat) (item : Item) :
    (s.send src dest cls phase key item).mem = s.mem ∧ (s.send src dest cls phase key item).cores = s.cores ∧
      (s.send src dest cls phase key item).remotes = s.remotes ∧
      ∃ p : Packet, (s.send src dest cls phase key item).packets.get? s.nextId = some p ∧ p.dest = dest ∧ p.item = item := by
  obtain ⟨due, es, l, -, h⟩ := s.send_cases src dest cls phase key item
  rw [h]
  exact ⟨rfl, rfl, rfl, _, Table.get?_set_self _ _ _, rfl, rfl⟩

/-- A remote store posted counts in its class, stands under the next number, and travels under the one after it. -/
theorem State.postRemote_spec (s : State) (src a len data : Nat) :
    let t := s.postRemote src (a / 2 ^ 22) (a % 2 ^ 22) len data
    let cls := remoteClass src (a / 2 ^ 22)
    t.mem = s.mem ∧ (t.core src).regs = (s.core src).regs ∧
      (t.core src).clock.counts[cls - 1]?.getD 0 = (s.core src).clock.counts[cls - 1]?.getD 0 + 1 ∧
      t.remotes.get? s.nextId = some (Claims.remote src a len data) ∧
      ∃ p : Packet, t.packets.get? (s.nextId + 1) = some p ∧ p.dest = routerOf (a / 2 ^ 22) ∧ p.item = .op (.remoteStoreArrival s.nextId) := by
  intro t cls
  obtain ⟨hmem, hcores, hremotes, hpacket⟩ := State.send_spec
    (({ s with remotes := s.remotes.set s.nextId (Claims.remote src a len data), nextId := s.nextId + 1 } : State).updClock src
      fun k => { k with counts := k.counts.setIfInBounds (cls - 1) (k.counts[cls - 1]?.getD 0 + 1) })
    (routerOf src) (routerOf (a / 2 ^ 22)) 2 phNet 0 (.op (.remoteStoreArrival s.nextId))
  have hcore : t.core src = { s.core src with clock := { (s.core src).clock with
      counts := (s.core src).clock.counts.setIfInBounds (cls - 1) ((s.core src).clock.counts[cls - 1]?.getD 0 + 1) } } := by
    show t.cores.getD src Core.reset = _
    rw [show t.cores = _ from hcores]
    exact State.core_updCore_self _ _ _
  refine ⟨hmem, by rw [hcore], ?_, ?_, hpacket⟩
  · rw [hcore]
    simp [show cls - 1 < 3 from remoteClass_pred_lt _ _]
  · rw [show t.remotes = _ from hremotes]
    exact Table.get?_set_self _ _ _

/-- A posted remote store with no fault goes to the cell of its first line. -/
theorem State.remoteOp_on {s : State} {g : Gate} {f : FormC} {i : Gate → FormC → Instr} (hi : i ∈ memoryForms)
    (h : s.issues g = true) (hf : s.memFault (i g f) = none) {a : Nat}
    (ha : (Claims.addresses s.cur (i g f)).head? = some a) (len : Nat) (data : Core → Nat) :
    s.remoteOp g (i g f) len data =
      .next (s.postRemote s.curT.cell (a / 2 ^ 22) (a % 2 ^ 22) len (data s.cur % 2 ^ (8 * len))) := by
  obtain ⟨as, has⟩ := List.head?_eq_some_iff.mp ha
  rw [State.remoteOp, State.memory_on h hf (touched_eq hi s.cur g f), has]
  rfl

/-- Both posted stores go to the cell of their first line. -/
theorem remoteStores_hold : Claims.remoteStores := by
  refine ⟨?_, ?_⟩
  · intro g f s h hf a cls
    have hhead : (Claims.addresses s.cur (.strs g f)).head? = some a := rfl
    show ∃ t, execStrs g f s = .next t ∧ _
    rw [execStrs, State.remoteOp_on (i := .strs) (by simp [memoryForms]) h hf hhead]
    exact ⟨_, rfl, State.postRemote_spec ..⟩
  · intro g f s h hf a cls
    have hhead : (Claims.addresses s.cur (.strv g f)).head? = some a :=
      congrArg some (Nat.mod_eq_of_lt (BitVec.isLt (s.cur.a' f.base.toNat + f.offset.signExtend 64)))
    show ∃ t, execStrv g f s = .next t ∧ _
    rw [execStrv, State.remoteOp_on (i := .strv) (by simp [memoryForms]) h hf hhead]
    exact ⟨_, rfl, State.postRemote_spec ..⟩

/-! ## Tables with a premise about one key -/

theorem Table.mem_set {α : Type} {t : Table α} {k : Nat} {v : α} {x : Nat × α} (h : x ∈ t.set k v) : x = (k, v) ∨ x ∈ t := by
  induction t with
  | nil => exact .inl (List.mem_singleton.mp h)
  | cons c t ih =>
    rw [Table.set] at h
    split_ifs at h
    · rcases List.mem_cons.mp h with rfl | h
      · exact .inr List.mem_cons_self
      · exact (ih h).imp_right (List.mem_cons_of_mem _)
    · exact (List.mem_cons.mp h).imp_right (List.mem_cons_of_mem _)
    · exact List.mem_cons.mp h

/-- A search that only entries of one key can end finds the entry that the table reads there. -/
theorem Table.find?_eq_of_get? {α : Type} {t : Table α} {k : Nat} {v : α} {p : Nat × α → Bool} (hget : t.get? k = some v)
    (hp : p (k, v) = true) (honly : ∀ x ∈ t, p x = true → x.1 = k) : t.find? p = some (k, v) := by
  induction t with
  | nil => cases hget
  | cons c t ih =>
    obtain ⟨hc, ht⟩ := List.forall_mem_cons.mp honly
    rw [Table.get?] at hget
    split_ifs at hget with hk
    · have hck : c = (k, v) := Prod.ext (beq_iff_eq.mp hk) (Option.some.inj hget)
      rw [hck, List.find?_cons_of_pos hp]
    · have hnp : ¬p c = true := fun hpc => hk (beq_iff_eq.mpr (hc hpc))
      rw [List.find?_cons_of_neg hnp, ih hget ht]

/-! ## Side ports -/

/-- A line that waits at a port changes the ports and what is due. -/
theorem State.queueJob_cases (s : State) (store bank : Nat) (j : PortJob) :
    ∃ es : List Event, s.queueJob store bank j =
      { s.updPort store bank (fun p => { p with lines := p.lines ++ [j] }) with events := es } := by
  unfold State.queueJob State.wakePort State.at'
  simp only
  split
  · exact ⟨_, rfl⟩
  · exact ⟨_, rfl⟩

/-- The lines at a port after a line has come to one. -/
theorem State.sidePort_queueJob (s : State) (store bank : Nat) (j : PortJob) (c b : Nat) :
    ((s.queueJob store bank j).sidePort c b).lines =
      if c * 32 + b = store * 32 + bank then (s.sidePort c b).lines ++ [j] else (s.sidePort c b).lines := by
  obtain ⟨es, h⟩ := s.queueJob_cases store bank j
  rw [h]
  simp only [State.sidePort, State.updPort, State.updPkg]
  split_ifs with hk
  · rw [hk, Table.getD_set_self]
  · rw [Table.getD_set_ne _ _ _ _ _ hk]

/-- The lines of a remote store at their ports: the ports and what is due change, nothing waits less, and every line waits. -/
theorem State.queueJobs_spec (s : State) (store : Nat) (bank : Nat → Nat) (job : Nat → PortJob) (js : List Nat) :
    let t := js.foldl (fun s j => s.queueJob store (bank j) (job j)) s
    (∃ ports es, t = { s with pkg := { s.pkg with ports }, events := es }) ∧
      (∀ c b, (s.sidePort c b).lines ⊆ (t.sidePort c b).lines) ∧ ∀ j ∈ js, job j ∈ (t.sidePort store (bank j)).lines := by
  induction js generalizing s with
  | nil => exact ⟨⟨s.pkg.ports, s.events, rfl⟩, fun _ _ => List.Subset.refl _, fun _ h => absurd h List.not_mem_nil⟩
  | cons j js ih =>
    obtain ⟨⟨ports, es, heq⟩, hkeep, hjs⟩ := ih (s.queueJob store (bank j) (job j))
    obtain ⟨es', hq⟩ := s.queueJob_cases store (bank j) (job j)
    refine ⟨⟨ports, es, ?_⟩, fun c b => ?_, List.forall_mem_cons.mpr ⟨hkeep _ _ ?_, hjs⟩⟩
    · rw [List.foldl_cons, heq, hq]
      rfl
    · refine List.Subset.trans ?_ (hkeep c b)
      rw [State.sidePort_queueJob]
      split_ifs
      · exact List.subset_append_left _ _
      · exact List.Subset.refl _
    · rw [State.sidePort_queueJob, if_pos rfl]
      exact List.mem_append_right _ (List.mem_singleton.mpr rfl)

/-! ## Arrivals and turns -/

/-- What lets a remote store to its ports changes the remote stores, the ports and what is due, and no store that has been let before. -/
theorem State.remoteGo_cases (s : State) (source cell : Nat) :
    ∃ (rs : Table RemoteStore) (ports : Table SidePort) (es : List Event),
      s.remoteGo source cell = { s with remotes := rs, pkg := { s.pkg with ports }, events := es } ∧
      ∀ k, (∀ x ∈ s.remotes, x.1 = k → x.2.queued = true) → rs.get? k = s.remotes.get? k := by
  unfold State.remoteGo
  split
  · rename_i id r hfind
    split_ifs with hgo
    · obtain ⟨⟨ports, es, heq⟩, -, -⟩ := State.queueJobs_spec { s with remotes := s.remotes.set id { r with queued := true } } cell
        (fun j => bankOf (r.offset + 64 * j)) (fun j => .remote id j) r.left
      refine ⟨_, ports, es, heq, fun k hk => Table.get?_set_ne _ _ _ _ ?_⟩
      rintro rfl
      have hqueued : r.queued = true := hk _ (List.mem_of_find?_eq_some hfind) rfl
      simp [hqueued] at hgo
    · exact ⟨s.remotes, s.pkg.ports, s.events, rfl, fun _ _ => rfl⟩
  · exact ⟨s.remotes, s.pkg.ports, s.events, rfl, fun _ _ => rfl⟩

/-- The oldest store of its core and cell, once there, is let to its ports with all its lines. -/
theorem State.remoteGo_arrived {s : State} {request : Nat} {r : RemoteStore} (hget : s.remotes.get? request = some r)
    (harrived : r.arrived = true) (hqueued : r.queued = false) (hleft : r.left ≠ [])
    (honly : ∀ x ∈ s.remotes, x.2.source = r.source → x.2.cell = r.cell → x.1 = request) :
    let t := s.remoteGo r.source r.cell
    t.mem = s.mem ∧ t.cores = s.cores ∧ t.remotes.get? request = some { r with queued := true } ∧
      ∀ j ∈ r.left, .remote request j ∈ (t.sidePort r.cell (bankOf (r.offset + 64 * j))).lines := by
  have hfind : s.remotes.find? (fun x => x.2.source == r.source && x.2.cell == r.cell && !x.2.left.isEmpty) = some (request, r) := by
    refine Table.find?_eq_of_get? hget (by simp [hleft]) fun x hx hp => ?_
    simp only [Bool.and_eq_true, beq_iff_eq] at hp
    exact honly x hx hp.1.1 hp.1.2
  have hgo : s.remoteGo r.source r.cell = r.left.foldl (fun s j => s.queueJob r.cell (bankOf (r.offset + 64 * j)) (.remote request j))
      { s with remotes := s.remotes.set request { r with queued := true } } := by
    simp [State.remoteGo, hfind, harrived, hqueued]
  obtain ⟨⟨ports, es, heq⟩, -, hlines⟩ := State.queueJobs_spec { s with remotes := s.remotes.set request { r with queued := true } }
    r.cell (fun j => bankOf (r.offset + 64 * j)) (fun j => .remote request j) r.left
  rw [← hgo] at heq hlines
  refine ⟨?_, ?_, ?_, hlines⟩
  · rw [heq]
  · rw [heq]
  · rw [heq]
    exact Table.get?_set_self _ _ _

/-- Whether the destination refuses a line at its turn (R103). -/
def State.refusesStoreLine (s : State) (r : RemoteStore) (j : Nat) : Bool :=
  s.turnsAway r.cell || (s.core r.cell).run == .contained || (s.regionHit r.cell (r.offset + 64 * j) (min 64 (r.len - 64 * j))).isSome

/-- A remote store after the turn of one of its lines. -/
def RemoteStore.lessLine (r : RemoteStore) (j : Nat) (no : Bool) : RemoteStore :=
  { r with left := r.left.erase j, turn := none, refused := r.refused || no }

/-- What a line at its turn leaves: stored unless it is refused, and gone from its store. -/
def State.lineServed (s : State) (id : Nat) (r : RemoteStore) (j : Nat) : State :=
  let n := min 64 (r.len - 64 * j)
  let a := coreStoreBase r.cell + (r.offset + 64 * j)
  let s1 := if s.refusesStoreLine r j then s else
    let s0 := if n == 64 then s.cleansed a else s
    { s0 with mem := s0.mem.putNum a n (r.data / 2 ^ (512 * j) % 2 ^ (8 * n)) }
  { s1 with remotes := s1.remotes.set id (r.lessLine j (s.refusesStoreLine r j)) }

/-- After its last line a remote store is acknowledged, and the next one of its core and cell may go. -/
theorem State.remoteLine_eq (s : State) (id : Nat) (r : RemoteStore) (j : Nat) :
    s.remoteLine id r j =
      if (r.left.erase j).isEmpty then
        ((s.lineServed id r j).remoteGo r.source r.cell).send (routerOf r.cell) (routerOf r.source) 1 phNet 0 (.op (.remoteStoreAck id))
      else s.lineServed id r j := rfl

theorem State.lineServed_spec (s : State) (id : Nat) (r : RemoteStore) (j : Nat) :
    let n := min 64 (r.len - 64 * j)
    (s.lineServed id r j).cores = s.cores ∧ (s.lineServed id r j).nextId = s.nextId ∧
      (s.lineServed id r j).remotes = s.remotes.set id (r.lessLine j (s.refusesStoreLine r j)) ∧
      (s.lineServed id r j).mem = if s.refusesStoreLine r j then s.mem
        else s.mem.putNum (coreStoreBase r.cell + (r.offset + 64 * j)) n (r.data / 2 ^ (512 * j) % 2 ^ (8 * n)) := by
  cases hno : s.refusesStoreLine r j with
  | true => simp [State.lineServed, hno]
  | false => by_cases hn : min 64 (r.len - 64 * j) = 64 <;> simp [State.lineServed, hno, hn, State.cleansed]

/-- A line at its turn: stored or refused, gone from its store, and after the last one the acknowledgement is sent. -/
theorem State.remoteLine_spec {s : State} {request : Nat} {r : RemoteStore} (j : Nat) (hqueued : r.queued = true)
    (hkey : ∀ x ∈ s.remotes, x.1 = request → x.2 = r) :
    let t := s.remoteLine request r j
    let n := min 64 (r.len - 64 * j)
    t.cores = s.cores ∧
      t.mem = (if s.refusesStoreLine r j then s.mem
        else s.mem.putNum (coreStoreBase r.cell + (r.offset + 64 * j)) n (r.data / 2 ^ (512 * j) % 2 ^ (8 * n))) ∧
      t.remotes.get? request = some (r.lessLine j (s.refusesStoreLine r j)) ∧
      (r.left.erase j = [] → ∃ p : Packet, t.packets.get? s.nextId = some p ∧ p.dest = routerOf r.source ∧
        p.item = .op (.remoteStoreAck request)) := by
  obtain ⟨hcores, hnext, hremotes, hmem⟩ := s.lineServed_spec request r j
  have hget : (s.lineServed request r j).remotes.get? request = some (r.lessLine j (s.refusesStoreLine r j)) := by
    rw [hremotes, Table.get?_set_self]
  simp only [State.remoteLine_eq]
  by_cases hempty : (r.left.erase j).isEmpty = true
  · obtain ⟨rs, ports, es, hgo, hkeep⟩ := (s.lineServed request r j).remoteGo_cases r.source r.cell
    have hgot : rs.get? request = _ := (hkeep request fun x hx hk => by
      rcases Table.mem_set (hremotes ▸ hx) with rfl | hx
      · exact hqueued
      · rw [hkey x hx hk, hqueued]).trans hget
    obtain ⟨hm, hc, hr, hp⟩ := State.send_spec ((s.lineServed request r j).remoteGo r.source r.cell)
      (routerOf r.cell) (routerOf r.source) 1 phNet 0 (.op (.remoteStoreAck request))
    rw [if_pos hempty]
    rw [hgo] at hm hc hr hp ⊢
    exact ⟨hc.trans hcores, hm.trans hmem, hr ▸ hgot, fun _ => hnext ▸ hp⟩
  · rw [if_neg hempty]
    exact ⟨hcores, hmem, hget, fun h => absurd (List.isEmpty_iff.mpr h) hempty⟩

theorem exec_remoteStoreArrival_coming {s : State} {request : Nat} {r : RemoteStore} (hget : s.remotes.get? request = some r)
    (hturn : r.turn = none) : exec (.remoteStoreArrival request) s =
      .next ({ s with remotes := s.remotes.set request { r with arrived := true } }.remoteGo r.source r.cell) := by
  show execRemoteStoreArrival request s = _
  simp only [execRemoteStoreArrival, hget, hturn]

theorem exec_remoteStoreArrival_turn {s : State} {request j : Nat} {r : RemoteStore} (hget : s.remotes.get? request = some r)
    (hturn : r.turn = some j) : exec (.remoteStoreArrival request) s = .next (s.remoteLine request r j) := by
  show execRemoteStoreArrival request s = _
  simp only [execRemoteStoreArrival, hget, hturn]

/-- An acknowledgement of a store that its core counts lowers the count; a refusal sets the class's bit, and the address with it. -/
theorem exec_remoteStoreAck_counted {s : State} {request : Nat} {r : RemoteStore} (hget : s.remotes.get? request = some r)
    (hcounted : r.counted = true) :
    exec (.remoteStoreAck request) s =
      .next (State.updClock { s with remotes := s.remotes.erase request } r.source fun k =>
        let k1 := { k with counts := k.counts.setIfInBounds (r.cls - 1) (k.counts[r.cls - 1]?.getD 0 - 1) }
        if !r.refused then k1
        else { k1 with refused := k.refused.setIfInBounds (r.cls - 1) true
                       refusedAt := if k.refused[r.cls - 1]?.getD false then k.refusedAt
                         else k.refusedAt.setIfInBounds (r.cls - 1) (word (r.cell * 2 ^ 22 + r.offset)) }) := by
  show execRemoteStoreAck request s = _
  simp only [execRemoteStoreAck, hget, hcounted]
  rfl

/-- Remote stores at their destination and back: the oldest goes to its ports, a line has its turn, an acknowledgement is counted. -/
theorem remoteArrivals_hold : Claims.remoteArrivals := by
  refine ⟨fun request r s hget hturn hqueued hleft honly => ?_, fun request j r s hget hturn hqueued hkey => ?_, fun request r s hget => ?_⟩
  · refine ⟨_, exec_remoteStoreArrival_coming hget hturn, ?_⟩
    refine State.remoteGo_arrived (r := { r with arrived := true }) (Table.get?_set_self _ _ _) rfl hqueued hleft fun x hx hsource hcell => ?_
    rcases Table.mem_set hx with rfl | hx
    · rfl
    · exact honly x hx hsource hcell
  · intro at' n no
    have hno : s.refusesStoreLine r j = true ↔ no := by
      simp only [State.refusesStoreLine, Bool.or_eq_true, beq_iff_eq, Option.isSome_iff_ne_none, or_assoc, no, at', n]
    obtain ⟨hcores, hmem, hremotes, hpacket⟩ := State.remoteLine_spec j hqueued hkey
    refine ⟨_, exec_remoteStoreArrival_turn hget hturn, hcores, fun h => ?_, fun h => ?_, hpacket⟩
    · rw [RemoteStore.lessLine, hno.mpr h, Bool.or_true] at hremotes
      exact ⟨by rw [hmem, if_pos (hno.mpr h)], hremotes⟩
    · rw [RemoteStore.lessLine, Bool.eq_false_iff.mpr fun hn => h (hno.mp hn), Bool.or_false] at hremotes
      exact ⟨by rw [hmem, if_neg fun hn => h (hno.mp hn)], hremotes⟩
  · intro s1 lower
    refine ⟨fun hcounted => ?_, fun hcounted hrefused => ?_, fun hcounted hrefused => ?_⟩
    · show execRemoteStoreAck request s = _
      simp only [execRemoteStoreAck, hget, hcounted]
      rfl
    · rw [exec_remoteStoreAck_counted hget hcounted, hrefused]
      rfl
    · refine ⟨_, exec_remoteStoreAck_counted hget hcounted, rfl, ?_⟩
      rw [hrefused]
      exact congrArg Core.clock (State.core_updCore_self _ _ _)

/-- Settles O10: loads, stores, posted stores and their arrivals. -/
theorem loadsAndStoresComplete : Obligations.LoadsAndStoresComplete :=
  ⟨loads_hold, stores_hold, remoteStores_hold, remoteArrivals_hold⟩

end Sys2Proof.Machine

/-! SUPPORT. What reset leaves, how a timed trap enters its handler, and how a bundle ends (05_sequencer R121, R125, R129, R137, R145, R146). -/

namespace Sys2Proof.Machine

open Sys2Proof

/-! ## Reset -/

theorem State.core_reset (c : Nat) : State.reset.core c = Core.reset := rfl

/-- Settles O54: an unlisted core or thread reads its reset value. -/
theorem resetState : Obligations.ResetState := by
  refine ⟨rfl, rfl, rfl, fun i hi => ?_, rfl, fun c => ?_, fun _ _ => rfl, fun c n hn => ?_⟩
  · exact Vector.getElem?_replicate_of_lt hi
  · refine ⟨rfl, rfl, rfl, rfl, rfl, rfl, fun n hn => ?_, fun n hn => ?_, fun n hn => ?_⟩
    · simp [State.core_reset, Core.s', Core.reset, TimedRegs.reset, hn]
    · simp [State.core_reset, Core.v', Core.reset, TimedRegs.reset, hn]
    · simp [State.core_reset, Core.window, Core.reset, ClockEngine.reset, Window.reset, hn]
  · exact Vector.getElem?_replicate_of_lt hn

/-! ## The drain before a handler (R146) -/

/-- The largest of some numbers and a first one bounds them and is one of them. -/
theorem foldl_max_spec (l : List Nat) (m : Nat) :
    m ≤ l.foldl max m ∧ (∀ v ∈ l, v ≤ l.foldl max m) ∧ (l.foldl max m = m ∨ l.foldl max m ∈ l) := by
  induction l generalizing m with
  | nil => simp
  | cons x l ih =>
    obtain ⟨hm, hl, hr⟩ := ih (max m x)
    refine ⟨(le_max_left m x).trans hm, List.forall_mem_cons.mpr ⟨(le_max_right m x).trans hm, hl⟩, ?_⟩
    rw [List.foldl_cons, List.mem_cons]
    rcases hr with hr | hr
    · rcases max_choice m x with h | h
      · exact .inl (hr.trans h)
      · exact .inr (.inl (hr.trans h))
    · exact .inr (.inr hr)

/-- The landing that a handler awaits of a result in flight. -/
def Flight.drains (clk : Nat) (f : Flight) : Option Nat := if drainSlot f.slot && f.issued < clk then some f.due else none

/-- The landing that a handler awaits of an access in flight. -/
def Access.drains (clk cell : Nat) (a : Access) : Option Nat :=
  match a.kind with
  | .load _ land => if a.cell == cell && a.issued < clk then some land else none
  | _ => none

theorem Flight.drains_eq_some {clk x : Nat} {f : Flight} :
    f.drains clk = some x ↔ (drainSlot f.slot = true ∧ f.issued < clk) ∧ f.due = x := by
  simp [Flight.drains]

theorem Access.drains_eq_some {clk cell x : Nat} {a : Access} :
    a.drains clk cell = some x ↔ ∃ d, a.kind = .load d x ∧ a.cell = cell ∧ a.issued < clk := by
  unfold Access.drains
  cases a.kind <;> simp [and_comm]

theorem State.drainTick_eq (s : State) (cell : Nat) :
    s.drainTick cell = (s.accesses.filterMap (·.drains s.clk cell)).foldl max
      (((s.core cell).flights.filterMap (·.drains s.clk)).foldl max (s.clk + 1)) := by
  rw [State.drainTick, List.foldl_filterMap, List.foldl_filterMap]
  congr 1
  · funext m a
    unfold Access.drains
    cases a.kind <;> simp only []
    split_ifs <;> rfl
  · congr 1
    funext m f
    unfold Flight.drains
    split_ifs <;> rfl

/-- The handler waits for the next period and for the last landing of an earlier result, and no longer (R146). -/
theorem State.drainTick_spec (s : State) (cell : Nat) :
    s.clk + 1 ≤ s.drainTick cell ∧
      (∀ f ∈ (s.core cell).flights, drainSlot f.slot = true → f.issued < s.clk → f.due ≤ s.drainTick cell) ∧
      (∀ a ∈ s.accesses, ∀ d land, a.kind = .load d land → a.cell = cell → a.issued < s.clk → land ≤ s.drainTick cell) ∧
      (s.drainTick cell = s.clk + 1 ∨ (∃ f ∈ (s.core cell).flights, s.drainTick cell = f.due) ∨
        ∃ a ∈ s.accesses, ∃ d, a.kind = .load d (s.drainTick cell)) := by
  obtain ⟨hclk, hflights, hfrom⟩ := foldl_max_spec ((s.core cell).flights.filterMap (·.drains s.clk)) (s.clk + 1)
  obtain ⟨hle, haccesses, hlast⟩ := foldl_max_spec (s.accesses.filterMap (·.drains s.clk cell))
    (((s.core cell).flights.filterMap (·.drains s.clk)).foldl max (s.clk + 1))
  rw [State.drainTick_eq]
  refine ⟨hclk.trans hle, fun f hf hslot hissued => (hflights _ (List.mem_filterMap.mpr ⟨f, hf, ?_⟩)).trans hle,
    fun a ha d land hkind hcell hissued => haccesses _ (List.mem_filterMap.mpr ⟨a, ha, ?_⟩), ?_⟩
  · exact Flight.drains_eq_some.mpr ⟨⟨hslot, hissued⟩, rfl⟩
  · exact Access.drains_eq_some.mpr ⟨d, hkind, hcell, hissued⟩
  · rcases hlast with hlast | hlast
    · rw [hlast]
      refine hfrom.imp_right fun hfrom => .inl ?_
      obtain ⟨f, hf, hdue⟩ := List.mem_filterMap.mp hfrom
      exact ⟨f, hf, (Flight.drains_eq_some.mp hdue).2.symm⟩
    · obtain ⟨a, ha, hland⟩ := List.mem_filterMap.mp hlast
      obtain ⟨d, hkind, -⟩ := Access.drains_eq_some.mp hland
      exact .inr (.inr ⟨a, ha, d, hkind⟩)

/-! ## Taking a trap -/

theorem State.landRealign_none {s : State} {cell : Nat} (h : (s.core cell).seq.realign = none) : s.landRealign cell = s := by
  rw [State.landRealign, h]

@[simp] theorem State.leaveBarrier_mem (s : State) (cell : Nat) : (s.leaveBarrier cell).mem = s.mem := rfl
@[simp] theorem State.leaveBarrier_accesses (s : State) (cell : Nat) : (s.leaveBarrier cell).accesses = s.accesses := rfl
@[simp] theorem State.leaveBarrier_clk (s : State) (cell : Nat) : (s.leaveBarrier cell).clk = s.clk := rfl
@[simp] theorem State.core_leaveBarrier (s : State) (cell x : Nat) : (s.leaveBarrier cell).core x = s.core x := rfl

section Trap

variable {s : State} {cell : Nat} (i : FaultInfo) (rpc : BitVec 64)

/-- A trap that a handler takes. -/
theorem State.takeTrap_handler (hre : (s.core cell).seq.realign = none) (hinh : (s.core cell).ctl.inh = false)
    (htvec : (s.core cell).ctl.tvec ≠ 0) :
    let c := s.core cell
    let t := s.takeTrap cell i rpc
    t.mem = s.mem ∧ t.accesses = s.accesses ∧
      (∃ q, t.core cell = { c with ctl := { c.ctl.record i rpc s.tick with inh := true }, seq := q } ∧ q.pc = c.ctl.tvec) ∧
      ∃ e ∈ t.events, e.due = s.drainTick cell ∧ e.item = .op (.handlerStart cell) := by
  have hc : ¬((s.core cell).ctl.inh || (s.core cell).ctl.tvec == 0) = true := by simpa [hinh] using htvec
  simp only [State.takeTrap, State.landRealign_none hre, if_neg hc]
  refine ⟨by simp, by simp, ⟨_, by simp only [State.core_at', State.core_leaveBarrier, State.core_setCore_self]; rfl, rfl⟩,
    _, (State.mem_at' ..).mpr (.inl rfl), rfl, rfl⟩

/-- A trap without a handler, or in one. -/
theorem State.takeTrap_stops (hre : (s.core cell).seq.realign = none)
    (hno : (s.core cell).ctl.inh = true ∨ (s.core cell).ctl.tvec = 0) :
    let c := s.core cell
    let t := s.takeTrap cell i rpc
    t.mem = s.mem ∧ t.accesses = s.accesses ∧ (∃ q, t.core cell = { c with run := .stopping, seq := q }) ∧
      ∃ e ∈ t.events, e.due = s.clk + 1 ∧ e.item = .op (.timedCoreStop cell) := by
  have hc : ((s.core cell).ctl.inh || (s.core cell).ctl.tvec == 0) = true := by simpa using hno
  simp only [State.takeTrap, State.landRealign_none hre, if_pos hc]
  refine ⟨by simp, by simp, ⟨_, by simp only [State.core_after, State.core_leaveBarrier, State.core_setCore_self]; rfl⟩,
    _, (State.mem_after ..).mpr (.inl rfl), by simp, rfl⟩

end Trap

/-! ## The end of a bundle (R125, R129) -/

@[simp] theorem State.updSeq_mem (s : State) (cell : Nat) (f : Sequencer → Sequencer) : (s.updSeq cell f).mem = s.mem := rfl
@[simp] theorem State.updSeq_clk (s : State) (cell : Nat) (f : Sequencer → Sequencer) : (s.updSeq cell f).clk = s.clk := rfl
@[simp] theorem State.updSeq_tick (s : State) (cell : Nat) (f : Sequencer → Sequencer) : (s.updSeq cell f).tick = s.tick := rfl
theorem State.core_updSeq_self (s : State) (cell : Nat) (f : Sequencer → Sequencer) :
    (s.updSeq cell f).core cell = { s.core cell with seq := f (s.core cell).seq } := State.core_updCore_self _ _ _

/-- Levels that do not end stay, and add no stride. -/
theorem endIterations_of_least_none {e : BitVec 64} {ls : List LoopLevel} (h : (endIterations e ls).least = none) :
    (endIterations e ls).loops = ls ∧ (endIterations e ls).strides = [] := by
  cases ls with
  | nil => exact ⟨rfl, rfl⟩
  | cons l t =>
    rw [endIterations] at h ⊢
    split_ifs at h ⊢
    exact ⟨rfl, rfl⟩

/-- The iterations that the bundle now issuing ends: none in a handler or where a transfer is taken. -/
def State.iterationEnd (s : State) (cell : Nat) (g : Group) : LoopEnd :=
  let c := s.core cell
  if c.ctl.inh || c.seq.taken.isSome then { loops := c.seq.loops, next := none, strides := [], least := none }
  else endIterations (bundlePc g.base g.index) c.seq.loops

theorem State.iterationEnd_of_least_none {s : State} {cell : Nat} {g : Group} (h : (s.iterationEnd cell g).least = none) :
    (s.iterationEnd cell g).loops = (s.core cell).seq.loops ∧ (s.iterationEnd cell g).strides = [] := by
  simp only [State.iterationEnd] at h ⊢
  split_ifs at h ⊢
  · exact ⟨rfl, rfl⟩
  · exact endIterations_of_least_none h

/-- The address after the bundle now issuing. -/
def State.nextBundle (s : State) (cell : Nat) (g : Group) : BitVec 64 :=
  (s.core cell).seq.taken.getD ((s.iterationEnd cell g).next.getD (bundlePc g.base g.index + 64))

/-- The state in which the sequencer has gone on from the bundle now issuing, and nothing has been made to follow yet. -/
def State.bundleEnded (s : State) (cell : Nat) (g : Group) : State :=
  let r := s.iterationEnd cell g
  let more := match g.bundles with
    | _ :: b :: bs => some { g with index := g.index + 1, bundles := b :: bs }
    | _ => none
  let group := if (s.core cell).seq.taken.isSome then none else more
  (if r.least.isSome then (s.atSlot cell (bundlePc g.base g.index) 15 g.first g.last).applyLoopEnd cell r else s).updSeq cell fun q =>
    { q with pc := s.nextBundle cell g, group, taken := none, slow := false, after := none,
             observed := if group.isSome then q.observed else [] }

/-- What the end of iterations changes of a core: its levels, and the stride adds in flight. -/
theorem State.applyLoopEnd_spec {s : State} {cell : Nat} (hcell : s.curT.cell = cell) (r : LoopEnd) :
    let t := s.applyLoopEnd cell r
    t.mem = s.mem ∧ t.clk = s.clk ∧ t.tick = s.tick ∧
      ∃ fs, t.core cell = { s.core cell with seq := { (s.core cell).seq with loops := r.loops }, flights := fs } ∧
        (r.strides ≠ [] → ∃ f ∈ fs, f.due = s.clk + 1 ∧ f.landings = r.strides.map fun x => .stride x.1 x.2) := by
  subst hcell
  simp only [State.applyLoopEnd, List.isEmpty_iff]
  by_cases hs : r.strides = []
  · rw [if_pos hs]
    exact ⟨rfl, rfl, rfl, _, State.core_updCore_self _ _ _, fun h => absurd hs h⟩
  · rw [if_neg hs]
    have hcore := (s.updSeq s.curT.cell fun q => { q with loops := r.loops }).fly_core 1 (r.strides.map fun x => .stride x.1 x.2)
    rw [show (s.updSeq s.curT.cell fun q => { q with loops := r.loops }).cur = _ from State.core_updSeq_self _ _ _] at hcore
    refine ⟨by simp [State.fly], by simp [State.fly], by simp [State.fly], _, hcore, fun _ => ⟨_, List.mem_append_right _
      (List.mem_singleton.mpr rfl), rfl, rfl⟩⟩

/-- What the end of a bundle changes of a core: its sequencer, and the stride adds in flight. -/
theorem State.bundleEnded_spec (s : State) (cell : Nat) (g : Group) :
    let r := s.iterationEnd cell g
    let t := s.bundleEnded cell g
    t.mem = s.mem ∧ t.clk = s.clk ∧ t.tick = s.tick ∧
      ∃ q fs, t.core cell = { s.core cell with seq := q, flights := fs } ∧ q.pc = s.nextBundle cell g ∧ q.loops = r.loops ∧
        q.realign = (s.core cell).seq.realign ∧
        (r.strides ≠ [] → ∃ f ∈ fs, f.due = s.clk + 1 ∧ f.landings = r.strides.map fun x => .stride x.1 x.2) := by
  obtain ⟨u, hu, hmem, hclk, htick, fs, hcore, hstrides⟩ : ∃ u : State,
      (if (s.iterationEnd cell g).least.isSome then
        (s.atSlot cell (bundlePc g.base g.index) 15 g.first g.last).applyLoopEnd cell (s.iterationEnd cell g) else s) = u ∧
      u.mem = s.mem ∧ u.clk = s.clk ∧ u.tick = s.tick ∧
      ∃ fs, u.core cell = { s.core cell with seq := { (s.core cell).seq with loops := (s.iterationEnd cell g).loops }, flights := fs } ∧
        ((s.iterationEnd cell g).strides ≠ [] → ∃ f ∈ fs, f.due = s.clk + 1 ∧
          f.landings = (s.iterationEnd cell g).strides.map fun x => .stride x.1 x.2) := by
    refine ⟨_, rfl, ?_⟩
    cases hleast : (s.iterationEnd cell g).least with
    | none =>
      obtain ⟨hloops, hstrides⟩ := State.iterationEnd_of_least_none hleast
      rw [hloops, hstrides]
      exact ⟨rfl, rfl, rfl, _, rfl, fun h => absurd rfl h⟩
    | some d =>
      exact State.applyLoopEnd_spec (s := s.atSlot cell (bundlePc g.base g.index) 15 g.first g.last) rfl _
  simp only [State.bundleEnded, hu, State.core_updSeq_self, hcore]
  exact ⟨hmem, hclk, htick, _, _, rfl, rfl, rfl, rfl, hstrides⟩

/-- A bundle whose core waits at no REALIGN and is not asked to be pre-empted takes its TRAP, or is followed by the issue of the next. -/
theorem State.endBundle_eq {s : State} {cell : Nat} (g : Group) (hre : (s.core cell).seq.realign = none)
    (hprq : (s.core cell).clock.prq = false) :
    ((s.core cell).seq.after = none → s.endBundle cell g = (s.bundleEnded cell g).issueAt cell
      (s.clk + if (s.core cell).seq.taken.isSome && (s.core cell).seq.slow then 2 else 1)) ∧
    ((s.core cell).seq.after = some .trap → s.endBundle cell g = (s.bundleEnded cell g).takeTrap cell
      (seqFault 9 6 (bundlePc g.base g.index) (s.core cell).seq.trapVal) (s.nextBundle cell g)) := by
  have hrealign : ((s.bundleEnded cell g).core cell).seq.realign = none := by
    obtain ⟨-, -, -, q, fs, hcore, -, -, hq, -⟩ := s.bundleEnded_spec cell g
    rw [hcore]
    exact hq.trans hre
  unfold State.endBundle
  extract_lets c q pc r next more group s1 preempted arrived
  have hs1 : s1 = s.bundleEnded cell g := rfl
  have harrived : arrived s1 = s1 := by simp only [arrived, hs1, hrealign]
  have hpreempted : preempted = false := by simp [preempted, c, hprq]
  rw [← hs1]
  refine ⟨fun hafter => ?_, fun hafter => ?_⟩
  · simp only [q, c, hafter, hpreempted, harrived]
    rfl
  · simp only [q, c, hafter, harrived]
    rfl

theorem State.finishBundle_eq {s : State} {cell : Nat} {g : Group} (hg : (s.core cell).seq.group = some g)
    (hrun : (s.core cell).run = .running) : s.finishBundle cell = s.endBundle cell g := by
  simp [State.finishBundle, hg, hrun]

/-- A bundle that ends with nothing made to follow it: the core goes on at the next address in the period that R125 gives. -/
theorem State.finishBundle_issues {s : State} {cell : Nat} {g : Group} (hg : (s.core cell).seq.group = some g)
    (hrun : (s.core cell).run = .running) (hre : (s.core cell).seq.realign = none) (hprq : (s.core cell).clock.prq = false)
    (hafter : (s.core cell).seq.after = none) :
    let c := s.core cell
    let r := s.iterationEnd cell g
    let t := s.finishBundle cell
    (t.core cell).regs = c.regs ∧ t.mem = s.mem ∧ (t.core cell).seq.pc = s.nextBundle cell g ∧ (t.core cell).seq.loops = r.loops ∧
      (r.strides ≠ [] → ∃ f ∈ (t.core cell).flights, f.due = s.clk + 1 ∧ f.landings = r.strides.map fun x => .stride x.1 x.2) ∧
      ∃ x ∈ t.events, x.item = .op (.groupIssue cell) ∧ x.due = s.clk + (if c.seq.taken.isSome && c.seq.slow then 2 else 1) := by
  obtain ⟨hmem, -, -, q, fs, hcore, hpc, hloops, -, hstrides⟩ := s.bundleEnded_spec cell g
  simp only [State.finishBundle_eq hg hrun, (State.endBundle_eq g hre hprq).1 hafter, State.issueAt, State.core_at',
    State.core_updSeq_self, hcore]
  exact ⟨trivial, by simp [hmem], hpc, hloops, hstrides, _, (State.mem_at' ..).mpr (.inl rfl), rfl, rfl⟩

/-! ## The obligation -/

/-- R129: where the head of the stack does not end at the bundle, or nothing may end there, no iteration ends. -/
theorem State.iterationEnd_none {s : State} {cell : Nat} {g : Group}
    (h : (s.core cell).ctl.inh = true ∨ (s.core cell).seq.taken ≠ none ∨
      (s.core cell).seq.loops.head?.all (fun l => l.last ≠ bundlePc g.base g.index) = true) :
    s.iterationEnd cell g = { loops := (s.core cell).seq.loops, next := none, strides := [], least := none } := by
  simp only [State.iterationEnd]
  split_ifs with hoff
  · rfl
  · rw [Bool.or_eq_true, Option.isSome_iff_ne_none, not_or] at hoff
    exact endIterations_of_head_ne ((h.resolve_left hoff.1).resolve_left hoff.2)

/-- Outside a handler, where no transfer is taken, levels end as R129 says. -/
theorem State.iterationEnd_levels {s : State} {cell : Nat} {g : Group} {ps rest : List LoopLevel}
    (hinh : (s.core cell).ctl.inh = false) (htaken : (s.core cell).seq.taken = none) (hloops : (s.core cell).seq.loops = ps ++ rest) :
    s.iterationEnd cell g = endIterations (bundlePc g.base g.index) (ps ++ rest) := by
  simp [State.iterationEnd, hinh, htaken, hloops]

/-- Settles O56: a trap by whether it finds a handler, the end of a bundle by the iterations that it ends. -/
theorem timedTrapsEnter : Obligations.TimedTrapsEnter := by
  refine ⟨fun cell i rpc s hre => ?_, fun cell g s => ?_, fun cell g ps rest s => ?_⟩
  · intro c t
    by_cases hno : c.ctl.inh = true ∨ c.ctl.tvec = 0
    · obtain ⟨hmem, hacc, ⟨q, hcore⟩, hevent⟩ := State.takeTrap_stops i rpc hre hno
      rw [show t.core cell = _ from hcore]
      refine ⟨hmem, hacc, rfl, rfl, rfl, rfl, fun hinh htvec => ?_, fun _ => ⟨rfl, rfl, hevent⟩⟩
      rcases hno with h | h
      · exact absurd (hinh.symm.trans h) (by decide)
      · exact absurd h htvec
    · obtain ⟨hinh, htvec⟩ := not_or.mp hno
      obtain ⟨hmem, hacc, ⟨q, hcore, hpc⟩, e, he, hdue, hitem⟩ :=
        State.takeTrap_handler i rpc hre (Bool.eq_false_iff.mpr hinh) htvec
      rw [show t.core cell = _ from hcore]
      refine ⟨hmem, hacc, rfl, rfl, rfl, rfl, fun _ _ => ⟨?_, ?_, rfl, e, he, hitem, ?_⟩, fun h => absurd h hno⟩
      · simp only [TimedControl.record, BitVec.setWidth_eq, c]
      · rw [hpc, BitVec.setWidth_eq]
      · rw [hdue]
        exact s.drainTick_spec cell
  · intro c e hg hrun hre hprq hend
    have hiter := State.iterationEnd_none (g := g) hend
    refine ⟨fun hafter htaken hinh htvec => ?_, fun hafter => ?_⟩
    · obtain ⟨-, -, htick, q, fs, hcore, -, -, hq, -⟩ := s.bundleEnded_spec cell g
      have hseq : ((s.bundleEnded cell g).core cell).seq.realign = none := by rw [hcore]; exact hq.trans hre
      have hctl : ((s.bundleEnded cell g).core cell).ctl = c.ctl := by rw [hcore]
      obtain ⟨-, -, ⟨q', hcore', -⟩, -⟩ := State.takeTrap_handler (seqFault 9 6 e c.seq.trapVal) (s.nextBundle cell g) hseq
        (hctl ▸ hinh) (hctl ▸ htvec)
      rw [State.finishBundle_eq hg hrun, (State.endBundle_eq g hre hprq).2 hafter, hcore']
      simp only [hctl, htick, TimedControl.record, seqFault, BitVec.setWidth_eq, State.nextBundle, hiter]
      rw [show (s.core cell).seq.taken = none from htaken]
      rfl
    · obtain ⟨hregs, hmem, hpc, hloops, -, hissue⟩ := State.finishBundle_issues hg hrun hre hprq hafter
      rw [State.nextBundle, hiter] at hpc
      rw [hiter] at hloops
      exact ⟨_, rfl, hregs, hmem, hpc, hloops, hissue⟩
  · intro c e strides ends hg hrun hre hprq hinh htaken hafter hloops hps
    obtain ⟨hregs, hmem, hpc, hlevels, hstrides, hissue⟩ := State.finishBundle_issues hg hrun hre hprq hafter
    have hiter := (State.iterationEnd_levels (g := g) hinh htaken hloops).trans (endIterations_append rest hps)
    rw [State.nextBundle, htaken, hiter] at hpc
    rw [hiter] at hlevels hstrides
    rw [htaken] at hissue
    refine ⟨fun hne hrest => ?_, fun l t hrest hlast hleft => ?_⟩
    · rw [endIterations_of_head_ne hrest] at hpc hlevels hstrides
      simp only [if_neg hne, List.append_nil] at hpc hlevels hstrides
      exact ⟨_, rfl, hregs, hmem, hlevels, hpc, hstrides, hissue⟩
    · rw [hrest, endIterations_of_left hlast hleft] at hpc hlevels hstrides
      refine ⟨_, rfl, hregs, hmem, hlevels, hpc.trans ?_, hstrides, hissue⟩
      split_ifs <;> rfl

end Sys2Proof.Machine

/-! SUPPORT. Lane-wise instructions: the numbers that lanes hold, and the statements about them (06_vector R161 to R165, R168). -/

namespace Sys2Proof.Machine

open Sys2Proof

/-! ## Integer patterns (R32, R34) -/

theorem lane_lt (x : VReg) (w i : Nat) : lane x w i < 2 ^ (8 * w) := Nat.mod_lt _ (Nat.two_pow_pos _)

theorem wrapBits_lt (w : Nat) (n : Int) : wrapBits w n < 2 ^ w := by
  have hpos : (0 : Int) < (2 ^ w : Nat) := Int.natCast_pos.mpr (Nat.two_pow_pos w)
  have hlt := Int.emod_lt_of_pos n hpos
  have hnonneg := Int.emod_nonneg n hpos.ne'
  rw [wrapBits]
  omega

theorem wrapBits_natCast (w n : Nat) : wrapBits w n = n % 2 ^ w := by
  rw [wrapBits, ← Int.natCast_mod, Int.toNat_natCast]

theorem wrapBits_of_modEq {w n : Nat} {a : Int} (h : a ≡ n [ZMOD (2 ^ w : Nat)]) : wrapBits w a = n % 2 ^ w :=
  (congrArg Int.toNat h).trans (wrapBits_natCast w n)

/-- R34: minus one has every bit. -/
theorem wrapBits_neg_one (w : Nat) : wrapBits w (-1) = 2 ^ w - 1 := by
  have h : (-1 : Int) ≡ (2 ^ w - 1 : Nat) [ZMOD (2 ^ w : Nat)] := by
    rw [Nat.cast_sub (Nat.two_pow_pos w), ← Int.zero_sub]
    exact Int.modulus_modEq_zero.symm.sub rfl
  exact (wrapBits_of_modEq h).trans (Nat.mod_eq_of_lt (Nat.sub_lt (Nat.two_pow_pos w) Nat.one_pos))

/-- R34: clamping into a range that is not empty. -/
theorem clampInt_eq {lo hi : Int} (h : lo ≤ hi) (n : Int) : clampInt lo hi n = max lo (min n hi) := by
  rw [clampInt]
  split_ifs <;> omega

theorem intOf_modEq (t b : Nat) : intOf t b ≡ b [ZMOD (2 ^ typeBits t : Nat)] := by
  have hmod : ((b % 2 ^ typeBits t : Nat) : Int) ≡ b [ZMOD (2 ^ typeBits t : Nat)] := by
    rw [Int.natCast_mod]
    exact Int.mod_modEq _ _
  rw [intOf]
  split_ifs
  · have hsub := hmod.sub (Int.modulus_modEq_zero (n := (2 ^ typeBits t : Nat)))
    rwa [Nat.cast_pow, Nat.cast_ofNat, Int.sub_zero] at hsub
  · exact hmod

/-- Of a type with bits, a power of two is twice the next lower one. -/
theorem two_pow_typeBits {t : Nat} (h : 0 < typeBits t) : 2 ^ typeBits t = 2 * 2 ^ (typeBits t - 1) := by
  rw [← Nat.pow_succ', Nat.succ_eq_add_one, Nat.sub_add_cancel h]

theorem minInt_le_intOf {t : Nat} (h : 0 < typeBits t) (b : Nat) : minInt t ≤ intOf t b := by
  have htwo : (2 : Int) ^ typeBits t = 2 * 2 ^ (typeBits t - 1) := mod_cast two_pow_typeBits h
  rw [intOf, minInt]
  by_cases ht : t < 4
  · by_cases hb : 2 ^ (typeBits t - 1) ≤ b % 2 ^ typeBits t
    · simp only [ht, hb, decide_true, Bool.and_self, if_true, htwo]
      have : (2 : Int) ^ (typeBits t - 1) ≤ (b % 2 ^ typeBits t : Nat) := mod_cast hb
      omega
    · simp only [ht, hb, decide_true, decide_false, Bool.and_false, Bool.false_eq_true, if_true, if_false]
      have : (0 : Int) < 2 ^ (typeBits t - 1) := by positivity
      omega
  · simp only [ht, decide_false, Bool.false_and, Bool.false_eq_true, if_false]
    exact Int.natCast_nonneg _

theorem intOf_le_maxInt {t : Nat} (h : 0 < typeBits t) (b : Nat) : intOf t b ≤ maxInt t := by
  have htwo : (2 : Int) ^ typeBits t = 2 * 2 ^ (typeBits t - 1) := mod_cast two_pow_typeBits h
  have hlt : ((b % 2 ^ typeBits t : Nat) : Int) < 2 ^ typeBits t := mod_cast Nat.mod_lt b (Nat.two_pow_pos _)
  rw [intOf, maxInt]
  by_cases ht : t < 4
  · by_cases hb : 2 ^ (typeBits t - 1) ≤ b % 2 ^ typeBits t
    · simp only [ht, hb, decide_true, Bool.and_self, if_true]
      omega
    · simp only [ht, hb, decide_true, decide_false, Bool.and_false, Bool.false_eq_true, if_true, if_false]
      have : ((b % 2 ^ typeBits t : Nat) : Int) < 2 ^ (typeBits t - 1) := mod_cast Nat.not_le.mp hb
      omega
  · simp only [ht, decide_false, Bool.false_and, Bool.false_eq_true, if_false]
    omega

/-! ## Lanes of an instruction's type -/

section Lanes

variable (c : Core) (f : FormA) (n : BitVec 6) (j : Nat)

theorem Claims.at_lt : Claims.at c f n j < Claims.range f := lane_lt _ _ _

theorem Claims.at_mod : Claims.at c f n j % Claims.range f = Claims.at c f n j := Nat.mod_eq_of_lt (Claims.at_lt c f n j)

theorem Claims.num_modEq : Claims.num c f n j ≡ Claims.at c f n j [ZMOD (Claims.range f : Nat)] := intOf_modEq _ _

/-- R34: the pattern of a number that is congruent to `m`. -/
theorem Claims.wrapBits_of_modEq {f : FormA} {m : Nat} {a : Int} (h : a ≡ m [ZMOD (Claims.range f : Nat)]) :
    wrapBits (8 * Claims.width f) a = m % Claims.range f := Machine.wrapBits_of_modEq h

/-- A lane's number has the lane's pattern. -/
theorem wrapBits_num : wrapBits (8 * Claims.width f) (Claims.num c f n j) = Claims.at c f n j :=
  (Claims.wrapBits_of_modEq (Claims.num_modEq c f n j)).trans (Claims.at_mod c f n j)

end Lanes

/-- R161: the pattern of a lane's negated number. -/
theorem wrapBits_neg_num (c : Core) (f : FormA) (n : BitVec 6) (j : Nat) :
    wrapBits (8 * Claims.width f) (-Claims.num c f n j) = (Claims.range f - Claims.at c f n j) % Claims.range f := by
  refine Claims.wrapBits_of_modEq ?_
  rw [Nat.cast_sub (Claims.at_lt c f n j).le, ← Int.zero_sub]
  exact Int.modulus_modEq_zero.symm.sub (Claims.num_modEq c f n j)

theorem Claims.typeBits_pos {f : FormA} (h : 0 < Claims.width f) : 0 < typeBits f.type.toNat := Nat.mul_pos (by decide) h

/-- R32: a type with negative numbers has one more of them than positive ones. -/
theorem maxInt_of_signed {t : Nat} (h : minInt t < 0) : maxInt t = -minInt t - 1 := by
  rw [minInt] at h
  rw [maxInt, minInt]
  split_ifs at h ⊢
  · rw [Int.neg_neg]
  · exact absurd h (lt_irrefl 0)

theorem minInt_le_maxInt {t : Nat} (h : 0 < typeBits t) : minInt t ≤ maxInt t := (minInt_le_intOf h 0).trans (intOf_le_maxInt h 0)

/-- R34: a saturated result is clamped, with sa where it clamps. -/
theorem saturate_eq {f : FormA} (h : 0 < Claims.width f) (n : Int) :
    wrapBits (8 * Claims.width f) (saturate f.type.toNat n).1 = Claims.clamp f n ∧
      (saturate f.type.toNat n).2 = Claims.clamped f n := by
  refine ⟨?_, ?_⟩
  · rw [Claims.clamp, saturate, clampInt_eq (minInt_le_maxInt (Claims.typeBits_pos h))]
  · simp [Claims.clamped, saturate]

/-! ## From a lane-wise run to a statement -/

/-- A lane-wise run whose lanes have the values and flags of a statement. -/
theorem State.lanewise_lanes {s : State} {g : Gate} (h : s.iterates g = true) {d : BitVec 6} {w offset opcode : Nat}
    {op : Core → Nat → Nat × Flags} {r : Result} (hr : r = s.lanewise g d w offset opcode op) {value : Nat → Nat} {flags : Nat → Flags}
    (hop : ∀ j < 256 / w, (op s.cur j).1 % 2 ^ (8 * w) = value j ∧ (op s.cur j).2 = flags j) :
    ∃ t, r = .next t ∧ Claims.lanes s t g d w offset opcode value flags := by
  obtain ⟨x, bits, fl, heq, hlanes, hflags⟩ := s.lanewise_spec g d w offset opcode op h
  refine ⟨_, hr.trans heq, x, bits, fl, rfl, fun j hj => ?_, fun j u => (hflags j u).trans ?_⟩
  · rw [← (hop j hj).1]
    exact hlanes j hj
  · exact and_congr_right fun hj => by rw [(hop j hj).2]; rfl

section LaneWise

variable {i : Gate → FormA → Instr} {offset opcode : Nat} {value : Core → FormA → Nat → Nat} {flags : Core → FormA → Nat → Flags}

/-- A lane-wise instruction of its type's width completes with its operation. -/
theorem vector_of_lanewise {op : FormA → Core → Nat → Nat × Flags}
    (hi : ∀ g f s, exec (i g f) s = s.lanewise g f.d (Claims.width f) offset opcode (op f))
    (hop : ∀ c f j, 0 < Claims.width f → (op f c j).1 % Claims.range f = value c f j ∧ (op f c j).2 = flags c f j) :
    Claims.vector i offset opcode value flags := fun g f s h =>
  State.lanewise_lanes h (hi g f s) fun j hj => hop _ f j (width_pos hj)

theorem vector_of_vint {op : Nat → Int → Int → Int × Flags} (hi : ∀ g f s, exec (i g f) s = s.vint g f offset opcode op)
    (hop : ∀ c f j, 0 < Claims.width f →
      wrapBits (8 * Claims.width f) (op f.type.toNat (Claims.num c f f.a j) (Claims.num c f f.b j)).1 = value c f j ∧
      (op f.type.toNat (Claims.num c f f.a j) (Claims.num c f f.b j)).2 = flags c f j) :
    Claims.vector i offset opcode value flags :=
  vector_of_lanewise hi fun c f j hw => (hop c f j hw).imp_left fun h => (Nat.mod_eq_of_lt (wrapBits_lt _ _)).trans h

theorem vector_of_vlane1 {op : FormA → Nat → Nat → Nat × Flags} (hi : ∀ g f s, exec (i g f) s = s.vlane1 g f offset opcode (op f))
    (hop : ∀ c f j, 0 < Claims.width f →
      (op f f.type.toNat (Claims.at c f f.a j)).1 % Claims.range f = value c f j ∧
      (op f f.type.toNat (Claims.at c f f.a j)).2 = flags c f j) :
    Claims.vector i offset opcode value flags := vector_of_lanewise hi hop

theorem vector_of_vlane2 {op : FormA → Nat → Nat → Nat → Nat × Flags}
    (hi : ∀ g f s, exec (i g f) s = s.vlane2 g f offset opcode (op f))
    (hop : ∀ c f j, 0 < Claims.width f →
      (op f f.type.toNat (Claims.at c f f.a j) (Claims.at c f f.b j)).1 % Claims.range f = value c f j ∧
      (op f f.type.toNat (Claims.at c f f.a j) (Claims.at c f f.b j)).2 = flags c f j) :
    Claims.vector i offset opcode value flags := vector_of_lanewise hi hop

end LaneWise

/-- Settles O12: sums, differences and products by congruence of a lane's number with its pattern, the others by their definitions. -/
theorem vectorIntegersComplete : Obligations.VectorIntegersComplete := by
  refine ⟨vector_of_vint (fun _ _ _ => Eq.refl (execVadd _ _ _)) fun c f j _ => ⟨Claims.wrapBits_of_modEq ?_, rfl⟩,
    vector_of_vint (fun _ _ _ => Eq.refl (execVsub _ _ _)) fun c f j _ => ⟨Claims.wrapBits_of_modEq ?_, rfl⟩,
    vector_of_vint (fun _ _ _ => Eq.refl (execVmul _ _ _)) fun c f j _ => ⟨Claims.wrapBits_of_modEq ?_, rfl⟩,
    vector_of_vint (fun _ _ _ => Eq.refl (execVmulh _ _ _)) fun c f j _ => ⟨?_, rfl⟩,
    vector_of_vint (fun _ _ _ => Eq.refl (execVmin _ _ _)) fun c f j _ => ⟨?_, rfl⟩,
    vector_of_vint (fun _ _ _ => Eq.refl (execVmax _ _ _)) fun c f j _ => ⟨?_, rfl⟩,
    vector_of_vint (fun _ _ _ => Eq.refl (execVadds _ _ _)) fun c f j hw => saturate_eq hw _,
    vector_of_vint (fun _ _ _ => Eq.refl (execVsubs _ _ _)) fun c f j hw => saturate_eq hw _⟩
  · exact_mod_cast (Claims.num_modEq c f f.a j).add (Claims.num_modEq c f f.b j)
  · rw [Nat.cast_sub ((Claims.at_lt c f f.b j).le.trans (Nat.le_add_left _ _)), Nat.cast_add]
    exact ((Claims.num_modEq c f f.a j).trans Int.add_modEq_right.symm).sub (Claims.num_modEq c f f.b j)
  · exact_mod_cast (Claims.num_modEq c f f.a j).mul (Claims.num_modEq c f f.b j)
  · simp only [noFlag, wrapBits, Claims.range, typeBits, Claims.width]
    push_cast
    rfl
  · simp only [noFlag, apply_ite (wrapBits _), wrapBits_num]
  · simp only [noFlag, apply_ite (wrapBits _), wrapBits_num]

/-! ## Bit-wise lanes and shifts -/

theorem typeBits_eq (f : FormA) : typeBits f.type.toNat = 8 * Claims.width f := rfl

/-- R161: a left shift by the width or more leaves no bit, so the product's remainder says it for every count. -/
theorem shlLane_eq (t a n : Nat) : shlLane t a n = a * 2 ^ n % 2 ^ typeBits t := by
  rw [shlLane]
  split_ifs with h
  · exact (Nat.mod_eq_zero_of_dvd (Dvd.dvd.mul_left (Nat.pow_dvd_pow 2 h) a)).symm
  · rfl

/-- R161: a logical right shift by the width or more leaves no bit of a lane. -/
theorem shrLane_eq {t a : Nat} (h : a < 2 ^ typeBits t) (n : Nat) : shrLane t a n = a / 2 ^ n := by
  rw [shrLane]
  split_ifs with hn
  · exact (Nat.div_eq_of_lt (h.trans_le (Nat.pow_le_pow_right Nat.two_pos hn))).symm
  · rfl

theorem shlLane_lt (t a n : Nat) : shlLane t a n < 2 ^ typeBits t := by
  rw [shlLane_eq]
  exact Nat.mod_lt _ (Nat.two_pow_pos _)

theorem shrLane_lt {t a : Nat} (h : a < 2 ^ typeBits t) (n : Nat) : shrLane t a n < 2 ^ typeBits t := by
  rw [shrLane_eq h]
  exact (Nat.div_le_self _ _).trans_lt h

theorem sarLane_lt (t a n : Nat) : sarLane t a n < 2 ^ typeBits t := wrapBits_lt _ _

/-- R161: an arithmetic right shift divides the signed number, and from the width on leaves copies of the sign. -/
theorem sarLane_spec {t a : Nat} (n : Nat) (ha : a < 2 ^ typeBits t) :
    let y : Int := a - (if 2 ^ (typeBits t - 1) ≤ a then 2 ^ typeBits t else 0)
    (n < typeBits t → sarLane t a n = (y / 2 ^ n % (2 ^ typeBits t : Nat)).toNat) ∧
      (typeBits t ≤ n → sarLane t a n = if y < 0 then 2 ^ typeBits t - 1 else 0) := by
  intro y
  have hy : (if 2 ^ (typeBits t - 1) ≤ a then (a : Int) - 2 ^ typeBits t else a) = y := by
    simp only [y]
    split_ifs <;> simp
  have hsar : sarLane t a n = wrapBits (typeBits t) (y / 2 ^ min n (typeBits t)) := by rw [← hy]; rfl
  have ha' : (a : Int) < 2 ^ typeBits t := mod_cast ha
  have hlo : -(2 ^ typeBits t : Int) ≤ y := by simp only [y]; split_ifs <;> omega
  have hhi : y < 2 ^ typeBits t := by simp only [y]; split_ifs <;> omega
  refine ⟨fun hn => ?_, fun hn => ?_⟩
  · rw [hsar, min_eq_left hn.le, wrapBits]
  · rw [hsar, min_eq_right hn]
    split_ifs with hneg
    · rw [show y / 2 ^ typeBits t = -1 by rw [Int.ediv_eq_iff_of_pos (by positivity)]; omega, wrapBits_neg_one]
    · rw [Int.ediv_eq_zero_of_lt (not_lt.mp hneg) hhi]
      simp [wrapBits]

/-- R161: VNEG of a lane wraps, or clamps under sat. -/
theorem vnegLane_eq {f : FormA} (hw : 0 < Claims.width f) (c : Core) (n : BitVec 6) (j : Nat) :
    (vnegLane (f.sat == 1) f.type.toNat (Claims.at c f n j)).1 = (if f.sat = 1 then Claims.clamp f (-Claims.num c f n j)
      else (Claims.range f - Claims.at c f n j) % Claims.range f) ∧
    (vnegLane (f.sat == 1) f.type.toNat (Claims.at c f n j)).2 = if f.sat = 1 then Claims.clamped f (-Claims.num c f n j) else 0 := by
  simp only [vnegLane, beq_iff_eq, typeBits_eq]
  split_ifs
  · exact saturate_eq hw _
  · exact ⟨wrapBits_neg_num c f n j, rfl⟩

/-- R161: VABS of a negative lane is its VNEG: under sat the least number alone clamps. -/
theorem vabsLane_of_neg {sat : Bool} {t x : Nat} (ht : 0 < typeBits t) (hneg : intOf t x < 0) : vabsLane sat t x = vnegLane sat t x := by
  have hmin := minInt_le_intOf ht x
  have hmax := maxInt_of_signed (hmin.trans_lt hneg)
  cases sat with
  | false => simp [vabsLane, vnegLane, hneg, noFlag]
  | true =>
    simp only [vabsLane, vnegLane, hneg, if_true, Bool.true_and, beq_iff_eq, saturate, clampInt, Bool.or_eq_true, decide_eq_true_eq]
    by_cases hleast : intOf t x = minInt t
    · rw [if_pos hleast, if_neg (by omega), if_pos (by omega), if_pos (by omega)]
    · rw [if_neg hleast, if_neg (by omega), if_neg (by omega), if_neg (by omega)]

/-- R161: VABS negates the negative lanes and keeps the others. -/
theorem vabsLane_eq {f : FormA} (hw : 0 < Claims.width f) (c : Core) (n : BitVec 6) (j : Nat) :
    (vabsLane (f.sat == 1) f.type.toNat (Claims.at c f n j)).1 = (if Claims.num c f n j < 0 then
      (if f.sat = 1 then Claims.clamp f (-Claims.num c f n j) else (Claims.range f - Claims.at c f n j) % Claims.range f)
      else Claims.at c f n j) ∧
    (vabsLane (f.sat == 1) f.type.toNat (Claims.at c f n j)).2 =
      if f.sat = 1 ∧ Claims.num c f n j < 0 then Claims.clamped f (-Claims.num c f n j) else 0 := by
  by_cases hneg : Claims.num c f n j < 0
  · have hv := vnegLane_eq hw c n j
    rw [vabsLane_of_neg (Claims.typeBits_pos hw) hneg, if_pos hneg]
    simpa [hneg] using hv
  · rw [if_neg hneg, if_neg fun h => hneg h.2, vabsLane, show intOf f.type.toNat (Claims.at c f n j) = Claims.num c f n j from rfl,
      if_neg hneg]
    exact ⟨rfl, rfl⟩

theorem Claims.clamp_lt (f : FormA) (n : Int) : Claims.clamp f n < Claims.range f := wrapBits_lt _ _

/-- Settles O13: the bit-wise lanes and shifts stay within the lane's width, and negation and magnitude wrap or clamp. -/
theorem vectorBitsComplete : Obligations.VectorBitsComplete := by
  refine ⟨vector_of_vlane2 (fun _ _ _ => Eq.refl (execVand _ _ _)) fun c f j _ =>
      ⟨Nat.mod_eq_of_lt (Nat.and_lt_two_pow _ (Claims.at_lt c f f.b j)), rfl⟩,
    vector_of_vlane2 (fun _ _ _ => Eq.refl (execVor _ _ _)) fun c f j _ =>
      ⟨Nat.mod_eq_of_lt (Nat.or_lt_two_pow (Claims.at_lt c f f.a j) (Claims.at_lt c f f.b j)), rfl⟩,
    vector_of_vlane2 (fun _ _ _ => Eq.refl (execVxor _ _ _)) fun c f j _ =>
      ⟨Nat.mod_eq_of_lt (Nat.xor_lt_two_pow (Claims.at_lt c f f.a j) (Claims.at_lt c f f.b j)), rfl⟩,
    vector_of_vlane1 (fun _ _ _ => Eq.refl (execVnot _ _ _)) fun c f j _ =>
      ⟨Nat.mod_eq_of_lt ((Nat.sub_le _ _).trans_lt (Nat.sub_lt (Nat.two_pow_pos _) Nat.one_pos)), rfl⟩,
    vector_of_vlane1 (fun _ _ _ => Eq.refl (execVmov _ _ _)) fun c f j _ => ⟨Claims.at_mod c f f.a j, rfl⟩,
    vector_of_vlane1 (fun _ _ _ => Eq.refl (execVneg _ _ _)) fun c f j hw => (vnegLane_eq hw c f.a j).imp_left fun h =>
      (Nat.mod_eq_of_lt (wrapBits_lt _ _)).trans h,
    vector_of_vlane1 (fun _ _ _ => Eq.refl (execVabs _ _ _)) fun c f j hw => (vabsLane_eq hw c f.a j).imp_left fun h => ?_,
    vector_of_vlane2 (fun _ _ _ => Eq.refl (execVshl _ _ _)) fun c f j _ => ⟨Nat.mod_eq_of_lt (shlLane_lt _ _ _), rfl⟩,
    vector_of_vlane2 (fun _ _ _ => Eq.refl (execVshr _ _ _)) fun c f j _ =>
      ⟨Nat.mod_eq_of_lt (shrLane_lt (Claims.at_lt c f f.a j) _), rfl⟩,
    vector_of_vlane2 (fun _ _ _ => Eq.refl (execVsar _ _ _)) fun c f j _ => ⟨Nat.mod_eq_of_lt (sarLane_lt _ _ _), rfl⟩,
    vector_of_vlane1 (fun _ _ _ => Eq.refl (execVshlImm _ _ _)) fun c f j _ =>
      ⟨(Nat.mod_eq_of_lt (shlLane_lt _ _ _)).trans (shlLane_eq _ _ _), rfl⟩,
    vector_of_vlane1 (fun _ _ _ => Eq.refl (execVshrImm _ _ _)) fun c f j _ =>
      ⟨(Nat.mod_eq_of_lt (shrLane_lt (Claims.at_lt c f f.a j) _)).trans (shrLane_eq (Claims.at_lt c f f.a j) _), rfl⟩,
    vector_of_vlane1 (fun _ _ _ => Eq.refl (execVsarImm _ _ _)) fun c f j _ => ⟨Nat.mod_eq_of_lt (sarLane_lt _ _ _), rfl⟩,
    fun t a n _ ha => ⟨_, rfl, sarLane_spec n ha⟩⟩
  rw [h]
  split_ifs
  · exact Nat.mod_eq_of_lt (Claims.clamp_lt f _)
  · exact Nat.mod_mod _ _
  · exact Claims.at_mod c f f.a j

/-! ## Floating-point lanes -/

theorem rounding_eq (c : Core) (f : FormA) : c.ctl.rounding f.rnd.toNat = Claims.mode c f := by
  simp [TimedControl.rounding, Claims.mode]

/-- A rounding lane-wise instruction computes the exact value of its operation and rounds it once. -/
theorem rounds_of_vfloat {i : Gate → FormA → Instr} {offset : FormA → Nat} {opcode : Nat} {exact : Core → FormA → Nat → Val × Flags}
    {op : Val → Val → Val → Nat → Val × Flags} (hi : ∀ g f s, exec (i g f) s = s.vfloat g f (offset f) opcode op)
    (hop : ∀ c f j, op (Claims.val c f f.a j) (Claims.val c f f.b j) (Claims.val c f f.c j) (Claims.mode c f) = exact c f j) :
    Claims.rounds i offset opcode exact := fun g f s h => by
  refine State.lanewise_lanes h (hi g f s) fun j _ => ?_
  rw [rounding_eq, ← hop]
  exact ⟨rfl, rfl⟩

theorem divOffset_eq : divOffset = fun f => if f.type = 11 then 20 else 12 := by
  funext f
  simp [divOffset]

/-- Settles O14: each instruction is of the form that computes exactly and rounds once. -/
theorem vectorFloatsComplete : Obligations.VectorFloatsComplete := by
  refine ⟨rounds_of_vfloat (fun _ _ _ => Eq.refl (execVfadd _ _ _)) fun _ _ _ => rfl,
    rounds_of_vfloat (fun _ _ _ => Eq.refl (execVfsub _ _ _)) fun _ _ _ => rfl,
    rounds_of_vfloat (fun _ _ _ => Eq.refl (execVfmul _ _ _)) fun _ _ _ => rfl,
    rounds_of_vfloat (fun _ _ _ => Eq.refl (execVfma _ _ _)) fun _ _ _ => rfl,
    rounds_of_vfloat (fun _ _ _ => Eq.refl (execVfms _ _ _)) fun _ _ _ => rfl, ?_, ?_⟩
  · rw [← divOffset_eq]
    exact rounds_of_vfloat (fun _ _ _ => Eq.refl (execVfdiv _ _ _)) fun _ _ _ => rfl
  · rw [← divOffset_eq]
    exact rounds_of_vfloat (fun _ _ _ => Eq.refl (execVfsqrt _ _ _)) fun _ _ _ => rfl

/-! ## Signs, tests and selections -/

/-- A float's magnitude fits its lane. -/
theorem Claims.top_le (f : FormA) : Claims.top f ≤ Claims.range f := Nat.pow_le_pow_right Nat.two_pos (Nat.sub_le _ _)

theorem typeBytes_cases {t : Nat} (h : 0 < typeBytes t) : typeBytes t = 1 ∨ typeBytes t = 2 ∨ typeBytes t = 4 ∨ typeBytes t = 8 := by
  revert h
  unfold typeBytes
  split <;> simp

/-- The widths of lanes divide a register's 256 bytes. -/
theorem Claims.width_dvd {f : FormA} (h : 0 < Claims.width f) : Claims.width f ∣ 256 := by
  rcases typeBytes_cases h with hw | hw | hw | hw <;> rw [Claims.width, hw] <;> norm_num

/-- R164: a comparison writes every predicate bit of an enabled lane with the lane's condition. -/
theorem State.predwise_lanes {s : State} {g : Gate} (h : s.iterates g = true) {f : FormA} (hw : 0 < Claims.width f) {offset opcode : Nat}
    {cond : Core → Nat → Bool × Flags} {r : Result} (hr : r = s.predwise g f.d (Claims.width f) offset opcode cond) :
    ∃ (x bits : Mask) (fl : List (Nat × Flags)),
      r = .next (s.flight offset opcode [.pv f.d.toNat x bits] (unitGroup s.curT.slot) fl none) ∧
      (∀ k < 256, bits.getLsbD k = Claims.enabled s g (Claims.width f) (k / Claims.width f) ∧
        (bits.getLsbD k = true → x.getLsbD k = (cond s.cur (k / Claims.width f)).1)) ∧
      ∀ j u, (j, u) ∈ fl ↔ j < 256 / Claims.width f ∧ Claims.enabled s g (Claims.width f) j = true ∧
        u = (cond s.cur j).2 ∧ u ≠ 0 := by
  obtain ⟨x, bits, fl, heq, hbits, hflags⟩ := s.predwise_spec g f.d (Claims.width f) offset opcode cond hw h
  refine ⟨x, bits, fl, hr.trans heq, fun k hk => ?_, hflags⟩
  have hlane : k / Claims.width f < 256 / Claims.width f := Nat.div_lt_div_of_lt_of_dvd (Claims.width_dvd hw) hk
  obtain ⟨hbit, hval⟩ := hbits k hk hlane
  exact ⟨hbit, fun hset => hval (hbit.symm.trans hset)⟩

/-- Settles O15: the sign bit by arithmetic on patterns, the tests by the predicate bits that an enabled lane writes. -/
theorem vectorSignsAndTestsComplete : Obligations.VectorSignsAndTestsComplete := by
  refine ⟨vector_of_vlane1 (fun _ _ _ => Eq.refl (execVfabs _ _ _)) fun c f j _ =>
      ⟨Nat.mod_eq_of_lt ((Nat.mod_lt _ (Nat.two_pow_pos _)).trans_le (Claims.top_le f)), rfl⟩,
    vector_of_vlane1 (fun _ _ _ => Eq.refl (execVfneg _ _ _)) fun c f j _ => ⟨Nat.mod_mod _ _, rfl⟩,
    vector_of_vlane2 (op := fun f t a b => minMaxBits t false (fbit f.func 0) a b) (fun _ _ _ => rfl) fun c f j _ => ⟨rfl, rfl⟩,
    vector_of_vlane2 (op := fun f t a b => minMaxBits t true (fbit f.func 0) a b) (fun _ _ _ => rfl) fun c f j _ => ⟨rfl, rfl⟩,
    vector_of_vlane1 (fun _ _ _ => Eq.refl (execVfcls _ _ _)) fun c f j _ => ⟨rfl, rfl⟩, fun i offset opcode cond hi g f s h hw => ?_⟩
  simp only [List.mem_cons, Prod.mk.injEq, List.not_mem_nil, or_false] at hi
  rcases hi with ⟨rfl, rfl, rfl, rfl⟩ | ⟨rfl, rfl, rfl, rfl⟩ | ⟨rfl, rfl, rfl, rfl⟩
  · exact State.predwise_lanes h hw (Eq.refl (execVcmp g f s))
  · exact State.predwise_lanes h hw (Eq.refl (execVtest g f s))
  · exact State.predwise_lanes h hw (Eq.refl (execVfcmp g f s))

/-- Settles O16: each instruction is lane-wise, and what it puts in a lane is a lane or zero. -/
theorem vectorPermutesComplete : Obligations.VectorPermutesComplete := by
  refine ⟨vector_of_lanewise (fun _ _ _ => Eq.refl (execVsel _ _ _)) fun c f j _ => ⟨Nat.mod_eq_of_lt ?_, rfl⟩,
    vector_of_lanewise (fun _ _ _ => Eq.refl (execVperm _ _ _)) fun c f j _ => ⟨Nat.mod_eq_of_lt ?_, rfl⟩,
    vector_of_lanewise (fun _ _ _ => Eq.refl (execVbcast _ _ _)) fun c f j _ => ⟨Claims.at_mod c f f.a _, rfl⟩,
    vector_of_lanewise (fun _ _ _ => Eq.refl (execVrot _ _ _)) fun c f j _ => ⟨Claims.at_mod c f f.a _, rfl⟩,
    vector_of_lanewise (fun _ _ _ => Eq.refl (execVslide _ _ _)) fun c f j _ => ⟨Nat.mod_eq_of_lt ?_, rfl⟩⟩
  · dsimp only
    split_ifs
    · exact Claims.at_lt c f f.a j
    · exact Claims.at_lt c f f.b j
  · dsimp only
    split_ifs
    · exact Claims.at_lt c f f.a _
    · exact Claims.at_lt c f f.c _
    · exact Nat.two_pow_pos _
  · dsimp only
    split_ifs
    · exact Claims.at_lt c f f.a _
    · exact Claims.at_lt c f f.c _

end Sys2Proof.Machine

/-! SUPPORT. Lane masks, lanes by their place in a packed register, and the pair order (06_vector R166, R167, R181). -/

namespace Sys2Proof.Machine

open Sys2Proof

theorem State.vector_on {s : State} {g : Gate} (h : s.iterates g = true) (k : State → Core → Mask → State) :
    s.vector g k = .next (k s s.cur (s.cur.pv' g.guard.toNat)) := by
  simp [State.vector, h]

/-! ## Lane masks (R181) -/

theorem masks_of_maskOp {i : Gate → FormA → Instr} {op : Mask → Mask → Mask} (hi : ∀ g f s, exec (i g f) s = s.maskOp g f op) :
    Claims.masks i op := fun g f s h => (hi g f s).trans (State.vector_on h _)

/-- The first index that satisfies a condition, or the bound. -/
theorem find?_range_spec (p : Nat → Bool) (n : Nat) :
    ((List.range n).find? p).getD n ≤ n ∧ (∀ j < ((List.range n).find? p).getD n, p j = false) ∧
      (((List.range n).find? p).getD n < n → p (((List.range n).find? p).getD n) = true) := by
  cases hf : (List.range n).find? p with
  | none =>
    refine ⟨le_rfl, fun j hj => ?_, fun h => absurd h (lt_irrefl n)⟩
    simpa using List.find?_eq_none.mp hf j (List.mem_range.mpr hj)
  | some i =>
    obtain ⟨hp, hmem, hbefore⟩ := List.find?_range_eq_some.mp hf
    exact ⟨(List.mem_range.mp hmem).le, fun j hj => by simpa using hbefore j hj, fun _ => hp⟩

/-- Settles O23: the masks bit by bit, the count by the bits that are set, the first by the search from bit 0. -/
theorem masksComplete : Obligations.MasksComplete := by
  refine ⟨masks_of_maskOp fun _ _ _ => rfl, masks_of_maskOp fun _ _ _ => rfl, masks_of_maskOp fun _ _ _ => rfl,
    masks_of_maskOp fun _ _ _ => rfl, fun g f s h => ?_⟩
  intro m
  refine ⟨?_, _, ?_, find?_range_spec m.getLsbD 256⟩
  · show execKpop g f s = _
    rw [execKpop, State.vector_on h, onesIn_eq_length_filter]
    rfl
  · show execKfirst g f s = _
    rw [execKfirst, State.vector_on h]
    rfl

/-! ## Packed lanes -/

theorem find?_fst_of_mem {α : Type} {ls : List (Nat × α)} (hd : (ls.map (·.1)).Nodup) {j : Nat} {v : α} (h : (j, v) ∈ ls) :
    ls.find? (fun l => l.1 == j) = some (j, v) := by
  cases hf : ls.find? fun l => l.1 == j with
  | none => simpa using List.find?_eq_none.mp hf _ h
  | some l =>
    have hl : l.1 = j := by simpa using List.find?_some hf
    rw [List.inj_on_of_nodup_map hd (List.mem_of_find?_eq_some hf) h hl]

theorem find?_fst_of_not_mem {α : Type} {ls : List (Nat × α)} {j : Nat} (h : ∀ l ∈ ls, l.1 ≠ j) :
    ls.find? (fun l => l.1 == j) = none := by
  simpa using h

/-- A lane that is listed holds its value. -/
theorem lane_packLanes_of_mem {w j v : Nat} (hj : j < 256 / w) {ls : List (Nat × Nat)} (hd : (ls.map (·.1)).Nodup) (h : (j, v) ∈ ls) :
    lane (packLanes w ls) w j = v % 2 ^ (8 * w) := by
  rw [lane_packLanes hj ls hd, find?_fst_of_mem hd h]

/-- A lane that is not listed is zero. -/
theorem lane_packLanes_of_not_mem {w j : Nat} (hj : j < 256 / w) {ls : List (Nat × Nat)} (hd : (ls.map (·.1)).Nodup)
    (h : ∀ l ∈ ls, l.1 ≠ j) : lane (packLanes w ls) w j = 0 := by
  rw [lane_packLanes hj ls hd, find?_fst_of_not_mem h]

/-- The positions that enabled lanes take when each is moved to a place of its own. -/
theorem nodup_map_enabledLanes {pos : Nat → Nat} (hpos : pos.Injective) (en : Mask) (w : Nat) :
    ((enabledLanes en w).map pos).Nodup := (enabledLanes_nodup en w).map hpos

/-- An enabled lane that is moved to a place of its own stands there. -/
theorem lane_packLanes_enabled {ws wt i : Nat} {en : Mask} {pos : Nat → Nat} (hpos : pos.Injective) (value : Nat → Nat)
    (hi : i ∈ enabledLanes en ws) (hp : pos i < 256 / wt) :
    lane (packLanes wt ((enabledLanes en ws).map fun i => (pos i, value i))) wt (pos i) = value i % 2 ^ (8 * wt) := by
  refine lane_packLanes_of_mem hp ?_ (List.mem_map.mpr ⟨i, hi, rfl⟩)
  rw [List.map_map]
  exact nodup_map_enabledLanes hpos en ws

/-! ## Pairs (R166, R167) -/

/-- R166: the model's test of rank is the order by key, and by the lower index where keys are equal. -/
theorem pairAbove_iff {t ka ia kb ib : Nat} :
    pairAbove false t ka ia kb ib = true ↔ keyOrd t ka kb = .gt ∨ (keyOrd t ka kb = .eq ∧ ia ≤ ib) := by
  rw [pairAbove]
  cases keyOrd t ka kb <;> simp

/-- Whether lane `i` of a ranks above lane `i` of b, as pairs of the key's type. -/
def firstAbove (c : Core) (f : FormA) (i : Nat) : Bool :=
  let kw := typeBits f.type.toNat
  let a := lane (c.v' f.a.toNat) (2 * typeBytes f.type.toNat) i
  let b := lane (c.v' f.b.toNat) (2 * typeBytes f.type.toNat) i
  pairAbove false f.type.toNat (a / 2 ^ kw) (a % 2 ^ kw) (b / 2 ^ kw) (b % 2 ^ kw)

/-- Lane `i` of VCAS: the higher-ranking pair, then the other. -/
def rankedPair (c : Core) (f : FormA) (i : Nat) : Nat × Nat :=
  let a := lane (c.v' f.a.toNat) (2 * typeBytes f.type.toNat) i
  let b := lane (c.v' f.b.toNat) (2 * typeBytes f.type.toNat) i
  if firstAbove c f i then (a, b) else (b, a)

/-- What VCAS puts in flight: the ranked pairs of the enabled lanes. -/
theorem exec_vcas {s : State} {g : Gate} {f : FormA} (h : s.iterates g = true) :
    exec (.vcas g f) s = .next (s.flight2 3 0x21 f.d.toNat f.c.toNat
      (.v f.d.toNat (packLanes (2 * Claims.width f)
        ((enabledLanes (s.cur.pv' g.guard.toNat) (2 * Claims.width f)).map fun i => (i, (rankedPair s.cur f i).1)))
        (maskLanes (2 * Claims.width f) (enabledLanes (s.cur.pv' g.guard.toNat) (2 * Claims.width f))))
      (.v f.c.toNat (packLanes (2 * Claims.width f)
        ((enabledLanes (s.cur.pv' g.guard.toNat) (2 * Claims.width f)).map fun i => (i, (rankedPair s.cur f i).2)))
        (maskLanes (2 * Claims.width f) (enabledLanes (s.cur.pv' g.guard.toNat) (2 * Claims.width f)))) .none []) := by
  show execVcas g f s = _
  rw [execVcas, State.vector_on h]
  simp only [← apply_ite (Prod.mk _), List.map_map, Function.comp_def, List.map_id']
  rfl

/-- Settles O17: both registers hold the ranked pairs of the enabled lanes. -/
theorem vectorPairsComplete : Obligations.VectorPairsComplete := by
  intro g f s h w key idx
  refine ⟨_, _, _, exec_vcas h, fun j hj => ?_⟩
  have hbits := lane_maskLanes hj _ (enabledLanes_nodup (s.cur.pv' g.guard.toNat) w)
  by_cases hen : Claims.enabled s g w j = true
  · have hmem : j ∈ enabledLanes (s.cur.pv' g.guard.toNat) w := mem_enabledLanes.mpr ⟨hj, hen⟩
    have hx := lane_packLanes_enabled Function.injective_id (fun i => (rankedPair s.cur f i).1) hmem hj
    have hy := lane_packLanes_enabled Function.injective_id (fun i => (rankedPair s.cur f i).2) hmem hj
    have hrank := pairAbove_iff (t := f.type.toNat) (ka := key f.a j) (ia := idx f.a j) (kb := key f.b j) (ib := idx f.b j)
    rw [if_pos hmem] at hbits
    rw [if_pos hen]
    refine ⟨hbits, ?_⟩
    by_cases habove : firstAbove s.cur f j = true
    · rw [rankedPair, if_pos habove] at hx hy
      rw [if_pos (hrank.mp habove)]
      exact ⟨hx.trans (Nat.mod_eq_of_lt (lane_lt ..)), hy.trans (Nat.mod_eq_of_lt (lane_lt ..))⟩
    · rw [rankedPair, if_neg habove] at hx hy
      rw [if_neg (hrank.not.mp habove)]
      exact ⟨hx.trans (Nat.mod_eq_of_lt (lane_lt ..)), hy.trans (Nat.mod_eq_of_lt (lane_lt ..))⟩
  · rw [if_neg hen]
    rwa [if_neg fun hmem => hen (mem_enabledLanes.mp hmem).2] at hbits

end Sys2Proof.Machine

/-! SUPPORT. Draws of a unit's stream, functions of f32 lanes, and conversions (06_vector R158, R159, R171, R177 to R179). -/

namespace Sys2Proof.Machine

open Sys2Proof

/-! ## Draws (R44, R158, R159) -/

@[simp] theorem State.cur_updCur (s : State) (f : Core → Core) : (s.updCur f).cur = f s.cur := State.core_updCore_self _ _ _

/-- A draw moves the stream of the unit in the current slot and leaves every other register. -/
theorem State.draw_eq (s : State) (n : Nat) : ∃ move : TimedControl → TimedControl, (∀ t, (move t).rnd = t.rnd) ∧
    (s.draw n).2 = s.updCur fun c => { c with ctl := move c.ctl } := by
  unfold State.draw
  split
  · exact ⟨fun t => { t with ctrA := t.ctrA + BitVec.ofNat 128 (drawBlocks n) }, fun _ => rfl, rfl⟩
  · exact ⟨fun t => { t with ctrB := t.ctrB + BitVec.ofNat 128 (drawBlocks n) }, fun _ => rfl, rfl⟩
  · exact ⟨fun t => { t with ctrM := t.ctrM + BitVec.ofNat 128 (drawBlocks n) }, fun _ => rfl, rfl⟩

/-- What an instruction that draws still finds as it was: its place, its registers and its rounding mode. -/
structure State.SameOperands (s t : State) : Prop where
  curT : t.curT = s.curT
  regs : t.cur.regs = s.cur.regs
  rnd : t.cur.ctl.rnd = s.cur.ctl.rnd

theorem State.draw_same (s : State) (n : Nat) : s.SameOperands (s.draw n).2 := by
  obtain ⟨move, hrnd, heq⟩ := s.draw_eq n
  rw [heq]
  exact ⟨rfl, by simp, by simp [hrnd]⟩

theorem Claims.drawn_same (s : State) (f : FormA) (n : Nat) : s.SameOperands (Claims.drawn s f n).2 := by
  rw [Claims.drawn]
  split_ifs
  · exact s.draw_same n
  · exact ⟨rfl, rfl, rfl⟩

theorem State.drawIf_eq (s : State) (f : FormA) (n : Nat) : s.drawIf f.rnd.toNat n = Claims.drawn s f n := by
  simp [State.drawIf, Claims.drawn]

namespace State.SameOperands

variable {s t : State} (same : s.SameOperands t)

include same

theorem iterates (g : Gate) : t.iterates g = s.iterates g := by rw [State.iterates, State.iterates, same.curT]
theorem v' (n : Nat) : t.cur.v' n = s.cur.v' n := by rw [Core.v', Core.v', same.regs]
theorem pv' (n : Nat) : t.cur.pv' n = s.cur.pv' n := by rw [Core.pv', Core.pv', same.regs]
theorem at_eq (f : FormA) (n : BitVec 6) (j : Nat) : Claims.at t.cur f n j = Claims.at s.cur f n j := by
  rw [Claims.at, Claims.at, same.v']
theorem enabled (g : Gate) (w j : Nat) : Claims.enabled t g w j = Claims.enabled s g w j := by
  rw [Claims.enabled, Claims.enabled, same.pv']
theorem mode (f : FormA) : Claims.mode t.cur f = Claims.mode s.cur f := by rw [Claims.mode, Claims.mode, same.rnd]

end State.SameOperands

/-! ## Functions, bias rows, random lanes (R177 to R179) -/

/-- R177: a function of f32 lanes. -/
theorem State.vfunction_lanes {s : State} {g : Gate} (h : s.iterates g = true) {f : FormA} {opcode fn : Nat} {r : Result}
    (hr : r = s.vfunction g f opcode fn) : ∃ t, r = .next t ∧ Claims.lanes s t g f.d 4 8 opcode
      (fun j => (special fn 10 (lane (s.cur.v' f.a.toNat) 4 j) (Claims.mode s.cur f) (f.sat == 1)).1 % 2 ^ 32)
      (fun j => (special fn 10 (lane (s.cur.v' f.a.toNat) 4 j) (Claims.mode s.cur f) (f.sat == 1)).2) :=
  State.lanewise_lanes h hr fun j _ => by rw [rounding_eq]; exact ⟨rfl, rfl⟩

/-- Settles O22: all are lane-wise; VRNG from the state that its draw leaves. -/
theorem vectorFunctionsComplete : Obligations.VectorFunctionsComplete := by
  refine ⟨fun x hx g f s h => ?_, fun g f s h => ?_, fun g f s h => ?_⟩
  · simp only [List.mem_cons, List.not_mem_nil, or_false] at hx
    rcases hx with rfl | rfl | rfl | rfl
    · exact State.vfunction_lanes h (Eq.refl (execVexp2 g f s))
    · exact State.vfunction_lanes h (Eq.refl (execVlog2 g f s))
    · exact State.vfunction_lanes h (Eq.refl (execVrcp g f s))
    · exact State.vfunction_lanes h (Eq.refl (execVrsq g f s))
  · refine State.lanewise_lanes h (Eq.refl (execVbias g f s)) fun j _ => ?_
    have htype : f.type.toNat = 10 ↔ f.type = 10 := by rw [← BitVec.toNat_inj]; rfl
    simp only [rounding_eq, beq_iff_eq, htype]
    split_ifs
    all_goals exact ⟨rfl, rfl⟩
  · have hexec : exec (.vrng g f) s = (s.draw 64).2.lanewise g f.d 4 4 0x36 fun _ i =>
        if f.type == 6 then ((s.draw 64).1[i]?.getD 0, 0)
        else roundToFp (Val.ofQ (Q.dyadic ((s.draw 64).1[i]?.getD 0 / 2 ^ 8 : Nat) (-24)) false) 10 0 false 0 := by
      show execVrng g f s = _
      simp [execVrng, h]
    refine State.lanewise_lanes (((s.draw_same 64).iterates g).trans h) hexec fun j _ => ?_
    simp only [beq_iff_eq]
    split_ifs
    · exact ⟨rfl, rfl⟩
    · exact ⟨rfl, rfl⟩

/-! ## Conversions (R171) -/

/-- The flags that the enabled lanes of a run raise. -/
theorem flagged_enabledLanes (s : State) (g : Gate) (w : Nat) (flags : Nat → Flags) :
    Claims.flagged s g w (256 / w)
      (((enabledLanes (s.cur.pv' g.guard.toNat) w).map fun i => (i, flags i)).filter fun x => x.2 != 0) flags := by
  intro j u
  simp only [List.mem_filter, List.mem_map, Prod.mk.injEq, mem_enabledLanes, bne_iff_ne, Claims.enabled]
  constructor
  · rintro ⟨⟨i, ⟨hi, hen⟩, rfl, rfl⟩, hu⟩
    exact ⟨hi, hen, rfl, hu⟩
  · rintro ⟨hj, hen, rfl, hu⟩
    exact ⟨⟨j, ⟨hj, hen⟩, rfl, rfl⟩, hu⟩

/-- A part of a register that the enabled lanes fill from lane `first` on. -/
theorem parts_enabledLanes (s : State) (g : Gate) (ws wt first : Nat) (value : Nat → Nat) :
    Claims.parts s g ws wt first (256 / ws)
      (packLanes wt ((enabledLanes (s.cur.pv' g.guard.toNat) ws).map fun i => (first + i, value i)))
      (maskLanes wt ((enabledLanes (s.cur.pv' g.guard.toNat) ws).map fun i => first + i)) fun j => value j % 2 ^ (8 * wt) := by
  intro j hj
  have hbits := lane_maskLanes hj _ (nodup_map_enabledLanes (add_right_injective first) (s.cur.pv' g.guard.toNat) ws)
  have hiff : j ∈ (enabledLanes (s.cur.pv' g.guard.toNat) ws).map (fun i => first + i) ↔
      first ≤ j ∧ j < first + 256 / ws ∧ Claims.enabled s g ws (j - first) = true := by
    simp only [List.mem_map, mem_enabledLanes, Claims.enabled]
    constructor
    · rintro ⟨i, ⟨hi, hen⟩, rfl⟩
      rw [Nat.add_sub_cancel_left]
      exact ⟨Nat.le_add_right _ _, by omega, hen⟩
    · rintro ⟨hle, hlt, hen⟩
      exact ⟨j - first, ⟨by omega, hen⟩, by omega⟩
  split_ifs with hin
  · rw [if_pos (hiff.mpr hin)] at hbits
    refine ⟨?_, hbits⟩
    obtain ⟨i, hi, rfl⟩ := List.mem_map.mp (hiff.mpr hin)
    rw [Nat.add_sub_cancel_left]
    exact lane_packLanes_enabled (add_right_injective first) value hi hj
  · rwa [if_neg (hiff.not.mpr hin)] at hbits

/-- A vector instruction that draws and whose iteration condition holds works from the state that its draw leaves. -/
theorem State.vector_drawing {s : State} {g : Gate} (h : s.iterates g = true) (f : FormA) (n : Nat) (k : State → Core → Mask → State) :
    (if !s.iterates g then Host.Outcome.next s else (s.drawIf f.rnd.toNat n).2.vector g k : Result) =
      .next (k (Claims.drawn s f n).2 (Claims.drawn s f n).2.cur (s.cur.pv' g.guard.toNat)) := by
  have same := Claims.drawn_same s f n
  rw [State.drawIf_eq, State.vector_on ((same.iterates g).trans h), same.pv', h]
  rfl

theorem typeBytes_eq (f : FormA) : typeBytes f.type.toNat = Claims.width f := rfl

section Conversions

variable {s : State} {g : Gate} (h : s.iterates g = true) (f : FormA)

/-- The draws of a conversion. -/
abbrev Claims.draws (s : State) (f : FormA) : List Nat × State := Claims.drawn s f (256 / Claims.width f)

/-- R171: lane `j` converted, with its flags. -/
def convertedLane (s : State) (f : FormA) (j : Nat) : Nat × Flags :=
  convertAny f.type.toNat (f.func.toNat % 32) (Claims.at s.cur f f.a j) (Claims.mode s.cur f) (f.sat == 1)
    ((Claims.draws s f).1[j]?.getD 0)

/-- R171: lane `j` narrowed, its residual, and the flags of both. -/
def fedLane (s : State) (f : FormA) (j : Nat) : Nat × Nat × Flags :=
  narrowFeedback f.type.toNat (f.func.toNat % 32) (Claims.at s.cur f f.a j) (Claims.mode s.cur f) (f.sat == 1)
    ((Claims.draws s f).1[j]?.getD 0)

include h

theorem vcvt_completes : ∃ t, exec (.vcvt g f) s = .next t ∧ Claims.lanes (Claims.draws s f).2 t g f.d (Claims.width f) 4 0x29
    (fun j => (convertedLane s f j).1 % Claims.range f) fun j => (convertedLane s f j).2 := by
  have same := Claims.drawn_same s f (256 / Claims.width f)
  have hexec : execVcvt g f s = (Claims.draws s f).2.lanewise g f.d (Claims.width f) 4 0x29 fun c i =>
      convertAny f.type.toNat (convTarget f) (Claims.at c f f.a i) (c.ctl.rounding f.rnd.toNat) (f.sat == 1)
        ((Claims.draws s f).1[i]?.getD 0) := by
    simp only [execVcvt, h, Bool.not_true, Bool.false_eq_true, if_false, State.drawIf_eq]
    rfl
  refine State.lanewise_lanes ((same.iterates g).trans h) (show exec (.vcvt g f) s = _ from hexec) fun j _ => ?_
  rw [rounding_eq, same.mode, same.at_eq]
  exact ⟨rfl, rfl⟩

/-- What VNRW puts in flight: the converted lanes in their part. -/
theorem exec_vnrw {en : Mask} (hen : en = s.cur.pv' g.guard.toNat) {first : Nat} (hfirst : first = f.func.toNat / 32 % 8 * (256 / Claims.width f)) :
    exec (.vnrw g f) s = .next ((Claims.draws s f).2.flight (vOffset 4 f.d.toNat) 0x2A
      [.v f.d.toNat
        (packLanes (typeBytes (f.func.toNat % 32)) ((enabledLanes en (Claims.width f)).map fun i => (first + i, (convertedLane s f i).1)))
        (maskLanes (typeBytes (f.func.toNat % 32)) ((enabledLanes en (Claims.width f)).map fun i => first + i))]
      (unitGroup s.curT.slot)
      (((enabledLanes en (Claims.width f)).map fun i => (i, (convertedLane s f i).2)).filter fun x => x.2 != 0) none) := by
  have same := Claims.drawn_same s f (256 / Claims.width f)
  subst hen hfirst
  refine (State.vector_drawing h f _ _).trans ?_
  simp only [State.drawIf_eq, typeBytes_eq, laneFlags, List.map_map, same.curT, same.v', same.mode, rounding_eq, Function.comp_def]
  rfl

/-- What VNRWF puts in flight: the narrowed lanes in their part, and the residuals in the lanes they come from. -/
theorem exec_vnrwf {en : Mask} (hen : en = s.cur.pv' g.guard.toNat) {first : Nat}
    (hfirst : first = f.func.toNat / 32 % 8 * (256 / Claims.width f)) :
    exec (.vnrwf g f) s = .next ((Claims.draws s f).2.flight2 4 0x2B f.d.toNat f.c.toNat
      (.v f.d.toNat
        (packLanes (typeBytes (f.func.toNat % 32)) ((enabledLanes en (Claims.width f)).map fun i => (first + i, (fedLane s f i).1)))
        (maskLanes (typeBytes (f.func.toNat % 32)) ((enabledLanes en (Claims.width f)).map fun i => first + i)))
      (.v f.c.toNat (packLanes (Claims.width f) ((enabledLanes en (Claims.width f)).map fun i => (0 + i, (fedLane s f i).2.1)))
        (maskLanes (Claims.width f) ((enabledLanes en (Claims.width f)).map fun i => 0 + i)))
      (unitGroup s.curT.slot)
      (((enabledLanes en (Claims.width f)).map fun i => (i, (fedLane s f i).2.2)).filter fun x => x.2 != 0)) := by
  have same := Claims.drawn_same s f (256 / Claims.width f)
  subst hen hfirst
  refine (State.vector_drawing h f _ _).trans ?_
  simp only [State.drawIf_eq, typeBytes_eq, List.map_map, Nat.zero_add, same.curT, same.v', same.mode, rounding_eq, Function.comp_def]
  rfl

end Conversions

/-- Settles O19: VCVT and VWID are lane-wise; VNRW and VNRWF fill a part, and the residual's own lanes, with what their lanes give. -/
theorem vectorConversionsComplete : Obligations.VectorConversionsComplete := by
  intro g f s h ts tt wt ws n part d out fed wide
  refine ⟨vcvt_completes h f, State.lanewise_lanes h (Eq.refl (execVwid g f s)) fun j _ => ⟨rfl, rfl⟩, fun _ => ⟨?_, ?_⟩⟩
  · exact ⟨_, _, _, exec_vnrw h f rfl rfl, parts_enabledLanes s g ws wt _ _, flagged_enabledLanes s g ws _⟩
  · exact ⟨_, _, _, _, _, exec_vnrwf h f rfl rfl, parts_enabledLanes s g ws wt _ _, parts_enabledLanes s g ws ws 0 _,
      flagged_enabledLanes s g ws _⟩

end Sys2Proof.Machine

/-! SUPPORT. Block formats: shared exponents, mantissas packed into fields of any width, and codes that park (06_vector R172 to R175). -/

namespace Sys2Proof.Machine

open Sys2Proof

/-! ## Fields of `m` bits (R156, R173) -/

/-- Values in the `m`-bit fields of a register; the fields listed are distinct. -/
def packFields (m : Nat) (ls : List (Nat × Nat)) : VReg :=
  BitVec.ofNat 2048 (ls.foldl (fun (x : Nat) (l : Nat × Nat) => x + l.2 % 2 ^ m * 2 ^ (m * l.1)) 0)

section Fields

variable {m : Nat} (hm : 0 < m) {ls : List (Nat × Nat)} (hd : (ls.map (·.1)).Nodup)

include hm hd

/-- A field of the register is that of the sum. -/
theorem packFields_at {p : Nat} (hp : p * m + m ≤ 2048) : (packFields m ls).toNat / 2 ^ (p * m) % 2 ^ m =
    match ls.find? fun l => l.1 == p with
      | some l => l.2 % 2 ^ m
      | none => 0 := by
  refine Eq.trans ?_ (foldl_placed_at m hm ls hd p)
  rw [packFields, BitVec.toNat_ofNat, div_mod_trunc _ _ _ _ hp, Nat.mul_comm p]

theorem packFields_of_mem {p v : Nat} (hp : p * m + m ≤ 2048) (h : (p, v) ∈ ls) :
    (packFields m ls).toNat / 2 ^ (p * m) % 2 ^ m = v % 2 ^ m := by
  rw [packFields_at hm hd hp, find?_fst_of_mem hd h]

theorem packFields_of_not_mem {p : Nat} (hp : p * m + m ≤ 2048) (h : ∀ l ∈ ls, l.1 ≠ p) :
    (packFields m ls).toNat / 2 ^ (p * m) % 2 ^ m = 0 := by
  rw [packFields_at hm hd hp, find?_fst_of_not_mem h]

/-- A bit outside the fields listed is clear. -/
theorem getLsbD_packFields_of_not_mem {k : Nat} (h : ∀ l ∈ ls, l.1 ≠ k / m) : (packFields m ls).getLsbD k = false := by
  rw [packFields, BitVec.getLsbD_ofNat, testBit_foldl_placed m hm ls hd, Bool.and_eq_false_iff]
  right
  rw [List.any_eq_false]
  intro l hl
  simp [(h l hl).symm]

end Fields

/-! ## Mantissas (R173) -/

/-- A number held to a magnitude. -/
theorem heldMagnitude_eq {lim : Int} (h : 0 ≤ lim) (k : Int) :
    (if lim < k.natAbs then (if k < 0 then -lim else lim) else k) = max (-lim) (min lim k) := by
  split_ifs <;> omega

/-- R173: a rounded quotient that is held leaves the flags of the holding, of the rounding and of the loss. -/
theorem heldMantissa_eq (num : Q) (m : Nat) (unit k : Int) :
    let lim : Int := 2 ^ (m - 1) - 1
    let k' := if lim < k.natAbs then (if k < 0 then -lim else lim) else k
    let held := max (-lim) (min lim k)
    (k', (if lim < k.natAbs then fNx ||| fSa else 0) ||| (if (Q.dyadic k' unit).eq num then 0 else fNx) |||
        (if k' == 0 && !num.isZero then fUf else 0)) =
      (held, (if held = k then 0 else fNx ||| fSa) ||| (if (Q.dyadic held unit).eq num = true then 0 else fNx) |||
        (if held = 0 ∧ num.isZero = false then fUf else 0)) := by
  intro lim k' held
  have hlim : 0 ≤ lim := Int.sub_nonneg_of_le (Int.add_one_le_of_lt (pow_pos (by decide) _))
  have hk : k' = held := heldMagnitude_eq hlim k
  have hself : held = k ↔ ¬lim < k.natAbs := by omega
  simp only [hk, hself, ite_not, Bool.and_eq_true, beq_iff_eq, Bool.not_eq_true']

/-- R173: the model's mantissa is the rounded quotient held to the greatest magnitude. -/
theorem quantiseLane_eq (v : Val) (m e rnd w : Nat) : quantiseLane v m e rnd w = Claims.mantissa v m e rnd w := by
  have h := heldMantissa_eq v.num m ((e : Int) - 127 - ((m : Int) - 1)) (roundInt (v.num.scale ((e : Int) - 127 - ((m : Int) - 1))) rnd w)
  cases v with
  | nan _ => rfl
  | inf _ => rfl
  | zero neg => exact h
  | fin q => exact h

/-! ## The instructions (R172 to R175) -/

section Blocks

variable {s : State} {g : Gate} (h : s.iterates g = true) (f : FormA)

/-- Byte 0 of b: the shared exponent. -/
def sharedExp (s : State) (f : FormA) : Nat := lane (s.cur.v' f.b.toNat) 1 0

/-- The bits of a mantissa. -/
def mantBits (f : FormA) : Nat := blockBits (f.func.toNat % 32)

/-- The field of lane `j` in its part of a register (R173, R174). -/
def blockField (f : FormA) (j : Nat) : Nat := f.func.toNat / 32 * (256 / Claims.width f) + j

/-- The mantissa of lane `j` with its flags. -/
def mantissaLane (s : State) (f : FormA) (j : Nat) : Int × Flags :=
  Claims.mantissa (Claims.val s.cur f f.a j) (mantBits f) (sharedExp s f) (Claims.mode s.cur f) ((Claims.draws s f).1[j]?.getD 0)

/-- The code of lane `j` in its part of a. -/
def blockCode (s : State) (f : FormA) (j : Nat) : Nat :=
  (s.cur.v' f.a.toNat).toNat / 2 ^ (f.func.toNat / 32 * (256 / Claims.width f) * mantBits f + j * mantBits f) % 2 ^ mantBits f

/-- The lane at which a code of VDQB parks, with its value for TVAL (R175). -/
def parkedCode (s : State) (g : Gate) (f : FormA) : Option (Nat × Word) :=
  if sharedExp s f == 255 then some (0, word (255 + 2 ^ 16))
  else ((enabledLanes (s.cur.pv' g.guard.toNat) (Claims.width f)).find? fun i => reservedMant (mantBits f) (blockCode s f i)).map fun i =>
    (i, word (sharedExp s f + blockCode s f i * 2 ^ 8))

include h

/-- A reserved scale parks VQB at lane 0. -/
theorem exec_vqb_reserved (he : sharedExp s f = 255) :
    exec (.vqb g f) s = .next (Claims.parks (Claims.draws s f).2 f 0x2E (0, BitVec.ofNat 64 (255 + 2 ^ 16))) := by
  have same := Claims.drawn_same s f (256 / Claims.width f)
  rw [sharedExp] at he
  refine (State.vector_drawing h f _ _).trans ?_
  simp only [typeBytes_eq, same.v', he, beq_self_eq_true, if_true]
  rfl

/-- What VQB puts in flight under a scale that is not reserved: the mantissas of the enabled lanes in their fields. -/
theorem exec_vqb {en : Mask} (hen : en = s.cur.pv' g.guard.toNat) (he : sharedExp s f ≠ 255) :
    exec (.vqb g f) s = .next ((Claims.draws s f).2.flight (vOffset 4 f.d.toNat) 0x2E
      [.v f.d.toNat
        (packFields (mantBits f) ((enabledLanes en (Claims.width f)).map fun i =>
          (blockField f i, wrapBits (mantBits f) (mantissaLane s f i).1)))
        (packFields (mantBits f) ((enabledLanes en (Claims.width f)).map fun i => (blockField f i, 2 ^ mantBits f - 1)))]
      (unitGroup s.curT.slot)
      (((enabledLanes en (Claims.width f)).map fun i => (i, (mantissaLane s f i).2)).filter fun x => x.2 != 0) none) := by
  have same := Claims.drawn_same s f (256 / Claims.width f)
  subst hen
  have he' : (lane (s.cur.v' f.b.toNat) 1 0 == 255) = false := beq_eq_false_iff_ne.mpr he
  have hplace : ∀ i, f.func.toNat / 32 * (256 / Claims.width f) * mantBits f + i * mantBits f = mantBits f * blockField f i := fun i => by
    rw [blockField]; ring
  have hones : (2 ^ mantBits f - 1) % 2 ^ mantBits f = 2 ^ mantBits f - 1 := Nat.mod_eq_of_lt (Nat.sub_lt (Nat.two_pow_pos _) Nat.one_pos)
  refine (State.vector_drawing h f _ _).trans ?_
  simp only [State.drawIf_eq, typeBytes_eq, quantiseLane_eq, same.curT, same.v', same.mode, rounding_eq, he', List.map_map,
    Function.comp_def, List.foldl_map]
  simp only [packFields, List.foldl_map, hones, Nat.mod_eq_of_lt (wrapBits_lt _ _), ← hplace]
  rfl

/-- What VDQB puts in flight where a code parks it. -/
theorem exec_vdqb_parks {p : Nat × Word} (hp : parkedCode s g f = some p) :
    exec (.vdqb g f) s = .next (Claims.parks (Claims.draws s f).2 f 0x2F p) := by
  have same := Claims.drawn_same s f (256 / Claims.width f)
  refine (State.vector_drawing h f _ _).trans ?_
  unfold parkedCode sharedExp blockCode mantBits at hp
  simp only [typeBytes_eq, same.v', convTarget]
  rw [hp]
  rfl

/-- What VDQB puts in flight where no code parks it: the values of the enabled lanes. -/
theorem exec_vdqb_lands (hp : parkedCode s g f = none) :
    exec (.vdqb g f) s = (Claims.draws s f).2.lanewise g f.d (Claims.width f) 4 0x2F fun c i =>
      roundToFp (blockVal (mantBits f) (blockCode s f i) (sharedExp s f)) f.type.toNat (c.ctl.rounding f.rnd.toNat) (f.sat == 1)
        ((Claims.draws s f).1[i]?.getD 0) := by
  have same := Claims.drawn_same s f (256 / Claims.width f)
  refine (State.vector_drawing h f _ _).trans ?_
  rw [State.lanewise, State.vector_on ((same.iterates g).trans h)]
  unfold parkedCode sharedExp blockCode mantBits at hp
  simp only [State.drawIf_eq, typeBytes_eq, same.v', same.pv', convTarget]
  rw [hp]
  rfl

end Blocks

theorem blockField_injective (f : FormA) : (blockField f).Injective := add_right_injective _

/-- The enabled lanes' fields of a part, each with a value: no other field of the part is written, and nothing outside it. -/
theorem packFields_enabled (s : State) (g : Gate) {f : FormA} {m : Nat} (hm : 0 < m)
    (hfit : (f.func.toNat / 32 + 1) * (256 / Claims.width f) * m ≤ 2048) (value : Nat → Nat) :
    let x := packFields m ((enabledLanes (s.cur.pv' g.guard.toNat) (Claims.width f)).map fun i => (blockField f i, value i))
    (∀ j < 256 / Claims.width f, x.toNat / 2 ^ (blockField f j * m) % 2 ^ m =
      if Claims.enabled s g (Claims.width f) j = true then value j % 2 ^ m else 0) ∧
    ∀ k, k < f.func.toNat / 32 * (256 / Claims.width f) * m ∨ (f.func.toNat / 32 + 1) * (256 / Claims.width f) * m ≤ k →
      x.getLsbD k = false := by
  intro x
  have hd : (((enabledLanes (s.cur.pv' g.guard.toNat) (Claims.width f)).map fun i => (blockField f i, value i)).map (·.1)).Nodup := by
    rw [List.map_map]
    exact nodup_map_enabledLanes (blockField_injective f) _ _
  refine ⟨fun j hj => ?_, fun k hk => ?_⟩
  · have hp : blockField f j * m + m ≤ 2048 := by
      refine le_trans ?_ hfit
      rw [← Nat.succ_mul, Nat.add_mul, Nat.one_mul]
      exact Nat.mul_le_mul_right m (by rw [blockField]; omega)
    split_ifs with hen
    · exact packFields_of_mem hm hd hp (List.mem_map.mpr ⟨j, mem_enabledLanes.mpr ⟨hj, hen⟩, rfl⟩)
    · refine packFields_of_not_mem hm hd hp fun l hl hlj => ?_
      obtain ⟨i, hi, rfl⟩ := List.mem_map.mp hl
      obtain rfl := blockField_injective f hlj
      exact hen (mem_enabledLanes.mp hi).2
  · refine getLsbD_packFields_of_not_mem hm hd fun l hl hlk => ?_
    obtain ⟨i, hi, rfl⟩ := List.mem_map.mp hl
    have hlt := (mem_enabledLanes.mp hi).1
    rw [blockField] at hlk
    have hlo := (Nat.le_div_iff_mul_le hm).mp ((Nat.le_add_right (f.func.toNat / 32 * (256 / Claims.width f)) i).trans_eq hlk)
    have hhi : k / m < (f.func.toNat / 32 + 1) * (256 / Claims.width f) := by rw [← hlk, Nat.add_mul, Nat.one_mul]; omega
    have hhi' := (Nat.div_lt_iff_lt_mul hm).mp hhi
    omega

/-- A fill of all bytes with an exponent held to 0 .. 254 (R172, R176). -/
theorem lane_fill (n : Int) {j : Nat} (hj : j < 256) :
    (lane (packLanes 1 ((List.range 256).map fun i => (i, (clampInt 0 254 n).toNat))) 1 j : Int) = max 0 (min 254 n) := by
  have hd : (((List.range 256).map fun i => (i, (clampInt 0 254 n).toNat)).map (·.1)).Nodup := by
    simpa [List.map_map, Function.comp_def] using List.nodup_range
  rw [lane_packLanes_of_mem (by omega) hd (List.mem_map.mpr ⟨j, List.mem_range.mpr hj, rfl⟩), clampInt_eq (by decide)]
  omega

/-- The exponent of R172 before it is held to its range. -/
def unheldExp (amax : Q) : Int := if amax.isZero then 0 else amax.log2 + 128

theorem heldExp_eq (amax : Q) : (if amax.isZero then 0 else clampInt 0 254 (amax.log2 + 128)) = clampInt 0 254 (unheldExp amax) := by
  rw [unheldExp]
  split_ifs <;> rfl

theorem heldExp_spec (amax : Q) :
    max 0 (min 254 (unheldExp amax)) = if amax.isZero = true then 0 else max 0 (min 254 (amax.log2 + 128)) := by
  rw [unheldExp]
  split_ifs <;> rfl

/-- R172: nv for exactly the enabled lanes that hold no number. -/
theorem flagged_special (s : State) (g : Gate) (w : Nat) (val : Nat → Val) :
    Claims.flagged s g w (256 / w) ((((enabledLanes (s.cur.pv' g.guard.toNat) w).map fun i => (i, val i)).filter fun x =>
      x.2.isNan || x.2.isInf).map fun x => (x.1, fNv)) fun j => if (val j).isNan = true ∨ (val j).isInf = true then fNv else 0 := by
  intro j u
  simp only [List.mem_map, List.mem_filter, Bool.or_eq_true, Prod.mk.injEq, mem_enabledLanes, Claims.enabled]
  constructor
  · rintro ⟨_, ⟨⟨i, ⟨hi, hen⟩, rfl⟩, hval⟩, rfl, rfl⟩
    exact ⟨hi, hen, (if_pos hval).symm, by decide⟩
  · rintro ⟨hj, hen, rfl, hu⟩
    have hval : (val j).isNan = true ∨ (val j).isInf = true := by
      by_contra hno
      exact hu (if_neg hno)
    exact ⟨_, ⟨⟨j, ⟨hj, hen⟩, rfl⟩, hval⟩, rfl, (if_pos hval).symm⟩

/-- What VBEXP puts in flight: the shared exponent in every byte, and nv for the lanes that are not numbers. -/
theorem exec_vbexp {s : State} {g : Gate} (h : s.iterates g = true) (f : FormA) {ls : List Nat}
    (hls : ls = enabledLanes (s.cur.pv' g.guard.toNat) (Claims.width f)) :
    let amax := maxAbs (ls.map fun i => (Claims.val s.cur f f.a i).num)
    exec (.vbexp g f) s = .next (s.flight (vOffset 4 f.d.toNat) 0x2D
      [.v f.d.toNat (packLanes 1 ((List.range 256).map fun i =>
        (i, (clampInt 0 254 (unheldExp amax)).toNat))) (BitVec.allOnes 2048)]
      (unitGroup s.curT.slot)
      (((ls.map fun i => (i, Claims.val s.cur f f.a i)).filter fun x => x.2.isNan || x.2.isInf).map fun x => (x.1, fNv)) none) := by
  intro amax
  subst hls
  show execVbexp g f s = _
  rw [execVbexp, State.vector_on h]
  simp only [List.map_map, Function.comp_def, heldExp_eq]
  rfl

/-- The enabled lanes among which VDQB looks for a reserved code are in ascending order, so it finds the lowest. -/
theorem find?_enabledLanes {en : Mask} {w j : Nat} {p : Nat → Bool} (hj : j ∈ enabledLanes en w) (hp : p j = true)
    (hleast : ∀ i ∈ enabledLanes en w, i < j → p i = false) : (enabledLanes en w).find? p = some j := by
  obtain ⟨hlt, hen⟩ := mem_enabledLanes.mp hj
  rw [enabledLanes, List.find?_filter, List.find?_range_eq_some]
  refine ⟨by simp [hen, hp], List.mem_range.mpr hlt, fun i hi => ?_⟩
  by_cases heni : en.getLsbD (w * i) = true
  · simp [hleast i (mem_enabledLanes.mpr ⟨hi.trans hlt, heni⟩) hi]
  · simp [heni]

/-- Settles O20: VQB by the fields of its part, VDQB by the first reserved code among the enabled lanes. -/
theorem vectorBlocksComplete : Obligations.VectorBlocksComplete := by
  intro g f s h w n m part e d live val code mant back
  refine ⟨⟨_, _, exec_vbexp h f rfl, fun j hj => (lane_fill _ hj).trans (heldExp_spec _), flagged_special s g w _⟩,
    fun he => ⟨exec_vqb_reserved h f he, exec_vdqb_parks h f (by rw [parkedCode, show sharedExp s f = 255 from he]; rfl)⟩,
    fun he hm hfit => ?_⟩
  have hscale : (sharedExp s f == 255) = false := beq_eq_false_iff_ne.mpr he
  refine ⟨?_, fun hnone => ?_, fun j hj hcode hleast => exec_vdqb_parks h f ?_⟩
  · have hfields := packFields_enabled s g (f := f) hm hfit
    refine ⟨_, _, _, exec_vqb h f rfl he, fun j hj => ?_, fun k _ hout => (hfields _).2 k hout, flagged_enabledLanes s g w _⟩
    have hx := (hfields fun i => wrapBits m (mant i).1).1 j hj
    have hbits := (hfields fun _ => 2 ^ m - 1).1 j hj
    split_ifs with hen
    · rw [if_pos hen] at hx hbits
      exact ⟨hx.trans (Nat.mod_eq_of_lt (wrapBits_lt _ _)), hbits.trans (Nat.mod_eq_of_lt (Nat.sub_lt (Nat.two_pow_pos m) Nat.one_pos))⟩
    · rwa [if_neg hen] at hbits
  · have same := Claims.drawn_same s f n
    have hp : parkedCode s g f = none := by
      rw [parkedCode, hscale, if_neg Bool.false_ne_true, Option.map_eq_none_iff, List.find?_eq_none]
      exact fun j hj hres => hnone j hj (beq_iff_eq.mp hres)
    refine State.lanewise_lanes ((same.iterates g).trans h) (exec_vdqb_lands h f hp) fun j _ => ?_
    rw [rounding_eq, same.mode]
    exact ⟨rfl, rfl⟩
  · have hfind := find?_enabledLanes (p := fun i => reservedMant (mantBits f) (blockCode s f i)) hj (beq_iff_eq.mpr hcode)
      fun i hi hlt => beq_eq_false_iff_ne.mpr (hleast i hi hlt)
    rw [parkedCode, hscale, if_neg Bool.false_ne_true, hfind]
    rfl

end Sys2Proof.Machine

/-! SUPPORT. The MX forms: exact numbers as rationals, the base-two logarithm, and the least exponent that fits (02_numbers R50,
06_vector R176). -/

namespace Sys2Proof.Machine

open Sys2Proof

/-! ## Exact numbers as rationals -/

/-- The rational that a number stands for. -/
def Q.toRat (q : Q) : ℚ := q.num / q.den

theorem Q.dyadic_den_pos (m e : Int) : 0 < (Q.dyadic m e).den := by
  rw [Q.dyadic]
  split_ifs
  · exact Nat.one_pos
  · exact Nat.two_pow_pos _

theorem Q.toRat_dyadic (m e : Int) : (Q.dyadic m e).toRat = m * 2 ^ e := by
  rw [Q.dyadic]
  split_ifs with he
  · obtain ⟨n, rfl⟩ := Int.eq_ofNat_of_zero_le he
    simp [Q.toRat]
  · obtain ⟨n, rfl⟩ := Int.eq_ofNat_of_zero_le (Int.neg_nonneg_of_nonpos (not_le.mp he).le) |>.imp fun n hn => neg_eq_iff_eq_neg.mp hn
    simp [Q.toRat, div_eq_mul_inv]

theorem Q.le_iff {x y : Q} (hx : 0 < x.den) (hy : 0 < y.den) : x.le y = true ↔ x.toRat ≤ y.toRat := by
  rw [Q.le, decide_eq_true_eq, Q.toRat, Q.toRat, div_le_div_iff₀ (Nat.cast_pos.mpr hx) (Nat.cast_pos.mpr hy)]
  exact_mod_cast Iff.rfl

/-- The logarithm of a natural number bounds it by powers of two. -/
theorem natLog2_bounds {n : Nat} (h : n ≠ 0) : (2 : ℚ) ^ (n.log2 : Int) ≤ n ∧ (n : ℚ) < 2 ^ ((n.log2 : Int) + 1) := by
  refine ⟨?_, ?_⟩
  · exact_mod_cast Nat.log2_self_le h
  · exact_mod_cast Nat.lt_log2_self

/-- Whether a quotient lies below a power of two, as the logarithm compares them. -/
theorem below_iff {n d : Nat} (hd : 0 < d) (l : Int) :
    (if 0 ≤ l then decide (n < d * 2 ^ l.toNat) else decide (n * 2 ^ (-l).toNat < d)) = true ↔ (n : ℚ) / d < 2 ^ l := by
  have hd' : (0 : ℚ) < d := Nat.cast_pos.mpr hd
  split_ifs with hl
  · obtain ⟨k, rfl⟩ := Int.eq_ofNat_of_zero_le hl
    rw [decide_eq_true_eq, div_lt_iff₀ hd', zpow_natCast, mul_comm]
    exact_mod_cast Iff.rfl
  · obtain ⟨k, hk⟩ := Int.eq_ofNat_of_zero_le (Int.neg_nonneg_of_nonpos (not_le.mp hl).le)
    obtain rfl : l = -(k : Int) := neg_eq_iff_eq_neg.mp hk
    rw [decide_eq_true_eq, neg_neg, Int.toNat_natCast, zpow_neg, zpow_natCast, div_lt_iff₀ hd', inv_mul_eq_div, lt_div_iff₀ (by positivity)]
    exact_mod_cast Iff.rfl

/-- The logarithm of a number bounds its magnitude by powers of two. -/
theorem Q.log2_bounds {q : Q} (hd : 0 < q.den) (hn : q.num ≠ 0) : (2 : ℚ) ^ q.log2 ≤ |q.toRat| ∧ |q.toRat| < 2 ^ (q.log2 + 1) := by
  have habs : |q.toRat| = (q.num.natAbs : ℚ) / q.den := by
    rw [Q.toRat, abs_div, Nat.abs_cast, Nat.cast_natAbs, Int.cast_abs]
  obtain ⟨hnlo, hnhi⟩ := natLog2_bounds (Int.natAbs_ne_zero.mpr hn)
  obtain ⟨hdlo, hdhi⟩ := natLog2_bounds hd.ne'
  have hd' : (0 : ℚ) < q.den := Nat.cast_pos.mpr hd
  have hlo : (2 : ℚ) ^ ((q.num.natAbs.log2 : Int) - q.den.log2 - 1) ≤ |q.toRat| := by
    rw [habs, sub_sub, zpow_sub₀ two_ne_zero]
    exact div_le_div₀ (Nat.cast_nonneg _) hnlo hd' hdhi.le
  have hhi : |q.toRat| < 2 ^ ((q.num.natAbs.log2 : Int) - q.den.log2 + 1) := by
    rw [habs, sub_add_eq_add_sub, zpow_sub₀ two_ne_zero]
    exact div_lt_div₀ hnhi hdlo (by positivity) (by positivity)
  have hbelow := below_iff (n := q.num.natAbs) hd ((q.num.natAbs.log2 : Int) - q.den.log2)
  rw [← habs] at hbelow
  unfold Q.log2
  by_cases h : |q.toRat| < 2 ^ ((q.num.natAbs.log2 : Int) - q.den.log2)
  · simp only [hbelow.mpr h, if_true, sub_add_cancel]
    exact ⟨hlo, h⟩
  · simp only [Bool.not_eq_true _ ▸ hbelow.not.mpr h, Bool.false_eq_true, if_false]
    exact ⟨not_lt.mp h, hhi⟩

/-! ## The least exponent that fits (R50) -/

/-- Whether a magnitude fits a signed mantissa of seven bits under an exponent. -/
def Q.fits (q : Q) (e : Int) : Bool := q.le (Q.dyadic 127 (e - 134))

theorem Q.fits_iff {q : Q} (hd : 0 < q.den) (e : Int) : q.fits e = true ↔ q.toRat ≤ 127 * 2 ^ (e - 134) := by
  rw [Q.fits, Q.le_iff hd (Q.dyadic_den_pos _ _), Q.toRat_dyadic]
  norm_num

/-- Tried upwards from a place below which the magnitude does not fit, the search ends at the least exponent that fits. -/
theorem mxFitFrom_spec {q : Q} (fuel : Nat) (e : Int) (hbelow : q.fits (e - 1) = false) (hfits : ∃ k : Nat, k < fuel ∧ q.fits (e + k) = true) :
    q.fits (mxFitFrom fuel q e) = true ∧ q.fits (mxFitFrom fuel q e - 1) = false := by
  induction fuel generalizing e with
  | zero =>
    obtain ⟨k, hk, -⟩ := hfits
    exact absurd hk (Nat.not_lt_zero k)
  | succ fuel ih =>
    have hunfold : mxFitFrom (fuel + 1) q e = if q.fits e then e else mxFitFrom fuel q (e + 1) := rfl
    rw [hunfold]
    split_ifs with he
    · exact ⟨he, hbelow⟩
    · obtain ⟨_ | k, hk, hfit⟩ := hfits
      · exact absurd (by simpa using hfit) he
      · refine ih (e + 1) (by simpa using he) ⟨k, Nat.lt_of_succ_lt_succ hk, ?_⟩
        rwa [Int.add_assoc, Int.add_comm 1, ← Int.natCast_succ]

/-- R50: three exponents from the logarithm on hold the least one that fits. -/
theorem mxFit_spec {q : Q} (hd : 0 < q.den) (hpos : 0 < q.num) : q.fits (mxFit q) = true ∧ q.fits (mxFit q - 1) = false := by
  have habs : |q.toRat| = q.toRat := abs_of_nonneg (by rw [Q.toRat]; positivity)
  obtain ⟨hlo, hhi⟩ := Q.log2_bounds hd hpos.ne'
  rw [habs] at hlo hhi
  refine mxFitFrom_spec 3 _ ?_ ⟨2, by decide, ?_⟩
  · rw [← Bool.not_eq_true, Q.fits_iff hd, not_le, show q.log2 + 127 - 1 - 134 = q.log2 - 8 by ring]
    refine lt_of_lt_of_le ?_ hlo
    rw [show q.log2 = q.log2 - 8 + 8 by ring, zpow_add₀ two_ne_zero, add_sub_cancel_right, mul_comm]
    exact mul_lt_mul_of_pos_left (by norm_num) (by positivity)
  · rw [Q.fits_iff hd, show q.log2 + 127 + (2 : Nat) - 134 = q.log2 + 1 - 6 by push_cast; ring]
    refine hhi.le.trans ?_
    rw [show q.log2 + 1 = q.log2 + 1 - 6 + 6 by ring, zpow_add₀ two_ne_zero, add_sub_cancel_right, mul_comm]
    exact mul_le_mul_of_nonneg_right (by norm_num) (by positivity)

/-! ## Magnitudes of MX elements -/

theorem Q.mul_den_pos {x y : Q} (hx : 0 < x.den) (hy : 0 < y.den) : 0 < (x.mul y).den := Nat.mul_pos hx hy

theorem Val.num_den_pos {v : Val} (h : ∀ q, v = .fin q → 0 < q.den) : 0 < v.num.den := by
  cases v with
  | fin q => exact h q rfl
  | nan _ | inf _ | zero _ => exact Nat.one_pos

theorem Val.num_ofQ_den_pos {q : Q} (h : 0 < q.den) (neg : Bool) : 0 < (Val.ofQ q neg).num.den := by
  rw [Val.ofQ]
  split_ifs
  · exact Nat.one_pos
  · exact h

theorem magToQ_den_pos (t bits : Nat) : 0 < (magToQ t bits).den := by
  rw [magToQ]
  split_ifs <;> exact Q.dyadic_den_pos _ _

/-- A sign leaves the denominator. -/
theorem Q.signed_den (neg : Bool) (q : Q) : (if neg then q.neg else q).den = q.den := by
  cases neg <;> rfl

theorem fpToVal_num_den_pos (t bits : Nat) : 0 < (fpToVal t bits).num.den := by
  refine Val.num_den_pos fun q hq => ?_
  simp only [fpToVal] at hq
  split_ifs at hq <;> cases hq <;> exact magToQ_den_pos _ _

theorem mxElem_num_den_pos (kind code : Nat) : 0 < (mxElem kind code).num.den := by
  unfold mxElem
  split
  · refine Val.num_ofQ_den_pos ?_ _
    rw [Q.signed_den]
    split_ifs <;> exact Q.dyadic_den_pos _ _
  · exact fpToVal_num_den_pos _ _
  · exact fpToVal_num_den_pos _ _

theorem mxValue_den_pos (kind code scale : Nat) : 0 < (mxValue kind code scale).1.den := by
  unfold mxValue
  split_ifs
  · exact Nat.one_pos
  · split
    · exact Nat.one_pos
    · exact Nat.one_pos
    · exact Q.mul_den_pos (mxElem_num_den_pos _ _) (Q.dyadic_den_pos _ _)

theorem vmxElement_den_pos (f : FormA) (a b : VReg) (j : Nat) : 0 < (vmxElement f a b j).1.den := by
  unfold vmxElement
  extract_lets kind e scale
  split_ifs
  · exact mxValue_den_pos _ _ _
  · exact mxValue_den_pos _ _ _

/-- The largest magnitude of numbers has a denominator and no sign. -/
theorem maxAbs_wf {xs : List Q} (h : ∀ x ∈ xs, 0 < x.den) : 0 < (maxAbs xs).den ∧ 0 ≤ (maxAbs xs).num := by
  refine List.foldlRecOn xs _ (motive := fun q : Q => 0 < q.den ∧ 0 ≤ q.num) ⟨Nat.one_pos, le_rfl⟩ fun q hq x hx => ?_
  split_ifs
  · exact ⟨h x hx, Int.natCast_nonneg _⟩
  · exact hq

/-! ## The instructions (R176) -/

/-- What VMX.FIT puts in flight: the exponent in every byte, and the enabled elements' flags. -/
theorem exec_vmxFit {s : State} {g : Gate} (h : s.iterates g = true) (f : FormA) {ls : List Nat}
    (hls : ls = enabledLanes (s.cur.pv' g.guard.toNat) 1) {el : Nat → Q × Flags}
    (hel : el = vmxElement f (s.cur.v' f.a.toNat) (s.cur.v' f.b.toNat)) :
    let amax := maxAbs (ls.map fun j => (el j).1)
    exec (.vmxFit g f) s = .next (s.flight (vOffset 4 f.d.toNat) 0x30
      [.v f.d.toNat (packLanes 1 ((List.range 256).map fun i => (i, (clampInt 0 254
        (max (lane (s.cur.v' f.c.toNat) 1 0 : Nat) (if amax.isZero then 0 else mxFit amax))).toNat))) (BitVec.allOnes 2048)]
      (unitGroup s.curT.slot) ((ls.map fun j => (j, (el j).2)).filter fun y => y.2 != 0) none) := by
  intro amax
  subst hls hel
  show execVmxFit g f s = _
  rw [execVmxFit, State.vector_on h]
  simp only [List.map_map, Function.comp_def]
  rfl

/-- Settles O21: the fit by the least exponent that fits, the conversion lane by lane. -/
theorem vectorMicroscalingComplete : Obligations.VectorMicroscalingComplete := by
  intro g f s h el amax e
  refine ⟨⟨_, _, if amax.isZero then 0 else mxFit amax, exec_vmxFit h f rfl rfl, fun hzero => if_pos hzero, fun hzero => ?_,
    fun j hj => lane_fill _ hj, flagged_enabledLanes s g 1 _⟩, State.lanewise_lanes h (Eq.refl (execVmxCvt g f s)) fun j _ =>
      ⟨Nat.mod_eq_of_lt (wrapBits_lt _ _), rfl⟩⟩
  obtain ⟨hden, hnonneg⟩ := maxAbs_wf (xs := ((List.range 256).filter fun j => Claims.enabled s g 1 j).map fun j => (el j).1) fun x hx => by
    obtain ⟨j, -, rfl⟩ := List.mem_map.mp hx
    exact vmxElement_den_pos _ _ _ _
  rw [hzero, if_neg Bool.false_ne_true]
  exact mxFit_spec hden (hnonneg.lt_of_ne' (beq_eq_false_iff_ne.mp hzero))

end Sys2Proof.Machine

/-! SUPPORT. Reductions by the fixed tree and scans by the running fold (06_vector R169, R170). -/

namespace Sys2Proof.Machine

open Sys2Proof

/-! ## One step -/

/-- The step of R169 as the model takes it for the instruction `f` on core `c`. -/
def foldStep (c : Core) (f : FormA) (x y : Node) : Node × Flags :=
  nodeOp (f.func.toNat % 16) f.type.toNat (fbit f.func 4) (c.ctl.rounding f.rnd.toNat) (f.sat == 1) x y

theorem treeOp_eq_folded (c : Core) (f : FormA) (x y : Nat) :
    treeOp (f.func.toNat % 16) f.type.toNat (fbit f.func 4) (c.ctl.rounding f.rnd.toNat) (f.sat == 1) x y = Claims.folded c f x y := by
  rw [rounding_eq]
  unfold treeOp Claims.folded
  split <;> rfl

/-- R169: of two present items argmax and argmin keep the one that ranks higher. -/
theorem pairAbove_choice (rev : Bool) (t : Nat) (a b : Nat × Nat) :
    (if pairAbove rev t a.1 a.2 b.1 b.2 then some a else some b) =
      match (if rev = true then keyOrdRev t a.1 b.1 else keyOrd t a.1 b.1) with
        | .gt => some a
        | .lt => some b
        | .eq => some (if a.2 ≤ b.2 then a else b) := by
  rw [pairAbove]
  cases (if rev = true then keyOrdRev t a.1 b.1 else keyOrd t a.1 b.1) with
  | lt => rfl
  | gt => rfl
  | eq => simp only [decide_eq_true_eq, apply_ite some]

theorem foldStep_eq_joined (c : Core) (f : FormA) (x y : Node) : foldStep c f x y = Claims.joined c f x y := by
  cases x with
  | none => rfl
  | some a =>
    cases y with
    | none => rfl
    | some b =>
      rw [foldStep, nodeOp, treeOp_eq_folded, pairAbove_choice]
      simp only [Claims.joined, Bool.or_eq_true, beq_iff_eq] <;> rfl

/-! ## The tree (R169) -/

section Tree

variable (c : Core) (f : FormA)

/-- One level of the tree. -/
def foldLevel (xs : List Node) : List Node × Flags :=
  treeLevel (f.func.toNat % 16) f.type.toNat (fbit f.func 4) (c.ctl.rounding f.rnd.toNat) (f.sat == 1) xs

/-- Levels of the tree until one value remains. -/
def foldTree (k : Nat) (xs : List Node) : Node × Flags :=
  treeReduce (f.func.toNat % 16) f.type.toNat (fbit f.func 4) (c.ctl.rounding f.rnd.toNat) (f.sat == 1) k xs

theorem foldLevel_nil : foldLevel c f [] = ([], 0) := rfl
theorem foldLevel_singleton (x : Node) : foldLevel c f [x] = ([x], 0) := rfl
theorem foldLevel_cons_cons (x y : Node) (xs : List Node) : foldLevel c f (x :: y :: xs) =
    ((foldStep c f x y).1 :: (foldLevel c f xs).1, (foldStep c f x y).2 ||| (foldLevel c f xs).2) := rfl
theorem foldTree_zero (xs : List Node) : foldTree c f 0 xs = (xs.headD none, 0) := rfl
theorem foldTree_succ (k : Nat) (xs : List Node) : foldTree c f (k + 1) xs =
    ((foldTree c f k (foldLevel c f xs).1).1, (foldLevel c f xs).2 ||| (foldTree c f k (foldLevel c f xs).1).2) := rfl

/-- A level over an even number of items and then others works on each part by itself. -/
theorem foldLevel_append (n : Nat) (xs ys : List Node) (h : xs.length = 2 * n) : foldLevel c f (xs ++ ys) =
    ((foldLevel c f xs).1 ++ (foldLevel c f ys).1, (foldLevel c f xs).2 ||| (foldLevel c f ys).2) := by
  induction n generalizing xs with
  | zero =>
    obtain rfl := List.length_eq_zero_iff.mp h
    simp [foldLevel_nil]
  | succ n ih =>
    match xs, h with
    | x :: y :: xs, h =>
      have hlen : xs.length = 2 * n := by simp only [List.length_cons] at h; omega
      rw [List.cons_append, List.cons_append, foldLevel_cons_cons, ih xs hlen, foldLevel_cons_cons, List.cons_append, BitVec.or_assoc]

theorem foldLevel_length (n : Nat) (xs : List Node) (h : xs.length = 2 * n) : (foldLevel c f xs).1.length = n := by
  induction n generalizing xs with
  | zero =>
    obtain rfl := List.length_eq_zero_iff.mp h
    rfl
  | succ n ih =>
    match xs, h with
    | x :: y :: xs, h =>
      rw [foldLevel_cons_cons, List.length_cons, ih xs (by simp only [List.length_cons] at h; omega)]

/-- A tree over two halves joins the tree of the one with the tree of the other. -/
theorem foldTree_append (k : Nat) (xs ys : List Node) (hx : xs.length = 2 ^ k) (hy : ys.length = 2 ^ k) :
    foldTree c f (k + 1) (xs ++ ys) =
      ((foldStep c f (foldTree c f k xs).1 (foldTree c f k ys).1).1,
        (foldTree c f k xs).2 ||| (foldTree c f k ys).2 ||| (foldStep c f (foldTree c f k xs).1 (foldTree c f k ys).1).2) := by
  induction k generalizing xs ys with
  | zero =>
    obtain ⟨x, rfl⟩ := List.length_eq_one_iff.mp hx
    obtain ⟨y, rfl⟩ := List.length_eq_one_iff.mp hy
    simp [foldTree_succ, foldTree_zero, foldLevel_cons_cons, foldLevel_nil]
  | succ k ih =>
    rw [Nat.pow_succ'] at hx hy
    rw [foldTree_succ, foldLevel_append c f _ xs ys hx, ih _ _ (foldLevel_length c f _ xs hx) (foldLevel_length c f _ ys hy),
      foldTree_succ c f k xs, foldTree_succ c f k ys]
    refine Prod.ext rfl ?_
    dsimp only
    ac_rfl

/-- Once one item is left, further levels change nothing. -/
theorem foldTree_add (e k : Nat) (xs : List Node) (h : xs.length = 2 ^ e) : foldTree c f (e + k) xs = foldTree c f e xs := by
  induction e generalizing xs with
  | zero =>
    obtain ⟨x, rfl⟩ := List.length_eq_one_iff.mp h
    induction k with
    | zero => rfl
    | succ k ih =>
      rw [← Nat.add_assoc, foldTree_succ, foldLevel_singleton, ih, foldTree_zero]
      exact Prod.ext rfl BitVec.zero_or
  | succ e ih =>
    rw [Nat.pow_succ'] at h
    rw [Nat.add_right_comm, foldTree_succ, ih _ (foldLevel_length c f _ xs h), ← foldTree_succ]

/-- R169: over 2^e items the model's levels compute the fixed tree. -/
theorem foldTree_eq_tree (e : Nat) (x : Nat → Node) : foldTree c f e ((List.range (2 ^ e)).map x) = Claims.tree c f e x := by
  induction e generalizing x with
  | zero => rfl
  | succ e ih =>
    rw [Nat.pow_succ', Nat.two_mul, List.range_add, List.map_append, List.map_map,
      foldTree_append c f e _ _ (by simp) (by simp), ih, ih, foldStep_eq_joined]
    rfl

end Tree

/-! ## Integer sums -/

/-- The number that an item adds to a sum. -/
def nodeVal (x : Node) : Nat := (x.map (·.1)).getD 0

section Sums

variable {c : Core} {f : FormA} (hop : f.func.toNat % 16 = 0)

include hop

/-- R169: a step of a sum adds, and raises nothing. -/
theorem foldStep_sum (x y : Node) : nodeVal (foldStep c f x y).1 ≡ nodeVal x + nodeVal y [MOD Claims.range f] ∧ (foldStep c f x y).2 = 0 := by
  rw [foldStep_eq_joined]
  cases x with
  | none => exact ⟨by simp [Claims.joined, nodeVal, Nat.ModEq], rfl⟩
  | some a =>
    cases y with
    | none => exact ⟨by simp [Claims.joined, nodeVal, Nat.ModEq], rfl⟩
    | some b =>
      simp only [Claims.joined, Claims.folded, hop]
      exact ⟨Nat.mod_modEq _ _, rfl⟩

theorem foldLevel_sum (xs : List Node) : ((foldLevel c f xs).1.map nodeVal).sum ≡ (xs.map nodeVal).sum [MOD Claims.range f] ∧
    (foldLevel c f xs).2 = 0 ∧ (foldLevel c f xs).1.length = (xs.length + 1) / 2 := by
  induction xs using List.twoStepInduction with
  | nil => exact ⟨rfl, rfl, rfl⟩
  | singleton x => exact ⟨rfl, rfl, by simp [foldLevel_singleton]⟩
  | cons_cons x y xs ih _ =>
    obtain ⟨hsum, hflags, hlen⟩ := ih
    obtain ⟨hstep, hnone⟩ := foldStep_sum hop x y
    rw [foldLevel_cons_cons]
    refine ⟨?_, by rw [hnone, hflags]; rfl, by simp only [List.length_cons, hlen]; omega⟩
    simp only [List.map_cons, List.sum_cons, ← Nat.add_assoc]
    exact hstep.add hsum

theorem foldTree_sum (k : Nat) (xs : List Node) (h : xs.length ≤ 2 ^ k) :
    nodeVal (foldTree c f k xs).1 ≡ (xs.map nodeVal).sum [MOD Claims.range f] ∧ (foldTree c f k xs).2 = 0 := by
  induction k generalizing xs with
  | zero =>
    match xs, h with
    | [], _ => exact ⟨rfl, rfl⟩
    | [x], _ => exact ⟨rfl, rfl⟩
  | succ k ih =>
    obtain ⟨hsum, hflags, hlen⟩ := foldLevel_sum hop xs
    obtain ⟨hsum', hflags'⟩ := ih (foldLevel c f xs).1 (by rw [hlen]; omega)
    rw [foldTree_succ, hflags, hflags']
    exact ⟨hsum'.trans hsum, rfl⟩

/-- R170: the running sum is the sum of the items so far. -/
theorem running_sum (x : Nat → Node) (n : Nat) :
    nodeVal (Claims.running c f x n).1 ≡ ((List.range n).map fun j => nodeVal (x j)).sum [MOD Claims.range f] ∧
      (Claims.running c f x n).2 = 0 := by
  induction n with
  | zero => exact ⟨rfl, rfl⟩
  | succ n ih =>
    obtain ⟨hstep, hnone⟩ := foldStep_sum hop (Claims.running c f x n).1 (x n)
    rw [foldStep_eq_joined] at hstep hnone
    refine ⟨hstep.trans ?_, hnone⟩
    rw [List.range_succ, List.map_append, List.sum_append]
    exact ih.1.add_right _

end Sums

/-- The sum of a group's members is the total that R169 takes over its enabled lanes. -/
theorem sum_member (s : State) (g : Gate) (f : FormA) (first n : Nat) :
    ((List.range n).map fun j => nodeVal (Claims.member s g f first j)).sum = Claims.total s g f first n := by
  rw [Claims.total]
  congr 1
  refine List.map_congr_left fun j _ => ?_
  rw [Claims.member]
  split_ifs <;> rfl

/-! ## Groups of lanes -/

theorem group_div {gs q k : Nat} (hk : k < gs) : (q * gs + k) / gs = q := by
  rw [Nat.mul_comm, Nat.mul_add_div (Nat.zero_lt_of_lt hk), Nat.div_eq_of_lt hk, Nat.add_zero]

theorem group_lane_lt {gs n q k : Nat} (hq : q < n / gs) (hk : k < gs) : q * gs + k < n :=
  calc q * gs + k < (q + 1) * gs := by rw [Nat.succ_mul]; omega
    _ ≤ n / gs * gs := Nat.mul_le_mul_right gs hq
    _ ≤ n := Nat.div_mul_le_self n gs

/-- Lanes `q * gs + k`, listed group by group. -/
def groupLanes (gs count shown : Nat) (value : Nat → Nat → Nat) : List (Nat × Nat) :=
  (List.range count).flatMap fun q => (List.range shown).map fun k => (q * gs + k, value q k)

theorem mem_groupLanes {gs count shown : Nat} {value : Nat → Nat → Nat} {l : Nat × Nat} :
    l ∈ groupLanes gs count shown value ↔ ∃ q < count, ∃ k < shown, (q * gs + k, value q k) = l := by
  simp [groupLanes]

theorem groupLanes_nodup {gs shown : Nat} (h : shown ≤ gs) (count : Nat) (value : Nat → Nat → Nat) :
    ((groupLanes gs count shown value).map (·.1)).Nodup := by
  rw [groupLanes, List.map_flatMap, List.nodup_flatMap]
  refine ⟨fun q _ => ?_, List.nodup_range.pairwise_of_forall_ne fun q _ r _ hne j hjq hjr => ?_⟩
  · rw [List.map_map]
    exact List.nodup_range.map (add_right_injective (q * gs))
  · simp only [List.map_map, List.mem_map, List.mem_range, Function.comp_apply] at hjq hjr
    obtain ⟨k, hk, rfl⟩ := hjq
    obtain ⟨m, hm, heq⟩ := hjr
    refine hne ?_
    rw [← group_div (q := q) (hk.trans_le h), ← heq, group_div (hm.trans_le h)]

/-- A lane of lanes listed group by group: the listed value, or zero past what each group lists. -/
theorem lane_groupLanes {w gs shown q k : Nat} (h : shown ≤ gs) (hq : q < 256 / w / gs) (hk : k < gs) (value : Nat → Nat → Nat) :
    lane (packLanes w (groupLanes gs (256 / w / gs) shown value)) w (q * gs + k) = if k < shown then value q k % 2 ^ (8 * w) else 0 := by
  have hnodup := groupLanes_nodup h (256 / w / gs) value
  split_ifs with hshown
  · exact lane_packLanes_of_mem (group_lane_lt hq hk) hnodup (mem_groupLanes.mpr ⟨q, hq, k, hshown, rfl⟩)
  · refine lane_packLanes_of_not_mem (group_lane_lt hq hk) hnodup fun l hl heq => hshown ?_
    obtain ⟨r, -, m, hm, rfl⟩ := mem_groupLanes.mp hl
    dsimp only at heq
    have hqr : r = q := by rw [← group_div (q := r) (hm.trans_le h), heq, group_div hk]
    subst hqr
    rwa [← Nat.add_left_cancel heq]

/-! ## Reductions -/

/-- How many lanes of a group a reduction fills: two for argmax and argmin, one for the others. -/
def reducedCount (f : FormA) : Nat := if f.func.toNat % 16 = 4 ∨ f.func.toNat % 16 = 5 then 2 else 1

theorem reduced_of_le {f : FormA} {x : Node} {k : Nat} (h : reducedCount f ≤ k) : Claims.reduced f x k = 0 := by
  by_cases harg : f.func.toNat % 16 = 4 ∨ f.func.toNat % 16 = 5
  · rw [reducedCount, if_pos harg] at h
    rw [Claims.reduced.eq_def, if_pos harg]
    match x, k, h with
    | none, k + 2, _ => rfl
    | some _, k + 2, _ => rfl
  · rw [reducedCount, if_neg harg] at h
    rw [Claims.reduced.eq_def, if_neg harg, if_neg (Nat.one_le_iff_ne_zero.mp h)]

/-- What a reduction places for a group: its filled lanes. -/
theorem reducedLanes_eq (f : FormA) (first : Nat) (x : Node) :
    (if f.func.toNat % 16 == 4 || f.func.toNat % 16 == 5 then
      match x with
      | some x => [(first, x.1), (first + 1, x.2)]
      | none => [(first, if isIntType f.type.toNat then 2 ^ typeBits f.type.toNat - 1 else canonNan f.type.toNat),
          (first + 1, 2 ^ typeBits f.type.toNat - 1)]
    else [(first, match x with | some x => x.1 | none => emptyOp (f.func.toNat % 16) f.type.toNat)]) =
      (List.range (reducedCount f)).map fun k => (first + k, Claims.reduced f x k) := by
  by_cases harg : f.func.toNat % 16 = 4 ∨ f.func.toNat % 16 = 5
  · simp only [Bool.or_eq_true, beq_iff_eq, reducedCount, Claims.reduced.eq_def, if_pos harg]
    cases x <;> rfl
  · simp only [Bool.or_eq_true, beq_iff_eq, reducedCount, Claims.reduced.eq_def, if_neg harg]
    cases x <;> rfl

section Reductions

variable (s : State) (g : Gate) (f : FormA) (gs : Nat)

/-- What a reduction makes of group `q`: its value and the flags of its steps. -/
def groupTree (q : Nat) : Node × Flags := foldTree s.cur f 8 ((List.range gs).map (Claims.member s g f (q * gs)))

/-- What VRED puts in flight: the trees' values in the first lanes of the groups, and their flags. -/
theorem exec_vred (h : s.iterates g = true) (hgs : gs = groupSize f (256 / Claims.width f)) :
    exec (.vred g f) s = .next (s.flight (vOffset 8 f.d.toNat) 0x27
      [.v f.d.toNat (packLanes (Claims.width f) (groupLanes gs (256 / Claims.width f / gs) (reducedCount f) fun q k =>
        Claims.reduced f (groupTree s g f gs q).1 k)) (BitVec.allOnes 2048)] (unitGroup s.curT.slot)
      (((List.range (256 / Claims.width f / gs)).map fun q => (q * gs, (groupTree s g f gs q).2)).filter fun x => x.2 != 0) none) := by
  subst hgs
  show execVred g f s = _
  rw [execVred, State.vector_on h]
  simp only [groupLanes, ← reducedLanes_eq, List.flatMap_map, List.map_map, Function.comp_def]
  rfl

/-- R169: lane `k` of group `q` of a reduction that fills no more lanes than a group has. -/
theorem lane_vred {gs : Nat} (hgs : reducedCount f ≤ gs) {q k : Nat} (hq : q < 256 / Claims.width f / gs) (hk : k < gs) :
    lane (packLanes (Claims.width f) (groupLanes gs (256 / Claims.width f / gs) (reducedCount f) fun q k =>
      Claims.reduced f (groupTree s g f gs q).1 k)) (Claims.width f) (q * gs + k) =
        Claims.reduced f (groupTree s g f gs q).1 k % Claims.range f := by
  rw [lane_groupLanes hgs hq hk]
  split_ifs with hcount
  · rfl
  · rw [reduced_of_le (not_lt.mp hcount), Nat.zero_mod]

/-- R169: over 2^e lanes a group's value and flags are those of the fixed tree. -/
theorem groupTree_eq_tree {gs e : Nat} (he : gs = 2 ^ e) (hgs : gs ≤ 256) (q : Nat) :
    groupTree s g f gs q = Claims.tree s.cur f e (Claims.member s g f (q * gs)) := by
  have he8 : e ≤ 8 := (Nat.pow_le_pow_iff_right Nat.one_lt_two).mp (he ▸ hgs)
  rw [groupTree, ← Nat.add_sub_cancel' he8, foldTree_add _ _ _ _ _ (by simp [he]), ← foldTree_eq_tree, ← he]

/-- R169: the sum of a group of no more lanes than a register has bytes. -/
theorem groupTree_sum {f : FormA} (hop : f.func.toNat % 16 = 0) {gs : Nat} (hgs : gs ≤ 256) (q : Nat) :
    Claims.reduced f (groupTree s g f gs q).1 0 % Claims.range f = Claims.total s g f (q * gs) gs % Claims.range f ∧
      (groupTree s g f gs q).2 = 0 := by
  obtain ⟨hsum, hflags⟩ := foldTree_sum (c := s.cur) hop 8 ((List.range gs).map (Claims.member s g f (q * gs))) (by simpa using hgs)
  rw [List.map_map, show nodeVal ∘ Claims.member s g f (q * gs) = fun j => nodeVal (Claims.member s g f (q * gs) j) from rfl,
    sum_member] at hsum
  have hval : ∀ x : Node, Claims.reduced f x 0 = nodeVal x := fun x => by
    cases x <;> simp [Claims.reduced.eq_def, Claims.empty, nodeVal, hop]
  exact ⟨by rw [hval]; exact hsum, hflags⟩

end Reductions

/-! ## Scans (R170) -/

section Scans

variable (c : Core) (f : FormA) (x : Nat → Node)

/-- What a scan shows in lane `k` of a group. -/
def scanned (k : Nat) : Nat :=
  match (Claims.running c f x (if fbit f.func 9 then k else k + 1)).1 with
  | some a => a.1
  | none => Claims.empty f

theorem emptyOp_eq_empty : emptyOp (f.func.toNat % 16) f.type.toNat = Claims.empty f := by
  unfold emptyOp Claims.empty
  split <;> rfl

/-- The model's scan of a group of items. -/
def foldScan (acc : Node) (xs : List (Nat × Node)) : List (Nat × Nat × Flags) :=
  scanGroup (f.func.toNat % 16) f.type.toNat (fbit f.func 4) (fbit f.func 9) (c.ctl.rounding f.rnd.toNat) (f.sat == 1) acc xs

theorem foldScan_cons (acc y : Node) (i : Nat) (xs : List (Nat × Node)) : foldScan c f acc ((i, y) :: xs) =
    (i, (match (if fbit f.func 9 then acc else (foldStep c f acc y).1) with | some v => v.1 | none => Claims.empty f),
      (foldStep c f acc y).2) :: foldScan c f (foldStep c f acc y).1 xs := by
  rw [← emptyOp_eq_empty]
  rfl

/-- From the running value of `start` items on, a scan shows the running values that follow. -/
theorem foldScan_running (base n start : Nat) :
    foldScan c f (Claims.running c f x start).1 ((List.range n).map fun j => (base + (start + j), x (start + j))) =
      (List.range n).map fun j => (base + (start + j), scanned c f x (start + j), (Claims.running c f x (start + j + 1)).2) := by
  induction n generalizing start with
  | zero => rfl
  | succ n ih =>
    have hrest := ih (start + 1)
    simp only [Nat.add_assoc start 1, Nat.add_comm 1] at hrest
    rw [List.range_succ_eq_map, List.map_cons, List.map_cons, List.map_map, List.map_map, foldScan_cons, foldStep_eq_joined]
    refine congrArg₂ List.cons (Prod.ext rfl (Prod.ext ?_ rfl)) hrest
    rw [scanned]
    cases fbit f.func 9 <;> rfl

/-- R170: a scan of a group shows the running value in each lane, with the flags of the lane's own step. -/
theorem foldScan_eq (base n : Nat) : foldScan c f none ((List.range n).map fun j => (base + j, x j)) =
    (List.range n).map fun k => (base + k, scanned c f x k, (Claims.running c f x (k + 1)).2) := by
  have h := foldScan_running c f x base n 0
  simp only [Nat.zero_add] at h
  exact h

/-- R170: what a scan of integer sums shows is the sum so far. -/
theorem scanned_sum {f : FormA} (hop : f.func.toNat % 16 = 0) (k : Nat) :
    scanned c f x k = nodeVal (Claims.running c f x (if fbit f.func 9 then k else k + 1)).1 := by
  rw [scanned]
  cases (Claims.running c f x (if fbit f.func 9 then k else k + 1)).1 with
  | none => simp [Claims.empty, hop, nodeVal]
  | some a => rfl

end Scans

/-- What a scan shows in lane `k` of group `q`. -/
def groupScan (s : State) (g : Gate) (f : FormA) (gs q k : Nat) : Nat := scanned s.cur f (Claims.member s g f (q * gs)) k

/-- What VSCAN puts in flight: the running values of all lanes, and the flags of their steps. -/
theorem exec_vscan {s : State} {g : Gate} {f : FormA} (h : s.iterates g = true) {gs : Nat} (hgs : gs = groupSize f (256 / Claims.width f)) :
    exec (.vscan g f) s = .next (s.flight (vOffset 8 f.d.toNat) 0x28
      [.v f.d.toNat (packLanes (Claims.width f) (groupLanes gs (256 / Claims.width f / gs) gs (groupScan s g f gs))) (BitVec.allOnes 2048)]
      (unitGroup s.curT.slot)
      (((List.range (256 / Claims.width f / gs)).flatMap fun q => (List.range gs).map fun k =>
        (q * gs + k, (Claims.running s.cur f (Claims.member s g f (q * gs)) (k + 1)).2)).filter fun x => x.2 != 0) none) := by
  have hexec : ∀ outs, outs = ((List.range (256 / Claims.width f / gs)).flatMap fun q =>
      foldScan s.cur f none ((List.range gs).map fun j => (q * gs + j, Claims.member s g f (q * gs) j))) →
      exec (.vscan g f) s = .next (s.flight (vOffset 8 f.d.toNat) 0x28
        [.v f.d.toNat (packLanes (Claims.width f) (outs.map fun o => (o.1, o.2.1))) (BitVec.allOnes 2048)]
        (unitGroup s.curT.slot) (laneFlags outs) none) := by
    rintro _ rfl
    subst hgs
    show execVscan g f s = _
    rw [execVscan, State.vector_on h]
    rfl
  rw [hexec _ rfl]
  simp only [foldScan_eq, laneFlags, groupLanes, List.map_flatMap, List.map_map, Function.comp_def]
  rfl

/-! ## The obligation -/

theorem groupSize_eq (f : FormA) (n : Nat) : groupSize f n = if f.func.toNat / 32 % 16 = 0 then n else 2 ^ (f.func.toNat / 32 % 16) := by
  simp [groupSize]

/-- A reduction fills at least one and at most two lanes of a group. -/
theorem reducedCount_le (f : FormA) : reducedCount f ≤ 2 := by
  rw [reducedCount]
  split_ifs <;> decide

theorem reducedCount_sum {f : FormA} (hop : f.func.toNat % 16 = 0) : reducedCount f = 1 := by
  simp [reducedCount, hop]

/-- Flags that groups raise, and only these. -/
theorem exists_mem_groupFlags {gs count : Nat} {flags : Nat → Flags} {u : Flags} :
    (∃ j, (j, u) ∈ ((List.range count).map fun q => (q * gs, flags q)).filter fun x => x.2 != 0) ↔ u ≠ 0 ∧ ∃ q < count, u = flags q := by
  simp only [List.mem_filter, List.mem_map, List.mem_range, Prod.mk.injEq, bne_iff_ne]
  constructor
  · rintro ⟨j, ⟨q, hq, -, rfl⟩, hu⟩
    exact ⟨hu, q, hq, rfl⟩
  · rintro ⟨hu, q, hq, rfl⟩
    exact ⟨q * gs, ⟨q, hq, rfl, rfl⟩, hu⟩

/-- Flags that lanes of groups raise, and only these. -/
theorem mem_scanFlags {gs count : Nat} {flags : Nat → Nat → Flags} {j : Nat} {u : Flags} :
    (j, u) ∈ ((List.range count).flatMap fun q => (List.range gs).map fun k => (q * gs + k, flags q k)).filter (fun x => x.2 != 0) ↔
      u ≠ 0 ∧ ∃ q < count, ∃ k < gs, j = q * gs + k ∧ u = flags q k := by
  simp only [List.mem_filter, List.mem_flatMap, List.mem_map, List.mem_range, Prod.mk.injEq, bne_iff_ne]
  constructor
  · rintro ⟨⟨q, hq, k, hk, rfl, rfl⟩, hu⟩
    exact ⟨hu, q, hq, k, hk, rfl, rfl⟩
  · rintro ⟨hu, q, hq, k, hk, rfl, rfl⟩
    exact ⟨⟨q, hq, k, hk, rfl, rfl⟩, hu⟩

/-- Settles O18: a reduction by its groups' trees, a scan by its running values, integer sums by congruence. -/
theorem vectorFoldsComplete : Obligations.VectorFoldsComplete := by
  intro g f s h n op gs
  have hgs : gs = groupSize f (256 / Claims.width f) := (groupSize_eq f n).symm
  have hbytes : n ≤ 256 := Nat.div_le_self _ _
  have hsize : ∀ {q}, q < n / gs → gs ≤ 256 := fun hq => (Nat.div_pos_iff.mp (Nat.zero_lt_of_lt hq)).2.trans hbytes
  refine ⟨⟨_, _, exec_vred s g f gs h hgs, fun hop _ => ⟨?_, fun q hq k hk => ?_⟩,
      fun e he hle htwo _ => ⟨fun q hq k hk => ?_, fun u => ?_⟩⟩,
    ⟨_, _, exec_vscan h hgs, fun hop _ => ⟨?_, fun q hq k hk => ?_⟩,
      fun _ _ _ _ => ⟨fun q hq k hk => ?_, fun j u => mem_scanFlags⟩⟩⟩
  · refine List.filter_eq_nil_iff.mpr fun x hx => ?_
    obtain ⟨q, hq, rfl⟩ := List.mem_map.mp hx
    simp [(groupTree_sum s g hop (hsize (List.mem_range.mp hq)) q).2]
  · rw [lane_vred s g f (by rw [reducedCount_sum hop]; omega) hq hk]
    split_ifs with hzero
    · rw [hzero, (groupTree_sum s g hop (hsize hq) q).1]
    · rw [reduced_of_le (by rw [reducedCount_sum hop]; omega), Nat.zero_mod]
  · rw [lane_vred s g f ((reducedCount_le f).trans htwo) hq hk, groupTree_eq_tree s g f he (hle.trans hbytes)]
  · simp only [← groupTree_eq_tree s g f he (hle.trans hbytes)]
    exact exists_mem_groupFlags
  · refine List.filter_eq_nil_iff.mpr fun x hx => ?_
    obtain ⟨q, -, hx⟩ := List.mem_flatMap.mp hx
    obtain ⟨k, -, rfl⟩ := List.mem_map.mp hx
    simp [(running_sum hop (c := s.cur) (Claims.member s g f (q * gs)) (k + 1)).2]
  · rw [lane_groupLanes le_rfl hq hk, if_pos hk, groupScan, scanned_sum _ _ hop]
    rw [← sum_member]
    exact (running_sum hop _ _).1
  · rw [lane_groupLanes le_rfl hq hk, if_pos hk]
    rfl

end Sys2Proof.Machine

/-! SUPPORT. Numbers in byte memories, packed codes, flags of many, and the containers of a tile. -/

namespace Sys2Proof.Machine

open Sys2Proof

/-! ## Bytes and numbers of a memory -/

namespace Memory

/-- A listed byte is the byte of its address. -/
theorem get_of_mem {m : Memory} (h : Memory.wf m = true) {c : Host.Cell} (hc : c ∈ m) : Memory.get m c.1 = c.2 := by
  obtain ⟨hsorted, -⟩ := (Memory.wf_iff m).mp h
  clear h
  induction m with
  | nil => cases hc
  | cons d m ih =>
    obtain ⟨hd, hm⟩ := List.pairwise_cons.mp hsorted
    rw [Memory.get]
    rcases List.mem_cons.mp hc with rfl | hc
    · simp
    · rw [if_neg (by simpa using (hd c hc).ne), ih hc hm]

theorem mem_slice {m : Memory} {a n : Nat} {c : Host.Cell} : c ∈ m.slice a n ↔ c ∈ m ∧ a ≤ c.1 ∧ c.1 < a + n := by
  simp [Memory.slice]

/-- The number of a range, bit by bit (R5). -/
theorem testBit_num {m : Memory} (h : Memory.wf m = true) (a n b : Nat) :
    (m.num a n).testBit b = (decide (b < 8 * n) && (m.get (a + b / 8)).getLsbD (b % 8)) := by
  have hplaced : m.num a n = ((m.slice a n).map fun c => (c.1 - a, c.2.toNat)).foldl
      (fun (x : Nat) (l : Nat × Nat) => x + l.2 % 2 ^ 8 * 2 ^ (8 * l.1)) 0 := by
    rw [List.foldl_map, Memory.num]
    simp only [Nat.mod_eq_of_lt (BitVec.isLt _)]
  have hdistinct : (((m.slice a n).map fun c => (c.1 - a, c.2.toNat)).map (·.1)).Nodup := by
    rw [List.map_map]
    refine List.pairwise_map.mpr ?_
    refine ((Memory.wf_iff _).mp (Memory.wf_slice h a n)).1.imp_of_mem fun {c d} hc hd hlt => ?_
    have := (mem_slice.mp hc).2
    simp only [Function.comp_apply]
    omega
  rw [hplaced, testBit_foldl_placed 8 (by decide) _ hdistinct, List.any_map]
  by_cases hlisted : ∃ c ∈ m.slice a n, c.1 = a + b / 8
  · obtain ⟨c, hc, hca⟩ := hlisted
    obtain ⟨hmem, hlow, hhigh⟩ := mem_slice.mp hc
    rw [← hca, get_of_mem h hmem, decide_eq_true (show b < 8 * n by omega), Bool.true_and, Bool.eq_iff_iff, List.any_eq_true]
    constructor
    · rintro ⟨d, hd, hbit⟩
      simp only [Function.comp_apply, Bool.and_eq_true, decide_eq_true_eq] at hbit
      obtain ⟨hd, hlow', -⟩ := mem_slice.mp hd
      have hsame : d.2 = c.2 := by rw [← get_of_mem h hd, ← get_of_mem h hmem, show d.1 = c.1 by omega]
      rw [← hsame]
      exact hbit.2
    · intro hbit
      refine ⟨c, hc, ?_⟩
      simp only [Function.comp_apply, Bool.and_eq_true, decide_eq_true_eq]
      exact ⟨by omega, hbit⟩
  · have hany : ((m.slice a n).any ((fun l : Nat × Nat => decide (b / 8 = l.1) && l.2.testBit (b % 8)) ∘
        fun c => (c.1 - a, c.2.toNat))) = false := by
      refine List.any_eq_false.mpr fun c hc hbit => hlisted ⟨c, hc, ?_⟩
      simp only [Function.comp_apply, Bool.and_eq_true, decide_eq_true_eq] at hbit
      have := (mem_slice.mp hc).2
      omega
    rw [hany]
    by_cases hb : b < 8 * n
    · rw [Memory.get_of_not_mem]
      · simp
      · intro c hc hca
        exact hlisted ⟨c, mem_slice.mpr ⟨hc, by omega, by omega⟩, hca⟩
    · simp [hb]

/-- A part of the number of a range is the number of its part. -/
theorem num_part {m : Memory} (h : Memory.wf m = true) {a n o l : Nat} (hl : o + l ≤ n) :
    m.num a n / 2 ^ (8 * o) % 2 ^ (8 * l) = m.num (a + o) l := by
  apply Nat.eq_of_testBit_eq
  intro b
  rw [Nat.testBit_mod_two_pow, Nat.testBit_div_two_pow, testBit_num h, testBit_num h,
    show a + (b + 8 * o) / 8 = a + o + b / 8 by omega, show (b + 8 * o) % 8 = b % 8 by omega]
  by_cases hb : b < 8 * l
  · simp [hb, show b + 8 * o < 8 * n by omega]
  · simp [hb]

/-- Numbers `v 0 .. v (n - 1)` of `b` bytes each, one behind the other from address 0 on. -/
def packed (b n : Nat) (v : Nat → Nat) : Memory := (List.range n).foldl (fun x k => x.putNum (k * b) b (v k)) []

theorem packed_succ (b n : Nat) (v : Nat → Nat) : packed b (n + 1) v = (packed b n v).putNum (n * b) b (v n) := by
  simp [packed, List.range_succ]

theorem wf_packed (b n : Nat) (v : Nat → Nat) : Memory.wf (packed b n v) = true := by
  cases n with
  | zero => rfl
  | succ n => exact packed_succ b n v ▸ Memory.wf_putNum (wf_packed b n v) _ _ _

theorem get_packed {b n k o : Nat} (hk : k < n) (ho : o < b) (v : Nat → Nat) :
    (packed b n v).get (k * b + o) = BitVec.ofNat 8 (v k / 256 ^ o) := by
  induction n with
  | zero => omega
  | succ n ih =>
    rw [packed_succ, Memory.get_putNum]
    rcases Nat.lt_succ_iff_lt_or_eq.mp hk with h | rfl
    · have : k * b + b ≤ n * b := by rw [← Nat.succ_mul]; exact Nat.mul_le_mul_right b h
      rw [if_neg (by omega), ih h]
    · rw [if_pos (by omega), Nat.add_sub_cancel_left]

/-- A part of one of the numbers. -/
theorem num_packed {b n k o l : Nat} (hk : k < n) (hl : o + l ≤ b) (v : Nat → Nat) :
    (packed b n v).num (k * b + o) l = v k / 2 ^ (8 * o) % 2 ^ (8 * l) := by
  apply Nat.eq_of_testBit_eq
  intro j
  rw [testBit_num (wf_packed b n v), Nat.testBit_mod_two_pow]
  by_cases hj : j < 8 * l
  · rw [Nat.add_assoc, get_packed hk (by omega), BitVec.getLsbD_ofNat, Nat.testBit_div_two_pow, show (256 : Nat) = 2 ^ 8 from rfl, ← pow_mul,
      Nat.testBit_div_two_pow, show j % 8 + 8 * (o + j / 8) = j + 8 * o by omega]
    simp [hj, Nat.mod_lt]
  · simp [hj]

/-- Bytes `v 0 .. v (n - 1)` from address 0 on. -/
def listed (n : Nat) (v : Nat → Byte) : Memory := (List.range n).foldl (fun x k => x.put k [v k]) []

theorem get_listed {n k : Nat} (hk : k < n) (v : Nat → Byte) : (listed n v).get k = v k := by
  induction n with
  | zero => omega
  | succ n ih =>
    rw [show listed (n + 1) v = (listed n v).put n [v n] by simp [listed, List.range_succ], Memory.get_put, List.length_singleton]
    rcases Nat.lt_succ_iff_lt_or_eq.mp hk with h | rfl
    · rw [if_neg (by omega), ih h]
    · simp

/-- A slice keeps its bytes. -/
theorem get_slice {m : Memory} {a n x : Nat} (ha : a ≤ x) (hx : x < a + n) : (m.slice a n).get x = m.get x :=
  Memory.get_filter fun _ => by simp [ha, hx]

end Memory

/-! ## Codes in a number -/

theorem packCodes_cons (m c : Nat) (cs : List Nat) : packCodes m (c :: cs) = packCodes m cs * 2 ^ m + c := rfl

/-- A code among packed codes (R47). -/
theorem packCodes_at {m : Nat} {cs : List Nat} (hcs : ∀ c ∈ cs, c < 2 ^ m) {j : Nat} (hj : j < cs.length) :
    packCodes m cs / 2 ^ (j * m) % 2 ^ m = cs[j] := by
  induction cs generalizing j with
  | nil => simp at hj
  | cons c cs ih =>
    have hc : c < 2 ^ m := hcs c (by simp)
    rw [packCodes_cons]
    cases j with
    | zero => simp [Nat.add_mod, Nat.mod_eq_of_lt hc]
    | succ j =>
      rw [Nat.succ_mul, Nat.add_comm (j * m), pow_add, ← Nat.div_div_eq_div_mul, Nat.mul_comm (packCodes m cs), Nat.mul_add_div (Nat.two_pow_pos m),
        Nat.div_eq_of_lt hc, Nat.add_zero]
      exact ih (fun x hx => hcs x (by simp [hx])) (by simpa using hj)

/-! ## Flags of many -/

/-- All flags that the members of a list raise. -/
def flagsOfAll {α : Type} (l : List α) (u : α → Flags) : Flags := l.foldl (fun a x => a ||| u x) 0

section FlagsOfAll

variable {α : Type} (l : List α) (u : α → Flags)

theorem foldl_or_flags (a : Flags) : l.foldl (fun a x => a ||| u x) a = a ||| flagsOfAll l u := by
  induction l generalizing a with
  | nil => simp [flagsOfAll]
  | cons x l ih =>
    have hzero (v : Flags) : 0 ||| v = v := BitVec.zero_or
    rw [flagsOfAll, List.foldl_cons, List.foldl_cons, ih, ih (0 ||| u x), hzero, BitVec.or_assoc]

theorem flagsOfAll_cons (x : α) : flagsOfAll (x :: l) u = u x ||| flagsOfAll l u := by
  rw [flagsOfAll, List.foldl_cons, foldl_or_flags]
  exact congrArg (· ||| _) BitVec.zero_or

theorem getLsbD_flagsOfAll (b : Nat) : (flagsOfAll l u).getLsbD b = true ↔ ∃ x ∈ l, (u x).getLsbD b = true := by
  induction l with
  | nil => simp [flagsOfAll]
  | cons x l ih => simp [flagsOfAll_cons, ih]

end FlagsOfAll

/-! ## Containers of a tile -/

/-- A table after one of its entries is erased. -/
theorem Table.get?_erase {α : Type} (t : Table α) (k j : Nat) : (t.erase k).get? j = if j = k then none else t.get? j := by
  induction t with
  | nil => simp [Table.erase, Table.get?]
  | cons c t ih =>
    rw [Table.erase] at ih ⊢
    rw [List.filter_cons]
    by_cases hck : c.1 = k
    · rw [if_neg (by simpa using hck), ih, Table.get?]
      grind
    · rw [if_pos (by simpa using hck), Table.get?, ih, Table.get?]
      grind

/-- A container after another or the same is written. -/
theorem Tile.getD_put (t : Tile) (k j : Nat) (w : Word) :
    (t.put k w).cells.getD j t.fill = if j = k then w else t.cells.getD j t.fill := by
  rw [Tile.put]
  by_cases hw : w = t.fill
  · simp only [hw, beq_self_eq_true, if_true]
    rw [Table.getD, Table.get?_erase]
    split_ifs <;> rfl
  · simp only [beq_iff_eq, hw, if_false]
    split_ifs with hjk
    · rw [hjk, Table.getD_set_self]
    · rw [Table.getD_set_ne _ _ _ _ _ hjk]

/-- The first `n` containers of a tile rewritten, with the flags of all. -/
def Tile.rewritten (t : Tile) (n : Nat) (v : Nat → Word × Flags) : Tile × Flags :=
  (List.range n).foldl (fun x e => (x.1.put e (v e).1, x.2 ||| (v e).2)) (t, 0)

/-- What a rewrite leaves: mode and fill, each container's value, the flags. -/
theorem Tile.rewritten_spec (t : Tile) (n : Nat) (v : Nat → Word × Flags) :
    (t.rewritten n v).1.f64 = t.f64 ∧ (t.rewritten n v).1.fill = t.fill ∧
    (∀ e, (t.rewritten n v).1.cells.getD e t.fill = if e < n then (v e).1 else t.cells.getD e t.fill) ∧
    ∀ b, (t.rewritten n v).2.getLsbD b = true ↔ ∃ e < n, (v e).2.getLsbD b = true := by
  induction n with
  | zero => simp [Tile.rewritten]
  | succ n ih =>
    obtain ⟨hmode, hfill, hcells, hflags⟩ := ih
    have hstep : t.rewritten (n + 1) v = ((t.rewritten n v).1.put n (v n).1, (t.rewritten n v).2 ||| (v n).2) := by
      simp [Tile.rewritten, List.range_succ]
    rw [hstep]
    refine ⟨hmode, hfill, fun e => ?_, fun b => ?_⟩
    · rw [← hfill, Tile.getD_put, hfill, hcells]
      grind
    · rw [BitVec.getLsbD_or, Bool.or_eq_true, hflags]
      grind

/-- Rewritten rows: container (j, i) is number 128 × j + i. -/
theorem Tile.at'_rewritten (t : Tile) (n : Nat) (v : Nat → Word × Flags) {j i : Nat} (hi : i < 128) :
    (t.rewritten (n * 128) v).1.at' j i = if j < n then (v (128 * j + i)).1 else t.at' j i := by
  obtain ⟨-, hfill, hcells, -⟩ := t.rewritten_spec (n * 128) v
  rw [Tile.at', hfill, hcells, Tile.at']
  simp only [show 128 * j + i < n * 128 ↔ j < n by omega]

/-- The flags of rewritten rows. -/
theorem Tile.flags_rewritten (t : Tile) (n : Nat) (v : Nat → Word × Flags) (b : Nat) :
    (t.rewritten (n * 128) v).2.getLsbD b = true ↔ ∃ j < n, ∃ i < 128, (v (128 * j + i)).2.getLsbD b = true := by
  obtain ⟨-, -, -, hflags⟩ := t.rewritten_spec (n * 128) v
  rw [hflags]
  constructor
  · rintro ⟨e, he, hb⟩
    exact ⟨e / 128, by omega, e % 128, by omega, by rwa [Nat.div_add_mod]⟩
  · rintro ⟨j, hj, i, hi, hb⟩
    exact ⟨_, by omega, hb⟩

theorem Matrix.tile_setTile_self {m : Matrix} {n : Nat} (hn : n < 4) (t : Tile) : (m.setTile n t).tile n = t := by
  simp [Matrix.tile, Matrix.setTile, hn]

theorem Matrix.tile_setTile_ne {m : Matrix} {n x : Nat} (hx : x ≠ n) (t : Tile) : (m.setTile n t).tile x = m.tile x := by
  simp [Matrix.tile, Matrix.setTile, Ne.symm hx]

end Sys2Proof.Machine

/-! SUPPORT. Steps that change matrix engines only, and what a matrix command does at its issue. -/

namespace Sys2Proof.Machine

open Sys2Proof

/-! ## Steps that change matrix engines only -/

@[simp] theorem State.mtx_updMtx_self (s : State) (cell : Nat) (f : Matrix → Matrix) :
    ((s.updMtx cell f).core cell).mtx = f (s.core cell).mtx := by simp [State.updMtx]

theorem State.mtx_updMtx_ne {s : State} {cell c : Nat} (h : c ≠ cell) (f : Matrix → Matrix) :
    ((s.updMtx cell f).core c).mtx = (s.core c).mtx := by rw [State.updMtx, State.core_updCore_ne _ _ _ _ h]

/-- From `s` to `t` the time, the memory and the executing bundle stay, and of each core all but its matrix engine. -/
structure State.MatrixOnly (s t : State) : Prop where
  clk  : t.clk = s.clk
  curT : t.curT = s.curT
  mem  : t.mem = s.mem
  core : ∀ c, t.core c = { s.core c with mtx := (t.core c).mtx }

namespace State.MatrixOnly

variable {s t : State}

theorem refl (s : State) : s.MatrixOnly s := ⟨rfl, rfl, rfl, fun _ => rfl⟩

theorem updMtx (h : s.MatrixOnly t) (cell : Nat) (f : Matrix → Matrix) : s.MatrixOnly (t.updMtx cell f) where
  clk := h.clk
  curT := h.curT
  mem := h.mem
  core c := by
    by_cases hc : c = cell
    · subst hc
      rw [State.mtx_updMtx_self, State.updMtx, State.core_updCore_self, h.core]
    · rw [State.mtx_updMtx_ne hc, State.updMtx, State.core_updCore_ne _ _ _ _ hc]
      exact h.core c

theorem after (h : s.MatrixOnly t) (n phase key : Nat) (item : Item) : s.MatrixOnly (t.after n phase key item) where
  clk := (State.at'_clk _ _ _ _ _).trans h.clk
  curT := (State.at'_curT _ _ _ _ _).trans h.curT
  mem := (State.at'_mem _ _ _ _ _).trans h.mem
  core c := by simpa using h.core c

theorem access (h : s.MatrixOnly t) (offset space : Nat) (ls : List AccessLine) (k : AccessKind) : s.MatrixOnly (t.access offset space ls k) where
  clk := by simp [h.clk]
  curT := by simp [h.curT]
  mem := by simp [h.mem]
  core c := by simpa using h.core c

theorem pairReads (h : s.MatrixOnly t) (id : Nat) (scale : Bool) (a offset u n : Nat) :
    s.MatrixOnly (t.pairReads id scale a offset u n) := by
  induction n generalizing t u with
  | zero => exact h
  | succ n ih => exact ih (h.access _ _ _ _) _

theorem scaleRead (h : s.MatrixOnly t) (id a lines : Nat) : s.MatrixOnly (t.scaleRead id a lines) := h.access _ _ _ _

theorem setBusy (h : s.MatrixOnly t) (cell : Nat) (bits : List (Nat × Nat)) : s.MatrixOnly (t.setBusy cell bits) := h.updMtx _ _

theorem charge (h : s.MatrixOnly t) (n : Nat) : s.MatrixOnly (t.charge n) := h.updMtx _ _

theorem setBusys (h : s.MatrixOnly t) (cells : List Nat) (bits : List (Nat × Nat)) :
    s.MatrixOnly (cells.foldl (fun u x => u.setBusy x bits) t) := List.foldlRecOn cells _ h fun _ hu _ _ => hu.setBusy _ _

theorem command (s : State) (offset opcode : Nat) (kind : MatrixKind) (record : Word) (address scaleAt : Nat) (planes : List (Nat × Plane)) :
    s.MatrixOnly (s.command offset opcode kind record address scaleAt planes) :=
  (updMtx (s := s) (t := { s with nextId := s.nextId + 1 }) ⟨rfl, rfl, rfl, fun _ => rfl⟩ _ _).after _ _ _ _

theorem regs (h : s.MatrixOnly t) (c : Nat) : (t.core c).regs = (s.core c).regs := by rw [h.core]
theorem ctl (h : s.MatrixOnly t) (c : Nat) : (t.core c).ctl = (s.core c).ctl := by rw [h.core]
theorem faults (h : s.MatrixOnly t) (c : Nat) : (t.core c).faults = (s.core c).faults := by rw [h.core]

end State.MatrixOnly

/-! ## Issue of a command (R193, R194, R199) -/

theorem State.core_pairReads (s : State) (id : Nat) (scale : Bool) (a offset u n c : Nat) :
    (s.pairReads id scale a offset u n).core c = s.core c := by
  induction n generalizing s u with
  | zero => rfl
  | succ n ih => rw [State.pairReads, ih, State.core_access]

theorem State.core_scaleRead (s : State) (id a lines c : Nat) : (s.scaleRead id a lines).core c = s.core c := State.core_access _ _ _ _ _ _

theorem State.accesses_pairReads (s : State) (id : Nat) (scale : Bool) (a offset u n : Nat) :
    s.accesses ⊆ (s.pairReads id scale a offset u n).accesses := by
  induction n generalizing s u with
  | zero => exact List.Subset.refl _
  | succ n ih =>
    refine List.Subset.trans ?_ (ih _ _)
    rw [State.access_accesses]
    exact List.subset_append_left _ _

/-- The access of one pair among those of a run. -/
theorem State.mem_pairReads (s : State) (id : Nat) (scale : Bool) (a offset : Nat) {u n v : Nat} (hu : u ≤ v) (hv : v < u + n) :
    ∃ x ∈ (s.pairReads id scale a offset u n).accesses, x.due = s.clk + (offset + v) ∧ x.cell = s.curT.cell ∧ x.space = 0 ∧
      x.kind = .matrix id scale ∧ x.lines = pairLines a v := by
  induction n generalizing s u with
  | zero => omega
  | succ n ih =>
    rcases hu.eq_or_lt with rfl | hlt
    · have hlast := State.access_accesses s (offset + u) 0 (pairLines a u) (.matrix id scale)
      exact ⟨_, State.accesses_pairReads (s.access (offset + u) 0 (pairLines a u) (.matrix id scale)) id scale a offset (u + 1) n
        (hlast ▸ List.mem_append_right _ (List.mem_singleton.mpr rfl)), rfl, rfl, rfl, rfl, rfl⟩
    · obtain ⟨x, hx, hread⟩ := ih (s.access (offset + u) 0 (pairLines a u) (.matrix id scale)) (show u + 1 ≤ v from hlt) (by omega)
      simp only [State.access_clk, State.access_curT] at hread
      exact ⟨x, hx, hread⟩

/-- A pair that a run reads, in the words of the statements. -/
theorem Claims.readsPair_of_pairReads {s t u : State} (h : s.MatrixOnly u) (scale : Bool) (a offset : Nat) {n v : Nat} (hv : v < n)
    (ht : (u.pairReads s.nextId scale a offset 0 n).accesses ⊆ t.accesses) : Claims.readsPair s t scale (offset + v) (a + 128 * v) v := by
  obtain ⟨x, hx, hdue, hcell, hspace, hkind, hlines⟩ := u.mem_pairReads s.nextId scale a offset (Nat.zero_le v) (by omega : v < 0 + n)
  exact ⟨x, ht hx, by rw [hdue, h.clk], by rw [hcell, h.curT], hspace, hkind, hlines⟩

/-- The command as it is listed at issue. -/
def State.issued (s : State) (offset opcode : Nat) (kind : MatrixKind) (record : Word) (address scaleAt : Nat) (planes : List (Nat × Plane)) :
    MatrixCommand :=
  { id := s.nextId, issued := s.clk, ends := s.clk + offset, opcode, pc := s.curT.pc, kind, record, address, scaleAt, elems := [],
    scales := [], planes, abandoned := false }

theorem State.mtx_command (s : State) (offset opcode : Nat) (kind : MatrixKind) (record : Word) (address scaleAt : Nat)
    (planes : List (Nat × Plane)) : ((s.command offset opcode kind record address scaleAt planes).core s.curT.cell).mtx =
      { s.cur.mtx with cmds := s.cur.mtx.cmds ++ [s.issued offset opcode kind record address scaleAt planes] } := by
  rw [State.command, State.core_after, State.mtx_updMtx_self]
  rfl

/-- A command listed on the executing core has begun. -/
theorem Claims.began_of_cmds {s t : State} (h : s.MatrixOnly t) {k : MatrixCommand → Prop} {x : MatrixCommand}
    (hcmds : (Claims.core s t).mtx.cmds = s.cur.mtx.cmds ++ [x]) (hx : k x) : Claims.began s t k :=
  ⟨⟨x, hcmds, hx⟩, h.regs _, h.mem⟩

/-- The bits of a core that are set last until their offsets; nothing else of its engine changes. -/
theorem State.mtx_setBusys (s : State) (cells : List Nat) (bits : List (Nat × Nat)) (c : Nat) :
    ∃ v : Vector Nat 6, ((cells.foldl (fun u x => u.setBusy x bits) s).core c).mtx = { (s.core c).mtx with clears := v } ∧
      (c ∈ cells → ∃ w : Vector Nat 6, v = bits.foldl (fun v b => v.setIfInBounds b.1 (s.clk + b.2)) w) := by
  induction cells using List.reverseRecOn with
  | nil => exact ⟨_, rfl, fun h => by cases h⟩
  | append_singleton cells x ih =>
    obtain ⟨v, hv, hin⟩ := ih
    rw [List.foldl_append, List.foldl_cons, List.foldl_nil, State.setBusy, ((State.MatrixOnly.refl s).setBusys cells bits).clk]
    by_cases hc : c = x
    · subst hc
      rw [State.mtx_updMtx_self, hv]
      exact ⟨_, rfl, fun _ => ⟨v, rfl⟩⟩
    · rw [State.mtx_updMtx_ne hc]
      exact ⟨v, hv, fun h => hin (by simpa [hc] using h)⟩

/-- A charge leaves the busy bits of every core. -/
theorem State.clears_charge (s : State) (n c : Nat) : ((s.charge n).core c).mtx.clears = (s.core c).mtx.clears := by
  by_cases hc : c = s.curT.cell
  · rw [hc, State.charge, State.mtx_updMtx_self]
  · rw [State.charge, State.mtx_updMtx_ne hc]

end Sys2Proof.Machine

/-! SUPPORT. The end of a matrix command: its flags, and the tiles that MZERO and MSCL leave. -/

namespace Sys2Proof.Machine

open Sys2Proof

/-! ## The end of a command (R194, R196) -/

/-- The core's commands that end now are no longer listed. -/
def State.lessEnded (s : State) (cell : Nat) : State :=
  s.updMtx cell fun m => { m with cmds := m.cmds.filter fun k => !decide (k.ends ≤ s.clk) }

theorem State.matrixOnly_lessEnded (s : State) (cell : Nat) : s.MatrixOnly (s.lessEnded cell) := (State.MatrixOnly.refl s).updMtx _ _

/-- A member's engine but for its list of commands. -/
theorem State.mtx_lessEnded (s : State) (cell c : Nat) :
    ∃ l, ((s.lessEnded cell).core c).mtx = { (s.core c).mtx with cmds := l } := by
  by_cases hc : c = cell
  · subst hc
    exact ⟨_, State.mtx_updMtx_self _ _ _⟩
  · exact ⟨_, State.mtx_updMtx_ne hc _⟩

theorem exec_matrixCommandEnd {s : State} {cell : Nat} {k : MatrixCommand} (h : Claims.endsNow s cell k) :
    exec (.matrixCommandEnd cell) s = .next ((s.lessEnded cell).completeCommand cell k) := by
  show execMatrixCommandEnd cell s = _
  rw [execMatrixCommandEnd, h.1]
  rfl

/-- A command that changes engines only has ended as stated. -/
theorem Claims.commandEnd_of_matrixOnly {s t : State} {cell : Nat} {k : MatrixCommand} {p : State → Prop} (hk : Claims.endsNow s cell k)
    (ht : (s.lessEnded cell).completeCommand cell k = t) (h : s.MatrixOnly t) (hp : p t) : Claims.commandEnd s cell p :=
  ⟨t, ht ▸ exec_matrixCommandEnd hk, h.mem, h.regs, hp⟩

theorem State.core_noteFault (s : State) (cell issued : Nat) (act : FaultAct) (i : FaultInfo) :
    (s.noteFault cell issued act i).core cell = { s.core cell with faults := (s.core cell).faults ++ [{ issued, act, info := i }] } := by
  simp [State.noteFault]

theorem State.core_noteFault_ne {s : State} {cell c : Nat} (h : c ≠ cell) (issued : Nat) (act : FaultAct) (i : FaultInfo) :
    (s.noteFault cell issued act i).core c = s.core c := by
  simp [State.noteFault, State.core_updCore_ne _ _ _ _ h]

theorem State.mem_noteFault (s : State) (cell issued : Nat) (act : FaultAct) (i : FaultInfo) :
    (s.noteFault cell issued act i).mem = s.mem := State.at'_mem _ _ _ _ _

/-- What a command's flags do: they are sticky, an enabled one traps, and memory, registers and engines stay. -/
theorem State.matrixFlags_spec (s : State) (cell : Nat) (k : MatrixCommand) (u : Flags) :
    (s.matrixFlags cell k u).mem = s.mem ∧ (∀ c, ((s.matrixFlags cell k u).core c).regs = (s.core c).regs) ∧
    (∀ c, ((s.matrixFlags cell k u).core c).mtx = (s.core c).mtx) ∧
    ((s.matrixFlags cell k u).core cell).ctl.mx = (s.core cell).ctl.mx ||| u ∧
    ((s.matrixFlags cell k u).core cell).faults = (s.core cell).faults ++ (if u &&& (s.core cell).ctl.mxe = 0 then [] else
      [{ issued := k.issued, act := .trap, info := { cause := 19, slot := 1, lane := 0, pc := k.pc, val := arithVal u k.opcode } }]) := by
  obtain ⟨r, hr⟩ : ∃ r, r = s.updCore cell fun c => { c with ctl := c.ctl.raise .mx u } := ⟨_, rfl⟩
  have hmem : r.mem = s.mem := by rw [hr]; rfl
  have hself : r.core cell = { s.core cell with ctl := (s.core cell).ctl.raise .mx u } := by rw [hr, State.core_updCore_self]
  have hother : ∀ c, c ≠ cell → r.core c = s.core c := fun c hc => by rw [hr, State.core_updCore_ne _ _ _ _ hc]
  rw [State.matrixFlags, ← hr]
  by_cases hu : u &&& (s.core cell).ctl.mxe = 0
  · rw [if_pos (by simpa using hu), if_pos hu, hself]
    refine ⟨hmem, fun c => ?_, fun c => ?_, rfl, (List.append_nil _).symm⟩
    all_goals by_cases hc : c = cell <;> simp [hc, hself, hother]
  · rw [if_neg (by simpa using hu), if_neg hu, State.core_noteFault, hself]
    refine ⟨(State.mem_noteFault _ _ _ _ _).trans hmem, fun c => ?_, fun c => ?_, rfl, rfl⟩
    all_goals by_cases hc : c = cell <;> simp [hc, hself, hother, State.core_noteFault, State.core_noteFault_ne]

/-- A command that changes engines and then raises flags has ended as stated. -/
theorem Claims.commandEnd_of_matrixFlags {s t : State} {cell : Nat} {k : MatrixCommand} {u : Flags} {p : State → Prop} {raised : Nat → Prop}
    (hk : Claims.endsNow s cell k) (ht : (s.lessEnded cell).completeCommand cell k = t.matrixFlags cell k u) (h : s.MatrixOnly t)
    (hu : ∀ b, u.getLsbD b = true ↔ raised b)
    (hp : ∀ r : State, (∀ c, (r.core c).mtx = (t.core c).mtx) → Claims.raises s r cell k raised → p r) : Claims.commandEnd s cell p := by
  obtain ⟨hmem, hregs, hmtx, hmx, hfaults⟩ := t.matrixFlags_spec cell k u
  rw [h.ctl] at hmx
  rw [h.ctl, h.faults] at hfaults
  exact ⟨_, ht ▸ exec_matrixCommandEnd hk, hmem.trans h.mem, fun c => (hregs c).trans (h.regs c),
    hp _ hmtx ⟨u, fun b _ => hu b, hmx, hfaults⟩⟩

/-! ## Tiles zeroed and scaled (R210, R214) -/

theorem State.completeCommand_zero (s : State) (cell : Nat) {k : MatrixCommand} {tile : Nat} {f64 : Bool} (hlive : k.abandoned = false)
    (hk : k.kind = .zero tile f64) : s.completeCommand cell k =
      s.updMtx cell fun m => m.setTile tile { f64, fill := if f64 then 0 else 1, cells := [] } := by
  rw [State.completeCommand, if_neg (by simp [hlive]), hk]
  rfl

theorem scaleContainer_eq (f64 : Bool) (n : Int) (rnd : Nat) (x : Word) : scaleContainer f64 n rnd x = Claims.scaled f64 n rnd x := by
  rw [scaleContainer, Claims.scaled]
  cases f64
  · simp only [Bool.false_eq_true, if_false, Bool.or_eq_true, bne, beq_eq_decide, decide_eq_true_eq, decide_not, Bool.not_eq_true',
      decide_eq_false_iff_not, ne_eq]
    rfl
  · rfl

/-- Scaling rewrites every container of the tile. -/
theorem scaleTile_eq (n : Int) (rnd : Nat) (t : Tile) :
    scaleTile n rnd t = t.rewritten (256 * 128) fun e => Claims.scaled t.f64 n rnd (t.cells.getD e t.fill) := by
  simp only [scaleTile, scaleContainer_eq]
  rfl

theorem State.completeCommand_scale (s : State) (cell : Nat) {k : MatrixCommand} {tile : Nat} {n : Int} {rnd : Nat} (hlive : k.abandoned = false)
    (hk : k.kind = .scale tile n rnd) : s.completeCommand cell k =
      (s.updMtx cell fun m => m.setTile tile (scaleTile n rnd ((s.core cell).mtx.tile tile)).1).matrixFlags cell k
        (scaleTile n rnd ((s.core cell).mtx.tile tile)).2 := by
  rw [State.completeCommand, if_neg (by simp [hlive]), hk]

theorem tileEnds_hold : Claims.tileEnds := by
  constructor
  · intro cell tile f64 k s hend hk
    refine Claims.commandEnd_of_matrixOnly hend (State.completeCommand_zero _ _ hend.2 hk) ((s.matrixOnly_lessEnded cell).updMtx _ _) ?_
    rw [State.mtx_updMtx_self, State.lessEnded, State.mtx_updMtx_self]
  · intro cell tile n rnd k s hend hk htile old
    have hold : ((s.lessEnded cell).core cell).mtx.tile tile = old := by rw [State.lessEnded, State.mtx_updMtx_self]; rfl
    have hends := State.completeCommand_scale (s.lessEnded cell) cell hend.2 hk
    rw [hold, scaleTile_eq] at hends
    obtain ⟨hmode, -⟩ := old.rewritten_spec (256 * 128) fun e => Claims.scaled old.f64 n rnd (old.cells.getD e old.fill)
    refine Claims.commandEnd_of_matrixFlags hend hends ((s.matrixOnly_lessEnded cell).updMtx _ _) (old.flags_rewritten 256 _)
      fun t hmtx hraises => ?_
    rw [hmtx, State.mtx_updMtx_self, Matrix.tile_setTile_self htile]
    refine ⟨hmode, fun r hr c hc => ?_, fun x hx => ?_, hraises⟩
    · rw [Tile.at'_rewritten old 256 _ hc, if_pos hr]
      rfl
    · rw [Matrix.tile_setTile_ne hx, State.lessEnded, State.mtx_updMtx_self]
      rfl

end Sys2Proof.Machine

/-! SUPPORT. The matrix commands that stream nothing: their issue, readouts and row writes. -/

namespace Sys2Proof.Machine

open Sys2Proof

/-! ## Commands on tiles at issue (R210 to R214) -/

/-- A command on one tile of 16 ticks, as MZERO and MSCL issue it. -/
theorem began_on_tile (s : State) (opcode : Nat) (kind : MatrixKind) {tile : Nat} (htile : tile < 4) {p : MatrixCommand → Prop}
    (hp : p (s.issued 16 opcode kind 0 0 0 [])) :
    (Claims.core s ((s.command 16 opcode kind 0 0 0 []).setBusy s.curT.cell [(tile, 16)])).mtx.clears[tile]?.getD 0 = s.clk + 16 ∧
      Claims.began s ((s.command 16 opcode kind 0 0 0 []).setBusy s.curT.cell [(tile, 16)]) p := by
  have hframe : s.MatrixOnly (s.command 16 opcode kind 0 0 0 []) := .command s _ _ _ _ _ _ _
  constructor
  · simp only [Claims.core, State.setBusy, State.mtx_updMtx_self, hframe.clk, List.foldl_cons, List.foldl_nil]
    simp [show tile < 6 by omega]
  · refine Claims.began_of_cmds (hframe.updMtx _ _) ?_ hp
    rw [Claims.core, State.mtx_updMtx_self, State.mtx_command]

/-! ## Rows read into lanes (R211) -/

/-- Lane `j` of a readout's row: `n` containers stand in the lanes from `base` on. -/
theorem lane_readout {w base n j : Nat} (hj : j < 256 / w) (value : Nat → Nat) :
    lane (packLanes w ((List.range n).map fun i => (base + i, value i))) w j =
      if base ≤ j ∧ j < base + n then value (j - base) % 2 ^ (8 * w) else 0 := by
  have hdistinct : (((List.range n).map fun i => (base + i, value i)).map (·.1)).Nodup := by
    rw [List.map_map]
    exact List.nodup_range.map (add_right_injective base)
  split_ifs with h
  · exact lane_packLanes_of_mem hj hdistinct (List.mem_map.mpr ⟨j - base, List.mem_range.mpr (by omega), by rw [Nat.add_sub_cancel' h.1]⟩)
  · refine lane_packLanes_of_not_mem hj hdistinct fun l hl => ?_
    obtain ⟨i, hi, rfl⟩ := List.mem_map.mp hl
    have := List.mem_range.mp hi
    simp only
    omega

/-- What the readout `f` delivers of container `i` of its part of the row, when it draws nothing. -/
def State.readout (s : State) (f : FormE) (i : Nat) : Nat × Flags :=
  let z := s.cur.mtx.tile f.f1.toNat
  readContainer z.f64 f.tag.toNat (if f.func.toNat / 4 % 8 = 6 then s.cur.ctl.rnd else f.func.toNat / 4 % 8) (fbit f.func 5)
    (z.at' (s.cur.s' f.f3.toNat).toNat (f.func.toNat / 64 % 4 * min (256 / typeBytes f.tag.toNat) 128 + i)) 0

/-- The first lane that a readout fills. -/
def readoutBase (f : FormE) : Nat := if typeBytes f.tag.toNat = 1 then 128 * (f.func.toNat / 2 ^ 8 % 2) else 0

theorem exec_mrdz {g : Gate} {f : FormE} {s : State} (h : s.issues g = true) (hf : s.matrixFault (.mrdz g f) = none)
    (hdraw : f.func.toNat / 4 % 8 ≠ 5) {n : Nat} (hn : n = min (256 / typeBytes f.tag.toNat) 128) :
    exec (.mrdz g f) s = .next (s.flight 6 0x07
      [.v f.f2.toNat (packLanes (typeBytes f.tag.toNat) ((List.range n).map fun i => (readoutBase f + i, (s.readout f i).1)))
        (maskLanes (typeBytes f.tag.toNat) ((List.range n).map fun i => readoutBase f + i))] .mx
      (((List.range n).map fun i => (readoutBase f + i, (s.readout f i).2)).filter fun x => x.2 != 0) none) := by
  have hno : s.drawIf (fld f.func 2 3) n = ([], s) := by
    rw [State.drawIf, if_neg (by simpa [fld] using hdraw)]
  show execMrdz g f s = _
  rw [execMrdz, hf, State.guarded_on h]
  subst hn
  simp only [hno, List.map_map, Function.comp_def]
  simp [readoutBase, State.readout, TimedControl.rounding, fld]

/-- The bits of a readout's lanes. -/
theorem lane_readoutBits {w base n j : Nat} (hj : j < 256 / w) :
    lane (maskLanes w ((List.range n).map fun i => base + i)) w j = if base ≤ j ∧ j < base + n then 2 ^ (8 * w) - 1 else 0 := by
  rw [lane_maskLanes hj _ (List.nodup_range.map (add_right_injective base))]
  refine if_congr ⟨fun h => ?_, fun h => ?_⟩ rfl rfl
  · obtain ⟨i, hi, rfl⟩ := List.mem_map.mp h
    have := List.mem_range.mp hi
    omega
  · exact List.mem_map.mpr ⟨j - base, List.mem_range.mpr (by omega), Nat.add_sub_cancel' h.1⟩

/-! ## Lanes written to a row (R212) -/

theorem lane_eight_eq (x : VReg) (j : Nat) : word (lane x 8 j) = x.extractLsb' (64 * j) 64 := by
  apply BitVec.eq_of_toNat_eq
  rw [word, BitVec.toNat_ofNat, BitVec.extractLsb'_toNat, Nat.shiftRight_eq_div_pow]
  exact Nat.mod_mod _ _

theorem exec_mwrz {g : Gate} {f : FormE} {s : State} (h : s.issues g = true) (hf : s.matrixFault (.mwrz g f) = none) :
    ∃ fl, exec (.mwrz g f) s = .next ((s.setBusy s.curT.cell [(f.f1.toNat, 3)]).flight 2 0x08 [.zrow f.f1.toNat
      (128 * (s.cur.s' f.f3.toNat).toNat + (if f.tag = 10 then 64 else 32) * (f.func.toNat / 4 % 4))
      (if f.tag = 10
        then (List.range 64).map fun j => BitVec.ofNat 64 (writeContainer (s.cur.mtx.tile f.f1.toNat).f64 (lane (s.cur.v' f.f2.toNat) 4 j)).1
        else (List.range 32).map fun j => (s.cur.v' f.f2.toNat).extractLsb' (64 * j) 64)] .mx fl none) := by
  show ∃ fl, execMwrz g f s = _
  rw [execMwrz, hf, State.guarded_on h]
  by_cases ht : f.tag = 10
  · simp only [ht, bne_self_eq_false, Bool.false_eq_true, if_false, if_true, List.map_map]
    exact ⟨_, rfl⟩
  · simp only [bne_iff_ne.mpr ht, ht, if_true, if_false, List.map_map, Function.comp_def, lane_eight_eq]
    exact ⟨_, rfl⟩

/-- Settles O25: each command by its one equation at issue, a tile's end by the rewrite of its containers. -/
theorem matrixCommandsComplete : Obligations.MatrixCommandsComplete := by
  refine ⟨fun g f s h hf => ?_, fun g f s h hf htile => ?_, fun g f s h hf htile => ?_, fun g f s h hf => ?_, fun g f s h hf => ?_,
    fun g f s h => ?_, fun g f s h hf => ?_, fun g f s h hf => exec_mwrz h hf, tileEnds_hold, fun _ => rfl⟩
  · show execMswap g f s = _
    rw [execMswap, hf, State.guarded_on h]
  · refine ⟨_, ?_, began_on_tile s 0x06 (.zero f.f1.toNat (f.tag == 11)) htile ⟨rfl, rfl⟩⟩
    show execMzero g f s = _
    rw [execMzero, hf, State.guarded_on h]
  · refine ⟨_, ?_, began_on_tile s 0x0A (.scale f.f1.toNat (clampInt (-8192) 8192 (s.cur.s' f.f2.toNat).toInt)
      (s.cur.ctl.rounding (fld f.func 2 3))) htile ⟨rfl, _, _, rfl, ?_⟩⟩
    · show execMscl g f s = _
      rw [execMscl, hf, State.guarded_on h]
    · rw [clampInt_eq (by decide), min_comm]
  · show execMchk g f s = _
    rw [execMchk, hf, State.guarded_on h]
  · show execMgang g f s = _
    rw [execMgang, hf, State.guarded_on h]
    rfl
  · show execMec g f s = _
    rw [execMec, State.guarded_on h]
    cases fbit f.func 2 <;> rfl
  · intro z w n base rnd hdraw
    refine ⟨_, _, _, exec_mrdz h hf hdraw rfl, fun j hj => ?_⟩
    rw [lane_readoutBits hj, lane_readout hj]
    by_cases hin : base ≤ j ∧ j < base + n
    · rw [if_pos hin]
      exact ⟨if_pos hin, if_pos hin⟩
    · rw [if_neg hin]
      exact if_neg hin

end Sys2Proof.Machine

/-! SUPPORT. The issue of loads and products: what they list, set busy, charge and read. -/

namespace Sys2Proof.Machine

open Sys2Proof

/-! ## The reads of a load or a product (R193) -/

/-- The reads of a command: in block mode its scale lines first, then its pairs one tick later. -/
def State.blockReads (s : State) (id block scaleAt lines a n : Nat) : State :=
  (if block = 1 then s.scaleRead id scaleAt lines else s).pairReads id false a (2 + block) 0 n

theorem State.MatrixOnly.scaleLines {s t : State} (h : s.MatrixOnly t) (id block scaleAt lines : Nat) :
    s.MatrixOnly (if block = 1 then t.scaleRead id scaleAt lines else t) := by
  split
  · exact h.scaleRead _ _ _
  · exact h

theorem State.MatrixOnly.blockReads {s t : State} (h : s.MatrixOnly t) (id block scaleAt lines a n : Nat) :
    s.MatrixOnly (t.blockReads id block scaleAt lines a n) := (h.scaleLines id block scaleAt lines).pairReads _ _ _ _ _ _

theorem State.core_blockReads (s : State) (id block scaleAt lines a n c : Nat) : (s.blockReads id block scaleAt lines a n).core c = s.core c := by
  rw [State.blockReads, State.core_pairReads]
  split
  · exact State.core_scaleRead _ _ _ _ _
  · rfl

theorem Claims.readsPair_of_blockReads {s t : State} (h : s.MatrixOnly t) (block scaleAt lines a : Nat) {n u : Nat} (hu : u < n) :
    Claims.readsPair s (t.blockReads s.nextId block scaleAt lines a n) false (2 + block + u) (a + 128 * u) u :=
  Claims.readsPair_of_pairReads (h.scaleLines s.nextId block scaleAt lines) false a (2 + block) hu (List.Subset.refl _)

/-- The cost of a command: its effective class's weight for each tick and member (R199). -/
theorem energyCost_eq (f : FormE) (least ticks members : Nat) :
    energyCost f least ticks members = (max (f.func.toNat % 4) least + 1) * ticks * members := by
  simp [energyCost, fld]

/-! ## Loads at issue (R193, R194, R199) -/

theorem loadPairs_mldst (r : Word) : loadPairs true r = if recMx r = 0 then 64 else 128 := by simp [loadPairs]

/-- A load's command, busy bit and charge, before its reads. -/
def State.loadBegun (s : State) (f : FormE) (mx : Bool) (opcode ends pairs : Nat) : State :=
  ((s.command ends opcode (.load mx (fbit f.func 2)) (s.cur.mtx.record f) (s.cur.s' f.f1.toNat).toNat (s.cur.s' f.f2.toNat).toNat []).setBusy
    s.curT.cell [(4, ends)]).charge (energyCost f 0 pairs 1)

theorem State.matrixOnly_loadBegun (s : State) (f : FormE) (mx : Bool) (opcode ends pairs : Nat) :
    s.MatrixOnly (s.loadBegun f mx opcode ends pairs) := ((State.MatrixOnly.command s _ _ _ _ _ _ _).setBusy _ _).charge _

/-- The load's command is listed, its shadow busy until its end, its pairs charged by its class. -/
theorem State.mtx_loadBegun (s : State) (f : FormE) (mx : Bool) (opcode ends pairs : Nat) :
    (Claims.core s (s.loadBegun f mx opcode ends pairs)).mtx.cmds = s.cur.mtx.cmds ++ [s.issued ends opcode (.load mx (fbit f.func 2))
      (s.cur.mtx.record f) (s.cur.s' f.f1.toNat).toNat (s.cur.s' f.f2.toNat).toNat []] ∧
    (Claims.core s (s.loadBegun f mx opcode ends pairs)).mtx.clears[4]?.getD 0 = s.clk + ends ∧
    (Claims.core s (s.loadBegun f mx opcode ends pairs)).mtx.bucket = s.cur.mtx.bucket - BitVec.ofNat 64 ((f.func.toNat % 4 + 1) * pairs) := by
  have hframe := State.MatrixOnly.command s ends opcode (.load mx (fbit f.func 2)) (s.cur.mtx.record f) (s.cur.s' f.f1.toNat).toNat
    (s.cur.s' f.f2.toNat).toNat []
  have hbusy := hframe.setBusy s.curT.cell [(4, ends)]
  rw [Claims.core, State.loadBegun, State.charge, hbusy.curT, State.mtx_updMtx_self, State.setBusy, State.mtx_updMtx_self, State.mtx_command,
    hframe.clk]
  refine ⟨rfl, ?_, ?_⟩
  · simp
  · simp [energyCost_eq, word]

/-- What holds of a load once it has begun holds at its issue: its reads change no core. -/
theorem load_begun {s t : State} {f : FormE} {mx : Bool} {opcode ends pairs : Nat} (hframe : s.MatrixOnly t)
    (hcore : t.core s.curT.cell = (s.loadBegun f mx opcode ends pairs).core s.curT.cell) :
    Claims.began s t (fun k => k.ends = s.clk + ends ∧ k.kind = .load mx (fbit f.func 2) ∧ k.record = s.cur.mtx.record f) ∧
      (Claims.core s t).mtx.clears[4]?.getD 0 = s.clk + ends ∧
      (Claims.core s t).mtx.bucket = s.cur.mtx.bucket - BitVec.ofNat 64 ((f.func.toNat % 4 + 1) * pairs) := by
  obtain ⟨hcmds, hclears, hbucket⟩ := s.mtx_loadBegun f mx opcode ends pairs
  rw [Claims.core, ← hcore] at hcmds hclears hbucket
  exact ⟨Claims.began_of_cmds hframe hcmds ⟨rfl, rfl, rfl⟩, hclears, hbucket⟩

theorem exec_mlds {g : Gate} {f : FormE} {s : State} (h : s.issues g = true) (hf : s.matrixFault (.mlds g f) = none) {block pairs : Nat}
    (hblock : block = if isBlockType (recStype (s.cur.mtx.record f)) then 1 else 0) (hpairs : pairs = loadPairs false (s.cur.mtx.record f)) :
    exec (.mlds g f) s = .next ((s.loadBegun f false 0x01 (2 + block + pairs + 4) pairs).blockReads s.nextId block (s.cur.s' f.f2.toNat).toNat 1
      (s.cur.s' f.f1.toNat).toNat pairs) := by
  show s.loadPlane g f (.mlds g f) false 0x01 = _
  rw [State.loadPlane, hf, State.guarded_on h]
  subst hblock hpairs
  simp only [beq_iff_eq]
  rfl

theorem exec_mldst {g : Gate} {f : FormE} {s : State} (h : s.issues g = true) (hf : s.matrixFault (.mldst g f) = none) {pairs : Nat}
    (hpairs : pairs = loadPairs true (s.cur.mtx.record f)) :
    exec (.mldst g f) s = .next (((s.loadBegun f true 0x02 (6 + pairs + 8) pairs).pairReads s.nextId true (s.cur.s' f.f2.toNat).toNat 2 0 4).pairReads
      s.nextId false (s.cur.s' f.f1.toNat).toNat 6 0 pairs) := by
  show s.loadPlane g f (.mldst g f) true 0x02 = _
  rw [State.loadPlane, hf, State.guarded_on h]
  subst hpairs
  rfl

theorem matrixLoads_hold : Claims.matrixLoads := by
  constructor
  · intro g f s h hf r block pairs a
    have hbegun := s.matrixOnly_loadBegun f false 0x01 (2 + block + pairs + 4) pairs
    obtain ⟨hcmds, hclears, hbucket⟩ := load_begun (hbegun.blockReads s.nextId block (s.cur.s' f.f2.toNat).toNat 1 a pairs)
      (State.core_blockReads _ _ _ _ _ _ _ _)
    exact ⟨_, exec_mlds h hf rfl rfl, hcmds, hclears, hbucket, fun u hu => Claims.readsPair_of_blockReads hbegun block _ 1 a hu⟩
  · intro g f s h hf r pairs a b
    have hbegun := s.matrixOnly_loadBegun f true 0x02 (6 + pairs + 8) pairs
    have hscales := hbegun.pairReads s.nextId true b 2 0 4
    obtain ⟨hcmds, hclears, hbucket⟩ := load_begun (hscales.pairReads s.nextId false a 6 0 pairs)
      ((State.core_pairReads _ _ _ _ _ _ _ _).trans (State.core_pairReads _ _ _ _ _ _ _ _))
    exact ⟨_, exec_mldst h hf (loadPairs_mldst r).symm, hcmds, hclears, hbucket,
      fun u hu => Claims.readsPair_of_pairReads hscales false a 6 hu (List.Subset.refl _),
      fun u hu => Claims.readsPair_of_pairReads hbegun true b 2 hu (State.accesses_pairReads _ _ _ _ _ _ _)⟩

/-! ## Products at issue (R202, R208, R209) -/

/-- The cores whose array and tile a product keeps busy: its own, and for a gang product its peers. -/
def State.productCells (s : State) (f : FormE) : List Nat :=
  s.curT.cell :: (if fbit f.func 2 then (s.gangPeers s.curT.cell).map (·.1) else [])

/-- The planes that a product begins with: those in use on its members. -/
def State.productPlanes (s : State) (f : FormE) : List (Nat × Plane) := (s.productCells f).map fun x => (x, (s.core x).mtx.active)

/-- A product's command alone. -/
def State.productCommand (s : State) (f : FormE) (opcode : Nat) (kind : MatrixKind) (ends : Nat) : State :=
  s.command ends opcode kind (s.cur.mtx.record f) (s.cur.s' f.f2.toNat).toNat (s.cur.s' f.f4.toNat).toNat (s.productPlanes f)

/-- A product's command, its members' busy bits and its charge, before its reads. -/
def State.productBegun (s : State) (f : FormE) (opcode : Nat) (kind : MatrixKind) (array ends cost : Nat) : State :=
  ((s.productCells f).foldl (fun u x => u.setBusy x [(5, array), (f.f1.toNat, ends)]) (s.productCommand f opcode kind ends)).charge cost

theorem State.matrixOnly_productBegun (s : State) (f : FormE) (opcode : Nat) (kind : MatrixKind) (array ends cost : Nat) :
    s.MatrixOnly (s.productBegun f opcode kind array ends cost) := ((State.MatrixOnly.command s _ _ _ _ _ _ _).setBusys _ _).charge _

/-- The product's command is listed, every member's array and tile busy, and its cost charged. -/
theorem State.mtx_productBegun (s : State) (f : FormE) (opcode : Nat) (kind : MatrixKind) (array ends cost : Nat) (htile : f.f1.toNat < 4) :
    (Claims.core s (s.productBegun f opcode kind array ends cost)).mtx.cmds = s.cur.mtx.cmds ++ [s.issued ends opcode kind (s.cur.mtx.record f)
      (s.cur.s' f.f2.toNat).toNat (s.cur.s' f.f4.toNat).toNat (s.productPlanes f)] ∧
    (∀ x ∈ s.productCells f, ((s.productBegun f opcode kind array ends cost).core x).mtx.clears[5]?.getD 0 = s.clk + array) ∧
    (∀ x ∈ s.productCells f, ((s.productBegun f opcode kind array ends cost).core x).mtx.clears[f.f1.toNat]?.getD 0 = s.clk + ends) ∧
    (Claims.core s (s.productBegun f opcode kind array ends cost)).mtx.bucket = s.cur.mtx.bucket - BitVec.ofNat 64 cost := by
  have hframe : s.MatrixOnly (s.productCommand f opcode kind ends) := .command s _ _ _ _ _ _ _
  have hset := (s.productCommand f opcode kind ends).mtx_setBusys (s.productCells f) [(5, array), (f.f1.toNat, ends)]
  have hbits (x : Nat) (hx : x ∈ s.productCells f) : ∃ w : Vector Nat 6, ((s.productBegun f opcode kind array ends cost).core x).mtx.clears =
      (w.setIfInBounds 5 (s.clk + array)).setIfInBounds f.f1.toNat (s.clk + ends) := by
    obtain ⟨v, hv, hin⟩ := hset x
    obtain ⟨w, hw⟩ := hin hx
    rw [State.productBegun, State.clears_charge, hv, hw, hframe.clk]
    exact ⟨w, rfl⟩
  obtain ⟨v, hv, -⟩ := hset s.curT.cell
  have hown : (Claims.core s (s.productBegun f opcode kind array ends cost)).mtx = { s.cur.mtx with
      cmds := s.cur.mtx.cmds ++ [s.issued ends opcode kind (s.cur.mtx.record f) (s.cur.s' f.f2.toNat).toNat (s.cur.s' f.f4.toNat).toNat
        (s.productPlanes f)], clears := v, bucket := s.cur.mtx.bucket - word cost } := by
    rw [Claims.core, State.productBegun, State.charge, (hframe.setBusys _ _).curT, State.mtx_updMtx_self, hv, State.productCommand,
      State.mtx_command]
  rw [hown]
  refine ⟨rfl, fun x hx => ?_, fun x hx => ?_, rfl⟩
  all_goals
    obtain ⟨w, hw⟩ := hbits x hx
    rw [hw]
    simp [show f.f1.toNat < 6 by omega, show f.f1.toNat ≠ 5 by omega]

/-- The effect of a product that passes its checks. -/
theorem State.product_on {g : Gate} {f : FormE} {s : State} {i : Instr} {f64 : Bool} {opcode : Nat} (h : s.issues g = true)
    (hf : s.matrixFault i = none) {xt n block array tail : Nat} {kind : MatrixKind}
    (hxt : xt = recXtype (s.cur.mtx.record f)) (hn : n = (s.cur.s' f.f3.toNat).toNat)
    (hblock : block = if isBlockType xt then 1 else 0) (harray : array = 2 + block + productTicks xt n + if fbit f.func 2 then 2 else 0)
    (htail : tail = if f64 then 32 else 24) (hkind : kind = if f64 then .product64 f.f1.toNat n (s.cur.ctl.rounding (fld f.func 4 3)) (fbit f.func 3)
      else .product f.f1.toNat n (fbit f.func 3)) :
    s.product g f i f64 opcode = .next ((s.productBegun f opcode kind array (array + tail)
      (energyCost f (minClass xt) (productTicks xt n) (s.productCells f).length)).blockReads s.nextId block
        (s.cur.s' f.f4.toNat).toNat (scaleLines xt n) (s.cur.s' f.f2.toNat).toNat (productPairs xt n)) := by
  rw [State.product, hf, State.guarded_on h]
  subst hkind htail harray hblock hn hxt
  simp only [beq_iff_eq]
  rfl

theorem product_completes {i : Gate → FormE → Instr} {f64 : Bool} {opcode tail : Nat} {kind : State → FormE → MatrixKind}
    (hexec : ∀ g f s, exec (i g f) s = s.product g f (i g f) f64 opcode) (htail : tail = if f64 then 32 else 24)
    (hkind : ∀ s f, kind s f = if f64 then .product64 f.f1.toNat (s.cur.s' f.f3.toNat).toNat (s.cur.ctl.rounding (fld f.func 4 3)) (fbit f.func 3)
      else .product f.f1.toNat (s.cur.s' f.f3.toNat).toNat (fbit f.func 3)) : Claims.product i tail kind := by
  intro g f s h hf htile r xt n block array cells a
  have hon := State.product_on (opcode := opcode) h hf (show xt = _ from rfl) (show n = _ from rfl) (show block = _ from rfl)
    (show array = _ from rfl) htail (hkind s f)
  rw [← hexec] at hon
  obtain ⟨hcmds, harray, hends, hbucket⟩ := s.mtx_productBegun f opcode (kind s f) array (array + tail)
    (energyCost f (minClass xt) (productTicks xt n) (s.productCells f).length) htile
  have hbegun := s.matrixOnly_productBegun f opcode (kind s f) array (array + tail)
    (energyCost f (minClass xt) (productTicks xt n) (s.productCells f).length)
  refine ⟨_, hon, ?_, ?_, ?_, ?_, fun u hu => Claims.readsPair_of_blockReads hbegun block _ _ a hu⟩
  · exact Claims.began_of_cmds (hbegun.blockReads _ _ _ _ _ _) (by rw [Claims.core, State.core_blockReads]; exact hcmds) ⟨rfl, rfl, rfl, rfl⟩
  · simp only [State.core_blockReads]
    exact harray
  · simp only [State.core_blockReads]
    exact hends
  · rw [Claims.core, State.core_blockReads]
    exact energyCost_eq f (minClass xt) (productTicks xt n) (s.productCells f).length ▸ hbucket

theorem matrixProducts_hold : Claims.matrixProducts := by
  refine ⟨product_completes (f64 := false) (opcode := 0x04) (fun _ _ _ => rfl) rfl fun _ _ => rfl,
    product_completes (f64 := true) (opcode := 0x05) (fun _ _ _ => rfl) rfl fun s f => ?_⟩
  simp [TimedControl.rounding, fld]

end Sys2Proof.Machine

/-! SUPPORT. Reserved block codes, and the elements of a product. -/

namespace Sys2Proof.Machine

open Sys2Proof

/-! ## Reserved codes of block tensors (R46, R47, R197) -/

/-- A tile's edge divides 128. -/
theorem blockEdge_cases (t : Nat) : blockEdge t = 16 ∨ blockEdge t = 32 := by
  rw [blockEdge]
  split <;> simp

/-- Code `c` of row `r` of a tile. -/
def tileCode (x : Memory) (m t tile r c : Nat) : Nat := x.num ((tile * t * t + r * t) * m / 8) (t * m / 8) / 2 ^ (c * m) % 2 ^ m

theorem tileRow_eq (x : Memory) (m t tile r : Nat) : tileRow x m t tile r = (List.range t).map (tileCode x m t tile r) := rfl

theorem Claims.code_eq (x : Memory) (m t row k : Nat) :
    Claims.code x m t row k = tileCode x m t (row / t * (128 / t) + k / t) (row % t) (k % t) := rfl

theorem tileCode_lt (x : Memory) (m t tile r c : Nat) : tileCode x m t tile r c < 2 ^ m := Nat.mod_lt _ (Nat.two_pow_pos m)

theorem reservedScale_eq_none {scales : Memory} {tiles : Nat} :
    reservedScale scales tiles = none ↔ ∀ x < tiles, (scales.get x).toNat ≠ 255 := by
  simp [reservedScale]

theorem reservedCodeAt_eq_none {elems : Memory} {m t tiles rows nt : Nat} : reservedCodeAt elems m t tiles rows nt = none ↔
    ∀ tile < tiles, ∀ r < min t (rows - tile / nt * t), ∀ c < t, tileCode elems m t tile r c ≠ 2 ^ (m - 1) := by
  have hzip (tile r : Nat) : (List.range t).zip (tileRow elems m t tile r) = (List.range t).map fun c => (c, tileCode elems m t tile r c) := by
    have h := List.zip_map' (f := id) (g := tileCode elems m t tile r) (l := List.range t)
    rwa [List.map_id] at h
  simp only [reservedCodeAt, hzip, List.findSome?_eq_none_iff, List.mem_map, List.mem_range, forall_exists_index, and_imp, forall_apply_eq_imp_iff₂,
    reservedMant, ite_eq_right_iff, reduceCtorEq, imp_false, beq_iff_eq, ne_eq]

theorem reservedCode_eq_none {k : MatrixCommand} {m t tiles rows nt : Nat} : reservedCode k m t tiles rows nt = none ↔
    reservedScale k.scales tiles = none ∧ reservedCodeAt k.elems m t tiles rows nt = none := by
  rw [reservedCode]
  cases reservedScale k.scales tiles with
  | none => cases reservedCodeAt k.elems m t tiles rows nt <;> simp
  | some x =>
    cases reservedCodeAt k.elems m t tiles rows nt with
    | none => simp
    | some y => simp only [reduceCtorEq, and_self, iff_false]; split <;> simp

/-- The search over tiles and their rows finds no reserved code just when no scale and no code of the rows is one. -/
theorem reservedCode_eq_none_iff {k : MatrixCommand} {type tiles rows : Nat}
    (htiles : tiles = (rows + blockEdge type - 1) / blockEdge type * (128 / blockEdge type)) :
    reservedCode k (blockBits type) (blockEdge type) tiles rows (128 / blockEdge type) = none ↔ Claims.unreserved k type tiles rows := by
  rw [reservedCode_eq_none, reservedScale_eq_none, reservedCodeAt_eq_none, Claims.unreserved]
  refine and_congr_right fun _ => ⟨fun h j hj r hr => ?_, fun h tile htile r hr c hc => ?_⟩
  · rw [Claims.code_eq]
    apply h
    all_goals
      subst htiles
      rcases blockEdge_cases type with ht | ht <;> rw [ht] <;> omega
  · have hcode := h (tile / (128 / blockEdge type) * blockEdge type + r) (by omega) (tile % (128 / blockEdge type) * blockEdge type + c)
      (by rcases blockEdge_cases type with ht | ht <;> rw [ht] at hc ⊢ <;> omega)
    rw [Claims.code_eq] at hcode
    convert hcode using 2
    all_goals rcases blockEdge_cases type with ht | ht <;> rw [ht] at hr hc ⊢ <;> omega

/-- A command whose reserved code parks its core (R197). -/
theorem Claims.commandEnd_of_matrixPark {s : State} {cell : Nat} {k : MatrixCommand} {x : Nat × Word} (hk : Claims.endsNow s cell k)
    (ht : (s.lessEnded cell).completeCommand cell k = (s.lessEnded cell).matrixPark cell k x) :
    Claims.commandEnd s cell fun t => Claims.codeParks s t cell k := by
  have hframe := s.matrixOnly_lessEnded cell
  have hcore (c : Nat) : (((s.lessEnded cell).matrixPark cell k x).core c).regs = (s.core c).regs ∧
      (((s.lessEnded cell).matrixPark cell k x).core c).mtx = ((s.lessEnded cell).core c).mtx := by
    rw [State.matrixPark, ← hframe.regs]
    by_cases hc : c = cell
    · rw [hc, State.core_noteFault]
      exact ⟨rfl, rfl⟩
    · rw [State.core_noteFault_ne hc]
      exact ⟨rfl, rfl⟩
  have hfaults : (((s.lessEnded cell).matrixPark cell k x).core cell).faults = (s.core cell).faults ++
      [{ issued := k.issued, act := .park, info := { cause := 240, slot := 1, lane := x.1, pc := k.pc, val := x.2 } }] := by
    rw [State.matrixPark, State.core_noteFault, hframe.faults]
  have hmem : ((s.lessEnded cell).matrixPark cell k x).mem = s.mem := (State.mem_noteFault _ _ _ _ _).trans hframe.mem
  refine ⟨_, ht ▸ exec_matrixCommandEnd hk, hmem, fun c => (hcore c).1,
    fun c => ?_, _, hfaults, rfl, rfl, rfl⟩
  obtain ⟨l, hl⟩ := s.mtx_lessEnded cell c
  rw [(hcore c).2, hl]
  exact ⟨rfl, rfl, rfl⟩

/-! ## Elements of a product (R55 to R58) -/

theorem rowElems_eq (x : Memory) {w n : Nat} (hw : w * n = 128) (row : Nat) :
    rowElems x (128 * row) w n = (List.range n).map (Claims.element x w row) := by
  rw [rowElems, hw]
  rfl

theorem fpPartial_eq (e : Int) (xs : List (Val × Val)) : fpPartial e xs = Claims.blockSum e xs := by
  obtain ⟨ps, hps⟩ : ∃ ps, ps = xs.map fun x => mulVal x.1 x.2 := ⟨_, rfl⟩
  rw [fpPartial, Claims.blockSum, ← hps]
  cases ps.any Val.isNan with
  | true => rfl
  | false =>
    cases ps.any fun p => p.isInf && !p.sign with
    | true => cases ps.any fun p => p.isInf && p.sign <;> rfl
    | false => cases ps.any fun p => p.isInf && p.sign <;> rfl

/-- A run of a mapped range. -/
theorem take_drop_map_range {α : Type} (f : Nat → α) {n a l : Nat} (h : a + l ≤ n) :
    (((List.range n).map f).drop a).take l = (List.range l).map fun r => f (a + r) := by
  apply List.ext_getElem
  · simp; omega
  · intro i h1 h2
    simp

theorem fpPartials_eq (st xt : Nat) (a b : Nat → Nat) (n : Nat) : fpPartials st xt ((List.range n).map a) ((List.range n).map b) =
    (List.range (n / modeBlock st)).map fun q =>
      let r := Claims.blockSum (partialExp st xt) ((List.range (modeBlock st)).map fun r =>
        (fpToVal st (a (q * modeBlock st + r)), fpToVal xt (b (q * modeBlock st + r))))
      (r.1, partialExp st xt, r.2) := by
  rw [fpPartials, List.length_map, List.length_range]
  refine List.map_congr_left fun q hq => ?_
  have hrun : q * modeBlock st + modeBlock st ≤ n := by
    rw [← Nat.succ_mul]
    exact (Nat.mul_le_mul_right _ (List.mem_range.mp hq)).trans (Nat.div_mul_le_self _ _)
  simp only [fpPartial_eq, take_drop_map_range _ hrun, List.zip_map', List.map_map, Function.comp_def]

theorem modeBlock_eq (st : Nat) : modeBlock st = if st = 12 ∨ st = 13 then 16 else 8 := by
  simp [modeBlock, isFp8]

theorem partialExp_eq (st xt : Nat) : partialExp st xt =
    if st = 8 then -48 else if st = 9 then -266 else if st = 12 ∧ xt = 12 then -18 else if st = 13 ∧ xt = 13 then -32 else -25 := by
  simp [partialExp]

/-- The partials of an output element in block mode (R55). -/
theorem blockPartials_eq {p : Plane} {k : MatrixCommand} (hst : p.stype = recStype k.record) (hblock : isBlockType (recStype k.record) = true)
    (i j : Nat) : blockPartials p k i j = Claims.partials p k i j := by
  rw [blockPartials, Claims.partials, if_pos hblock, hst]
  obtain ⟨t, ht⟩ : ∃ t, t = blockEdge (recStype k.record) := ⟨_, rfl⟩
  have hedge : t = 16 ∨ t = 32 := ht ▸ blockEdge_cases _
  simp only [← ht]
  refine List.map_congr_left fun q _ => ?_
  have hplace (r : Nat) (hr : r < t) : (q * t + r) / t = q ∧ (q * t + r) % t = r := by rcases hedge with rfl | rfl <;> omega
  simp only [tileRow_eq, List.zip_map', List.foldl_map]
  congr 2
  refine List.foldl_ext _ _ _ fun a r hr => ?_
  obtain ⟨hdiv, hmod⟩ := hplace r (List.mem_range.mp hr)
  rw [Claims.code_eq, Claims.code_eq, hdiv, hmod]

/-- The partials of an output element in a floating-point mode (R56). -/
theorem fpPartials_rows {p : Plane} {k : MatrixCommand} (hfloat : isBlockType (recStype k.record) = false) (i j : Nat)
    (hw : typeBytes (recStype k.record) * (128 / typeBytes (recStype k.record)) = 128) :
    fpPartials (recStype k.record) (recXtype k.record)
      (rowElems p.elems (128 * i) (typeBytes (recStype k.record)) (128 / typeBytes (recStype k.record)))
      (rowElems k.elems (128 * j) (typeBytes (recStype k.record)) (128 / typeBytes (recStype k.record))) = Claims.partials p k i j := by
  rw [rowElems_eq _ hw, rowElems_eq _ hw, fpPartials_eq, Claims.partials, if_neg (by simp [hfloat]), modeBlock_eq, partialExp_eq]

/-- The product shapes of a well-formed record (R188): blocks of one edge, or floating-point elements that fill their rows. -/
theorem recordOk_shapes {r : Word} (h : recordOk r = true) :
    (isBlockType (recStype r) = true ∧ isBlockType (recXtype r) = true ∧ blockEdge (recStype r) = blockEdge (recXtype r)) ∨
    (isBlockType (recStype r) = false ∧ isBlockType (recXtype r) = false ∧ typeBytes (recStype r) * modeK (recStype r) = 128 ∧
      modeK (recStype r) = 128 / typeBytes (recStype r) ∧ isIntType (recStype r) = false) := by
  simp only [recordOk, Bool.and_eq_true, Bool.or_eq_true, beq_iff_eq, isFp8] at h
  obtain ⟨-, (⟨⟨hs, hx⟩, hedge⟩ | ⟨hs, hx⟩) | ⟨hx, hs⟩⟩ := h
  · exact .inl ⟨hs, hx, hedge⟩
  · right
    rcases hs with hs | hs <;> rcases hx with hx | hx <;> rw [hs, hx] <;> decide
  · right
    rcases hs with (hs | hs) | hs <;> rw [← hx, hs] <;> decide

theorem accumulate_eq (old : Word) (ovr : Bool) (p : Plane) (k : MatrixCommand) (i j : Nat) :
    accumulate (if ovr then word (Acc.zero false).toBits else old) (Claims.partials p k i j) = Claims.accumulated ovr p k old i j := by
  have hzero : Acc.ofBits (word (Acc.zero false).toBits).toNat = Acc.zero false := by decide
  cases ovr
  · rfl
  · rw [accumulate, if_pos rfl, hzero]
    rfl

/-- An element of MMUL (R57, R208). -/
theorem productElem_product {p : Plane} {k : MatrixCommand} {tile n : Nat} {ovr : Bool} (hk : k.kind = .product tile n ovr)
    (hok : recordOk k.record = true) (hst : p.stype = recStype k.record) (old : Word) (i j : Nat) :
    productElem p k old i j = Claims.accumulated ovr p k old i j := by
  rw [productElem, hk, ← accumulate_eq, hst]
  rcases recordOk_shapes hok with ⟨hblock, -⟩ | ⟨hfloat, -, hrow, hcount, -⟩
  · simp only [hblock, if_true, blockPartials_eq hst hblock]
  · simp only [hfloat, Bool.false_eq_true, if_false, fpPartials_rows hfloat i j (hcount ▸ hrow)]

/-- An element of MMUL64 (R58, R209). -/
theorem productElem_product64 {p : Plane} {k : MatrixCommand} {tile n rnd : Nat} {ovr : Bool} (hk : k.kind = .product64 tile n rnd ovr)
    (old : Word) (i j : Nat) : productElem p k old i j = Claims.chained ovr rnd p k old i j := by
  rw [productElem, hk, rowElems_eq _ (by decide), rowElems_eq _ (by decide)]
  simp only [List.zip_map', chain64, List.map_map, Claims.chained]
  cases ovr
  · simp only [List.foldl_map]
    rfl
  · simp only [show List.range 16 = 0 :: List.range' 1 15 from rfl, List.map_cons, List.foldl_map]
    rfl

end Sys2Proof.Machine

/-! SUPPORT. The end of a product on the tiles of its members. -/

namespace Sys2Proof.Machine

open Sys2Proof

/-! ## The end of a product (R202, R208, R209) -/

/-- A product rewrites the first rows of a tile. -/
theorem productTile_eq (p : Plane) (k : MatrixCommand) (n : Nat) (t : Tile) :
    productTile p k n t = t.rewritten (n * 128) fun e => productElem p k (t.cells.getD e t.fill) (e % 128) (e / 128) := rfl

/-- The rows of a member after a product, with the flags of all of them. -/
theorem productTile_spec (p : Plane) (k : MatrixCommand) (n : Nat) (t : Tile) :
    (productTile p k n t).1.f64 = t.f64 ∧
    (∀ j i, i < 128 → (productTile p k n t).1.at' j i = if j < n then (productElem p k (t.at' j i) i j).1 else t.at' j i) ∧
    ∀ b, (productTile p k n t).2.getLsbD b = true ↔ ∃ j < n, ∃ i < 128, (productElem p k (t.at' j i) i j).2.getLsbD b = true := by
  have hplace {j i : Nat} (hi : i < 128) : (128 * j + i) % 128 = i ∧ (128 * j + i) / 128 = j := by omega
  rw [productTile_eq]
  refine ⟨(t.rewritten_spec _ _).1, fun j i hi => ?_, fun b => ?_⟩
  · rw [Tile.at'_rewritten t n _ hi, (hplace hi).1, (hplace hi).2]
    rfl
  · rw [Tile.flags_rewritten]
    refine exists_congr fun j => and_congr_right fun _ => exists_congr fun i => and_congr_right fun hi => ?_
    rw [(hplace hi).1, (hplace hi).2]
    rfl

/-- What the members of a product hold of it: their new tiles, and the flags of all. -/
def State.writeProducts (s : State) (k : MatrixCommand) (tile n : Nat) (planes : List (Nat × Plane)) : State × Flags :=
  planes.foldl (fun x p =>
    let y := productTile p.2 k n ((x.1.core p.1).mtx.tile tile)
    (x.1.updMtx p.1 fun m => m.setTile tile y.1, x.2 ||| y.2)) (s, 0)

theorem State.matrixOnly_writeProducts {r s : State} (h : r.MatrixOnly s) (k : MatrixCommand) (tile n : Nat) (planes : List (Nat × Plane)) :
    r.MatrixOnly (s.writeProducts k tile n planes).1 :=
  List.foldlRecOn (motive := fun x : State × Flags => r.MatrixOnly x.1) planes _ h fun x hx p _ => by
    dsimp only
    exact hx.updMtx _ _

/-- Each member's engine changes by its own tile, from what that tile held; the flags are those of all members. -/
theorem State.writeProducts_spec (s : State) (k : MatrixCommand) (tile n : Nat) {planes : List (Nat × Plane)} (hd : (planes.map (·.1)).Nodup) :
    (∀ p ∈ planes, ((s.writeProducts k tile n planes).1.core p.1).mtx =
      (s.core p.1).mtx.setTile tile (productTile p.2 k n ((s.core p.1).mtx.tile tile)).1) ∧
    (∀ c, c ∉ planes.map (·.1) → ((s.writeProducts k tile n planes).1.core c).mtx = (s.core c).mtx) ∧
    (s.writeProducts k tile n planes).2 = flagsOfAll planes fun p => (productTile p.2 k n ((s.core p.1).mtx.tile tile)).2 := by
  induction planes using List.reverseRecOn with
  | nil => simp [State.writeProducts, flagsOfAll]
  | append_singleton planes q ih =>
    simp only [List.map_append, List.map_cons, List.map_nil, List.nodup_append, List.mem_singleton] at hd
    obtain ⟨hmembers, hothers, hflags⟩ := ih hd.1
    have hfresh : q.1 ∉ planes.map (·.1) := fun h => hd.2.2 _ h _ rfl rfl
    have hstep : s.writeProducts k tile n (planes ++ [q]) =
        let y := productTile q.2 k n ((s.core q.1).mtx.tile tile)
        ((s.writeProducts k tile n planes).1.updMtx q.1 fun m => m.setTile tile y.1, (s.writeProducts k tile n planes).2 ||| y.2) := by
      rw [← hothers q.1 hfresh]
      simp [State.writeProducts]
    rw [hstep]
    refine ⟨fun p hp => ?_, fun c hc => ?_, ?_⟩
    · rcases List.mem_append.mp hp with hp | hp
      · have hother : p.1 ≠ q.1 := fun h => hfresh (h ▸ List.mem_map_of_mem hp)
        rw [State.mtx_updMtx_ne hother, hmembers p hp]
      · obtain rfl := List.mem_singleton.mp hp
        rw [State.mtx_updMtx_self, hothers _ hfresh]
    · simp only [List.map_append, List.map_cons, List.map_nil, List.mem_append, List.mem_singleton, not_or] at hc
      rw [State.mtx_updMtx_ne hc.2, hothers c hc.1]
    · simp only [hflags]
      simp [flagsOfAll]

/-- The tiles of a block operand of `n` rows (R186). -/
theorem paddedRows_div {xt : Nat} (hblock : isBlockType xt = true) (n : Nat) :
    paddedRows xt n / blockEdge xt = (n + blockEdge xt - 1) / blockEdge xt := by
  rw [paddedRows, if_pos hblock, Nat.mul_div_cancel _ (by rcases blockEdge_cases xt with h | h <;> omega), cdiv]

/-- What a product finds reserved: nothing but in block mode, and there by the codes of its rows (R197). -/
theorem productCode_eq_none_iff {k : MatrixCommand} {xt tiles n : Nat} (hblock : isBlockType xt = true)
    (htiles : tiles = (n + blockEdge xt - 1) / blockEdge xt * (128 / blockEdge xt)) :
    reservedCode k (blockBits xt) (blockEdge xt) (paddedRows xt n / blockEdge xt * (128 / blockEdge xt)) n (128 / blockEdge xt) = none ↔
      Claims.unreserved k xt tiles n := by
  rw [paddedRows_div hblock, ← htiles]
  exact reservedCode_eq_none_iff htiles

/-- The end of a product that no reserved code and no residue stops. -/
theorem State.completeProduct_writes {s : State} {cell tile n xt tiles : Nat} {k : MatrixCommand} (hxt : xt = recXtype k.record)
    (htiles : tiles = (n + blockEdge xt - 1) / blockEdge xt * (128 / blockEdge xt))
    (hcodes : isBlockType xt = true → Claims.unreserved k xt tiles n) (hresidue : (s.writeProducts k tile n k.planes).1.residueFails k = []) :
    s.completeProduct cell k tile n = (s.writeProducts k tile n k.planes).1.matrixFlags cell k (s.writeProducts k tile n k.planes).2 := by
  have hnone : (if isBlockType xt then reservedCode k (blockBits xt) (blockEdge xt) (paddedRows xt n / blockEdge xt * (128 / blockEdge xt)) n
      (128 / blockEdge xt) else none) = none := by
    split_ifs with hblock
    · exact (productCode_eq_none_iff hblock htiles).mpr (hcodes hblock)
    · rfl
  have hkept : (s.writeProducts k tile n k.planes).1.residue cell k = (s.writeProducts k tile n k.planes).1 := by
    rw [State.residue, hresidue]
  subst hxt
  rw [State.completeProduct, hnone]
  exact congrArg (State.matrixFlags · cell k _) hkept

/-- The end of a block product that read a reserved code. -/
theorem State.completeProduct_parks {s : State} {cell tile n xt tiles : Nat} {k : MatrixCommand} (hxt : xt = recXtype k.record)
    (htiles : tiles = (n + blockEdge xt - 1) / blockEdge xt * (128 / blockEdge xt))
    (hblock : isBlockType xt = true) (hcode : ¬Claims.unreserved k xt tiles n) : ∃ x, s.completeProduct cell k tile n = s.matrixPark cell k x := by
  rw [← productCode_eq_none_iff hblock htiles, ← ne_eq, Option.ne_none_iff_exists'] at hcode
  obtain ⟨x, hx⟩ := hcode
  subst hxt
  rw [State.completeProduct, if_pos hblock, hx]
  exact ⟨_, rfl⟩

theorem State.tile_lessEnded (s : State) (cell c x : Nat) : ((s.lessEnded cell).core c).mtx.tile x = (s.core c).mtx.tile x := by
  obtain ⟨l, hl⟩ := s.mtx_lessEnded cell c
  rw [hl]
  rfl

theorem State.badCols_lessEnded (s : State) (cell c : Nat) : ((s.lessEnded cell).core c).mtx.badCols = (s.core c).mtx.badCols := by
  obtain ⟨l, hl⟩ := s.mtx_lessEnded cell c
  rw [hl]

/-- The end of a product whose elements take the values `v`. -/
theorem productEnds_of_elements {s : State} {cell tile n : Nat} {k : MatrixCommand} {v : Plane → Word → Nat → Nat → Word × Flags}
    (hend : Claims.endsNow s cell k) (htile : tile < 4) (hd : (k.planes.map (·.1)).Nodup) (hbad : ∀ p ∈ k.planes, (s.core p.1).mtx.badCols = 0)
    (hcomplete : (s.lessEnded cell).completeCommand cell k = (s.lessEnded cell).completeProduct cell k tile n)
    (hcodes : isBlockType (recXtype k.record) = true → Claims.unreserved k (recXtype k.record)
      ((n + blockEdge (recXtype k.record) - 1) / blockEdge (recXtype k.record) * (128 / blockEdge (recXtype k.record))) n)
    (hv : ∀ p ∈ k.planes, ∀ old i j, productElem p.2 k old i j = v p.2 old i j) : Claims.productEnds s cell k tile n v := by
  obtain ⟨hmembers, -, hflags⟩ := (s.lessEnded cell).writeProducts_spec k tile n hd
  have hresidue : ((s.lessEnded cell).writeProducts k tile n k.planes).1.residueFails k = [] := by
    refine List.filterMap_eq_nil_iff.mpr fun p hp => ?_
    rw [hmembers p hp]
    simp [Matrix.setTile, State.badCols_lessEnded, hbad p hp]
  refine Claims.commandEnd_of_matrixFlags hend (hcomplete.trans (State.completeProduct_writes rfl rfl hcodes hresidue))
    (State.matrixOnly_writeProducts (s.matrixOnly_lessEnded cell) k tile n k.planes) (fun b => ?_) fun t hmtx hraises => ⟨fun p hp => ?_, hraises⟩
  · rw [hflags, getLsbD_flagsOfAll]
    refine exists_congr fun p => and_congr_right fun hp => ?_
    rw [State.tile_lessEnded, (productTile_spec _ _ _ _).2.2]
    simp only [hv p hp]
  · obtain ⟨hmode, hrows, -⟩ := productTile_spec p.2 k n ((s.core p.1).mtx.tile tile)
    rw [hmtx, hmembers p hp, State.tile_lessEnded]
    refine ⟨?_, fun j hj i hi => ?_, fun j i hj hi => ?_, fun x hx => ?_⟩
    · rw [Matrix.tile_setTile_self htile, hmode]
    · rw [Matrix.tile_setTile_self htile, hrows j i hi, if_pos hj, hv p hp]
    · rw [Matrix.tile_setTile_self htile, hrows j i hi, if_neg hj.not_gt]
    · rw [Matrix.tile_setTile_ne hx, State.tile_lessEnded]

theorem State.completeCommand_product (s : State) (cell : Nat) {k : MatrixCommand} {tile n : Nat} {ovr : Bool} (hlive : k.abandoned = false)
    (hk : k.kind = .product tile n ovr) : s.completeCommand cell k = s.completeProduct cell k tile n := by
  rw [State.completeCommand, if_neg (by simp [hlive]), hk]

theorem State.completeCommand_product64 (s : State) (cell : Nat) {k : MatrixCommand} {tile n rnd : Nat} {ovr : Bool} (hlive : k.abandoned = false)
    (hk : k.kind = .product64 tile n rnd ovr) : s.completeCommand cell k = s.completeProduct cell k tile n := by
  rw [State.completeCommand, if_neg (by simp [hlive]), hk]

theorem productsEnd_hold : Claims.productsEnd := by
  intro cell tile n ovr k s hend hok htile hd hmembers xt tiles
  refine ⟨fun hk _ hcodes => ?_, fun hk hblock hcode => ?_, fun rnd hk hst => ?_⟩
  · exact productEnds_of_elements hend htile hd (fun p hp => (hmembers p hp).2) (State.completeCommand_product _ _ hend.2 hk) hcodes
      fun p hp => productElem_product hk hok (hmembers p hp).1
  · obtain ⟨x, hx⟩ := State.completeProduct_parks (s := s.lessEnded cell) (cell := cell) (tile := tile) rfl rfl hblock hcode
    exact Claims.commandEnd_of_matrixPark hend ((State.completeCommand_product _ _ hend.2 hk).trans hx)
  · refine productEnds_of_elements hend htile hd (fun p hp => (hmembers p hp).2) (State.completeCommand_product64 _ _ hend.2 hk) (fun hblock => ?_)
      fun p _ => productElem_product64 hk
    rcases recordOk_shapes hok with ⟨hstationary, -⟩ | ⟨-, hstreamed, -⟩
    · rw [hst] at hstationary
      exact absurd hstationary (by decide)
    · rw [hstreamed] at hblock
      cases hblock

end Sys2Proof.Machine

/-! SUPPORT. Planes as packed tiles: transposed, and made from MX data. -/

namespace Sys2Proof.Machine

open Sys2Proof

/-! ## Tensors in tiles (R47) -/

/-- Two folds side by side. -/
theorem foldl_prodMk {α β γ : Type} (f : α → γ → α) (g : β → γ → β) (l : List γ) (a : α) (b : β) :
    l.foldl (fun x y => (f x.1 y, g x.2 y)) (a, b) = (l.foldl f a, l.foldl g b) := by
  induction l generalizing a b with
  | nil => rfl
  | cons y l ih => exact ih _ _

/-- Rows of one length, one after the other. -/
theorem flatMap_range_rows {α : Type} (g : Nat → Nat → α) (rows : Nat) {t : Nat} (ht : 0 < t) :
    ((List.range rows).flatMap fun c => (List.range t).map (g c)) = (List.range (rows * t)).map fun e => g (e / t) (e % t) := by
  induction rows with
  | zero => simp
  | succ n ih =>
    rw [List.range_succ, List.flatMap_append, ih, Nat.succ_mul, List.range_add, List.map_append, List.map_map, List.flatMap_singleton]
    congr 1
    refine List.map_congr_left fun c hc => ?_
    have hc := List.mem_range.mp hc
    rw [Function.comp_apply, Nat.mul_comm n, Nat.mul_add_div ht, Nat.div_eq_of_lt hc, Nat.add_zero, Nat.mul_add_mod, Nat.mod_eq_of_lt hc]

/-- Place `b` of row `a` lies among `rows` rows of `n` places. -/
theorem row_place_lt {rows n a b : Nat} (ha : a < rows) (hb : b < n) : a * n + b < rows * n :=
  calc a * n + b < a * n + n := Nat.add_lt_add_left hb _
    _ = (a + 1) * n := (Nat.succ_mul a n).symm
    _ ≤ rows * n := Nat.mul_le_mul_right n ha

/-- `n` tiles of `t` × `t` codes of `m` bits, given by tile and place in the tile. -/
def packedTiles (m t n : Nat) (code : Nat → Nat → Nat) : Memory :=
  Memory.packed (t * t * m / 8) n fun tile => packCodes m ((List.range (t * t)).map (code tile))

theorem tileCode_packedTiles {m t n tile r c : Nat} {code : Nat → Nat → Nat} (ht : t = 16 ∨ t = 32) (htile : tile < n) (hr : r < t) (hc : c < t)
    (hcode : ∀ e, code tile e < 2 ^ m) : tileCode (packedTiles m t n code) m t tile r c = code tile (r * t + c) := by
  obtain ⟨u, hu⟩ : ∃ u, t = 8 * u := by rcases ht with rfl | rfl <;> [exact ⟨2, rfl⟩; exact ⟨4, rfl⟩]
  have hrow : t * m / 8 = u * m := by rw [hu, Nat.mul_assoc, Nat.mul_div_cancel_left _ (by decide)]
  have hsize : t * t * m / 8 = t * (u * m) := by
    rw [show t * t * m = 8 * (t * (u * m)) by rw [hu]; ring, Nat.mul_div_cancel_left _ (by decide)]
  have hplace : (tile * t * t + r * t) * m / 8 = tile * (t * (u * m)) + r * (u * m) := by
    rw [show (tile * t * t + r * t) * m = 8 * (tile * (t * (u * m)) + r * (u * m)) by rw [hu]; ring, Nat.mul_div_cancel_left _ (by decide)]
  have hfits : r * (u * m) + u * m ≤ t * (u * m) := by rw [← Nat.succ_mul]; exact Nat.mul_le_mul_right _ hr
  have hcol : c * m + m ≤ 8 * (u * m) := by
    rw [← Nat.succ_mul, ← Nat.mul_assoc, ← hu]
    exact Nat.mul_le_mul_right _ hc
  rw [tileCode, packedTiles, hplace, hrow, hsize, Memory.num_packed htile hfits, div_mod_trunc _ _ _ _ hcol, Nat.div_div_eq_div_mul, ← pow_add,
    show 8 * (r * (u * m)) + c * m = (r * t + c) * m by rw [hu]; ring, packCodes_at (fun x hx => ?_) (by simpa using row_place_lt hr hc)]
  · simp
  · obtain ⟨e, -, rfl⟩ := List.mem_map.mp hx
    exact hcode e

/-- A code of a tensor of 128 columns that is given tile by tile. -/
theorem Claims.code_packedTiles {m t i r : Nat} {code : Nat → Nat → Nat} (ht : t = 16 ∨ t = 32) (hi : i < 128) (hr : r < 128)
    (hcode : ∀ tile e, code tile e < 2 ^ m) :
    Claims.code (packedTiles m t (128 / t * (128 / t)) code) m t i r = code (i / t * (128 / t) + r / t) (i % t * t + r % t) := by
  rw [Claims.code_eq]
  apply tileCode_packedTiles ht
  · rcases ht with rfl | rfl <;> omega
  · exact Nat.mod_lt _ (by omega)
  · exact Nat.mod_lt _ (by omega)
  · exact hcode _

/-! ## Planes transposed (R205) -/

theorem tileTransposed_flat (x : Memory) (m t tile : Nat) (ht : 0 < t) :
    (tileTransposed x m t tile).flatMap id = (List.range (t * t)).map fun e => tileCode x m t tile (e % t) (e / t) := by
  rw [← flatMap_range_rows (fun c r => tileCode x m t tile r c) t ht, tileTransposed, List.flatMap_map]
  refine List.flatMap_congr fun c hc => ?_
  rw [id, List.map_map]
  refine List.map_congr_left fun r _ => ?_
  simp [tileRow_eq, List.mem_range.mp hc]

theorem blockTransposed_eq (elems scales : Memory) (m : Nat) {t : Nat} (ht : t = 16 ∨ t = 32) : blockTransposed elems scales m t =
    (packedTiles m t (128 / t * (128 / t)) fun tile e => tileCode elems m t (tile % (128 / t) * (128 / t) + tile / (128 / t)) (e % t) (e / t),
     Memory.listed (128 / t * (128 / t)) fun tile => scales.get (tile % (128 / t) * (128 / t) + tile / (128 / t))) := by
  have hplace (tile : Nat) : tile * t * t * m / 8 = tile * (t * t * m / 8) := by
    obtain ⟨u, hu⟩ : ∃ u, t = 8 * u := by rcases ht with rfl | rfl <;> [exact ⟨2, rfl⟩; exact ⟨4, rfl⟩]
    rw [show tile * t * t * m = 8 * (tile * (t * (u * m))) by rw [hu]; ring, show t * t * m = 8 * (t * (u * m)) by rw [hu]; ring,
      Nat.mul_div_cancel_left _ (by decide), Nat.mul_div_cancel_left _ (by decide)]
  rw [blockTransposed]
  simp only [hplace, tileTransposed_flat _ _ _ _ (show 0 < t by omega)]
  exact foldl_prodMk (fun (x : Memory) k => x.putNum (k * (t * t * m / 8)) (t * t * m / 8) (packCodes m ((List.range (t * t)).map fun e =>
    tileCode elems m t (k % (128 / t) * (128 / t) + k / (128 / t)) (e % t) (e / t))))
    (fun (x : Memory) k => x.put k [scales.get (k % (128 / t) * (128 / t) + k / (128 / t))]) _ _ _

theorem element_elemsTransposed (elems : Memory) {w n i r : Nat} (hw : w * n = 128) (hi : i < 128) (hr : r < n) :
    Claims.element (elemsTransposed elems w n) w i r = elems.num ((128 * r + i) * w) w % 2 ^ (8 * w) := by
  have hrow : r * w + w ≤ 128 := by rw [← Nat.succ_mul, ← hw, Nat.mul_comm w]; exact Nat.mul_le_mul_right _ hr
  have hpacked : elemsTransposed elems w n = Memory.packed w (128 * n) fun j => elems.num ((j % n * 128 + j / n) * w) w := rfl
  have hread := Memory.num_packed (b := w) (o := 0) (l := w) (row_place_lt hi hr) (by omega) fun j => elems.num ((j % n * 128 + j / n) * w) w
  rw [Claims.element, hpacked, Nat.mul_assoc, Memory.num_part (Memory.wf_packed _ _ _) (by rwa [Nat.mul_comm w]),
    show 128 * i + w * r = (i * n + r) * w + 0 by rw [← hw]; ring, hread, Nat.mul_zero, pow_zero, Nat.div_one, Nat.mul_comm i, Nat.mul_add_mod,
    Nat.mod_eq_of_lt hr, Nat.mul_add_div (by omega), Nat.div_eq_of_lt hr, Nat.add_zero, Nat.mul_comm r]

/-! ## Block planes from MX data (R50, R206) -/

/-- The MX element at a row and column of the plane: with tr, source row and column change places. -/
def mxPlaced (k : MatrixCommand) (tr : Bool) (i r : Nat) : Q × Flags := if tr then Claims.mxSource k r i else Claims.mxSource k i r

theorem mxAt_eq (k : MatrixCommand) (r c : Nat) : mxAt k (recMx k.record) r c = Claims.mxSource k r c := by
  simp [mxAt, Claims.mxSource]

/-- The exponent of a tile of the plane. -/
def mxTileExp (k : MatrixCommand) (tr : Bool) (t a b : Nat) : Nat :=
  mxExp ((List.range (t * t)).map fun x => (mxPlaced k tr (a * t + x / t) (b * t + x % t)).1)

/-- The mantissa at a row and column of the plane, under its tile's exponent, with its flags. -/
def mxPlacedMant (k : MatrixCommand) (tr : Bool) (t i r : Nat) : Int × Flags := mxMant (mxPlaced k tr i r).1 (mxTileExp k tr t (i / t) (r / t))

/-- The row of the plane that element `e` of a tile stands in. -/
def planeRow (t tile e : Nat) : Nat := tile / (128 / t) * t + e / t

/-- The column of the plane that element `e` of a tile stands in. -/
def planeCol (t tile e : Nat) : Nat := tile % (128 / t) * t + e % t

/-- The tile that an element's place lies in. -/
theorem plane_tile {t tile e : Nat} (ht : t = 16 ∨ t = 32) (he : e < t * t) :
    planeRow t tile e / t = tile / (128 / t) ∧ planeCol t tile e / t = tile % (128 / t) := by
  rw [planeRow, planeCol]
  rcases ht with rfl | rfl <;> omega

/-- The element of its tile that stands at a place of the plane. -/
theorem plane_element {t i r : Nat} (ht : t = 16 ∨ t = 32) (hi : i < 128) (hr : r < 128) :
    i / t * (128 / t) + r / t < 128 / t * (128 / t) ∧ i % t * t + r % t < t * t ∧
      planeRow t (i / t * (128 / t) + r / t) (i % t * t + r % t) = i ∧ planeCol t (i / t * (128 / t) + r / t) (i % t * t + r % t) = r := by
  rw [planeRow, planeCol]
  rcases ht with rfl | rfl <;> omega

/-- What holds of some element of some tile holds at some place of the plane. -/
theorem exists_tile_iff {t : Nat} (ht : t = 16 ∨ t = 32) (p : Nat → Nat → Prop) :
    (∃ tile < 128 / t * (128 / t), ∃ e < t * t, p (planeRow t tile e) (planeCol t tile e)) ↔ ∃ i < 128, ∃ r < 128, p i r := by
  constructor
  · rintro ⟨tile, htile, e, he, hp⟩
    have hplace : planeRow t tile e < 128 ∧ planeCol t tile e < 128 := by
      rw [planeRow, planeCol]
      rcases ht with rfl | rfl <;> omega
    exact ⟨_, hplace.1, _, hplace.2, hp⟩
  · rintro ⟨i, hi, r, hr, hp⟩
    obtain ⟨htile, he, hrow, hcol⟩ := plane_element ht hi hr
    exact ⟨_, htile, _, he, by rwa [hrow, hcol]⟩

/-- Code `e` of a tile of the plane. -/
def mxTileCode (k : MatrixCommand) (tr : Bool) (t tile e : Nat) : Nat :=
  wrapBits 8 (mxPlacedMant k tr t (planeRow t tile e) (planeCol t tile e)).1

/-- The flags of a tile of the plane: of its elements as they are read, then of its mantissas. -/
def mxTileFlags (k : MatrixCommand) (tr : Bool) (t tile : Nat) : Flags :=
  flagsOfAll (List.range (t * t)) (fun e => (mxPlaced k tr (planeRow t tile e) (planeCol t tile e)).2) |||
    flagsOfAll (List.range (t * t)) fun e => (mxPlacedMant k tr t (planeRow t tile e) (planeCol t tile e)).2

theorem packedTiles_eight (t n : Nat) (code : Nat → Nat → Nat) : packedTiles 8 t n code =
    (List.range n).foldl (fun (x : Memory) tile => x.putNum (tile * t * t) (t * t) (packCodes 8 ((List.range (t * t)).map (code tile)))) [] := by
  rw [packedTiles, Nat.mul_div_cancel _ (by decide)]
  simp only [Memory.packed, Nat.mul_assoc]

/-- The plane of MX data: its codes, its tiles' exponents, and its flags. -/
theorem mxPlane_eq (k : MatrixCommand) {t : Nat} (ht : t = 16 ∨ t = 32) (tr : Bool) : mxPlane k (recMx k.record) t tr =
    (packedTiles 8 t (128 / t * (128 / t)) (mxTileCode k tr t),
     Memory.listed (128 / t * (128 / t)) fun tile => BitVec.ofNat 8 (mxTileExp k tr t (tile / (128 / t)) (tile % (128 / t))),
     flagsOfAll (List.range (128 / t * (128 / t))) (mxTileFlags k tr t)) := by
  have hvalues (tile : Nat) : ((List.range (t * t)).map fun e =>
      if tr then mxAt k (recMx k.record) (tile % (128 / t) * t + e % t) (tile / (128 / t) * t + e / t)
      else mxAt k (recMx k.record) (tile / (128 / t) * t + e / t) (tile % (128 / t) * t + e % t)) =
      (List.range (t * t)).map fun e => mxPlaced k tr (planeRow t tile e) (planeCol t tile e) := by
    simp only [mxAt_eq]
    rfl
  have hexp (tile : Nat) : mxExp (((List.range (t * t)).map fun e => mxPlaced k tr (planeRow t tile e) (planeCol t tile e)).map (·.1)) =
      mxTileExp k tr t (tile / (128 / t)) (tile % (128 / t)) := by
    rw [List.map_map]
    rfl
  have hmants (tile : Nat) : (((List.range (t * t)).map fun e => mxPlaced k tr (planeRow t tile e) (planeCol t tile e)).map
      fun v => mxMant v.1 (mxTileExp k tr t (tile / (128 / t)) (tile % (128 / t)))) =
      (List.range (t * t)).map fun e => mxPlacedMant k tr t (planeRow t tile e) (planeCol t tile e) := by
    rw [List.map_map]
    refine List.map_congr_left fun e he => ?_
    obtain ⟨hrow, hcol⟩ := plane_tile (tile := tile) ht (List.mem_range.mp he)
    rw [Function.comp_apply, mxPlacedMant, hrow, hcol]
  have hcodes (tile : Nat) : (((List.range (t * t)).map fun e => mxPlacedMant k tr t (planeRow t tile e) (planeCol t tile e)).map
      fun z => wrapBits 8 z.1) = (List.range (t * t)).map (mxTileCode k tr t tile) := by
    rw [List.map_map]
    rfl
  rw [mxPlane]
  simp only [hvalues, hexp, hmants, hcodes, List.foldl_map, foldl_or_flags, BitVec.or_assoc, packedTiles_eight]
  exact (foldl_prodMk (fun (x : Memory) tile => x.putNum (tile * t * t) (t * t) (packCodes 8 ((List.range (t * t)).map (mxTileCode k tr t tile))))
    (fun (y : Memory × Flags) tile => (y.1.put tile [BitVec.ofNat 8 (mxTileExp k tr t (tile / (128 / t)) (tile % (128 / t)))],
      y.2 ||| mxTileFlags k tr t tile)) _ [] ([], 0)).trans (congrArg (Prod.mk _) (foldl_prodMk
        (fun (x : Memory) tile => x.put tile [BitVec.ofNat 8 (mxTileExp k tr t (tile / (128 / t)) (tile % (128 / t)))])
        (fun (u : Flags) tile => u ||| mxTileFlags k tr t tile) _ [] 0))

/-- The flags of the plane are those of its places. -/
theorem getLsbD_mxFlags (k : MatrixCommand) {t : Nat} (ht : t = 16 ∨ t = 32) (tr : Bool) (b : Nat) :
    (flagsOfAll (List.range (128 / t * (128 / t))) (mxTileFlags k tr t)).getLsbD b = true ↔
      ∃ i < 128, ∃ r < 128, ((mxPlaced k tr i r).2 ||| (mxPlacedMant k tr t i r).2).getLsbD b = true := by
  rw [← exists_tile_iff ht, getLsbD_flagsOfAll]
  refine exists_congr fun tile => and_congr List.mem_range ?_
  simp only [mxTileFlags, BitVec.getLsbD_or, Bool.or_eq_true, getLsbD_flagsOfAll, List.mem_range, and_or_left, exists_or]

end Sys2Proof.Machine

/-! SUPPORT. The end of a load, and the obligation on loads and products. -/

namespace Sys2Proof.Machine

open Sys2Proof

/-! ## The end of a load (R205, R206) -/

/-- The shadow plane filled. -/
def State.fillShadow (s : State) (cell st : Nat) (elems scales : Memory) : State :=
  s.updMtx cell fun z => { z with shadow := { elems, scales, valid := true, stype := st } }

theorem Claims.fillsShadow_of_mtx {s t : State} {cell st : Nat} {elems scales : Memory} {p : Plane → Prop}
    (h : (t.core cell).mtx = (((s.lessEnded cell).fillShadow cell st elems scales).core cell).mtx)
    (hp : p { elems, scales, valid := true, stype := st }) : Claims.fillsShadow s t cell st p := by
  rw [State.fillShadow, State.mtx_updMtx_self, State.lessEnded, State.mtx_updMtx_self] at h
  rw [Claims.fillsShadow, h]
  exact ⟨rfl, rfl, rfl, rfl, hp⟩

theorem State.completeCommand_load (s : State) (cell : Nat) {k : MatrixCommand} {mx tr : Bool} (hlive : k.abandoned = false)
    (hk : k.kind = .load mx tr) : s.completeCommand cell k = s.completeLoad cell k mx tr := by
  rw [State.completeCommand, if_neg (by simp [hlive]), hk]

/-- A load that only fills the shadow plane. -/
theorem commandEnd_of_fill {s : State} {cell st : Nat} {k : MatrixCommand} {tr : Bool} {elems scales : Memory} {p : Plane → Prop}
    (hend : Claims.endsNow s cell k) (hk : k.kind = .load false tr)
    (hfill : (s.lessEnded cell).completeLoad cell k false tr = (s.lessEnded cell).fillShadow cell st elems scales)
    (hp : p { elems, scales, valid := true, stype := st }) : Claims.commandEnd s cell fun t => Claims.fillsShadow s t cell st p :=
  Claims.commandEnd_of_matrixOnly hend ((State.completeCommand_load _ _ hend.2 hk).trans hfill)
    ((s.matrixOnly_lessEnded cell).updMtx _ _) (Claims.fillsShadow_of_mtx rfl hp)

/-- A floating-point load (R205). -/
theorem State.completeLoad_elements (s : State) (cell : Nat) {k : MatrixCommand} (tr : Bool) (hfloat : isBlockType (recStype k.record) = false) :
    s.completeLoad cell k false tr = s.fillShadow cell (recStype k.record)
      (if tr then elemsTransposed k.elems (typeBytes (recStype k.record)) (modeK (recStype k.record)) else k.elems) [] := by
  rw [State.completeLoad, if_neg (by decide), if_neg (by simp [hfloat])]
  rfl

/-- What a block load finds reserved. -/
theorem loadCode_eq_none_iff (k : MatrixCommand) (st : Nat) :
    reservedCode k (blockBits st) (blockEdge st) (128 / blockEdge st * (128 / blockEdge st)) 128 (128 / blockEdge st) = none ↔
      Claims.unreserved k st (128 / blockEdge st * (128 / blockEdge st)) 128 :=
  reservedCode_eq_none_iff (by rcases blockEdge_cases st with h | h <;> rw [h])

/-- A block load without a reserved code (R205). -/
theorem State.completeLoad_blocks (s : State) (cell : Nat) {k : MatrixCommand} {st : Nat} (tr : Bool) (hst : st = recStype k.record)
    (hblock : isBlockType st = true) (hcodes : Claims.unreserved k st (128 / blockEdge st * (128 / blockEdge st)) 128) :
    s.completeLoad cell k false tr = s.fillShadow cell st
      (if tr then blockTransposed k.elems k.scales (blockBits st) (blockEdge st)
        else (k.elems, k.scales.slice 0 (128 / blockEdge st * (128 / blockEdge st)))).1
      (if tr then blockTransposed k.elems k.scales (blockBits st) (blockEdge st)
        else (k.elems, k.scales.slice 0 (128 / blockEdge st * (128 / blockEdge st)))).2 := by
  subst hst
  rw [State.completeLoad, if_neg (by decide), if_pos hblock]
  simp only [(loadCode_eq_none_iff k (recStype k.record)).mpr hcodes]
  rfl

theorem State.completeLoad_parks (s : State) (cell : Nat) {k : MatrixCommand} {st : Nat} (tr : Bool) (hst : st = recStype k.record)
    (hblock : isBlockType st = true) (hcode : ¬Claims.unreserved k st (128 / blockEdge st * (128 / blockEdge st)) 128) :
    ∃ x, s.completeLoad cell k false tr = s.matrixPark cell k x := by
  rw [← loadCode_eq_none_iff, ← ne_eq, Option.ne_none_iff_exists'] at hcode
  obtain ⟨x, hx⟩ := hcode
  subst hst
  rw [State.completeLoad, if_neg (by decide), if_pos hblock]
  simp only [hx]
  exact ⟨_, rfl⟩

theorem State.completeLoad_mx (s : State) (cell : Nat) (k : MatrixCommand) (tr : Bool) : s.completeLoad cell k true tr =
    (s.fillShadow cell (recStype k.record) (mxPlane k (recMx k.record) (blockEdge (recStype k.record)) tr).1
      (mxPlane k (recMx k.record) (blockEdge (recStype k.record)) tr).2.1).matrixFlags cell k
        (mxPlane k (recMx k.record) (blockEdge (recStype k.record)) tr).2.2 := by
  rw [State.completeLoad, if_pos rfl]
  rfl

/-- The codes and scales of a block plane transposed. -/
theorem blockTransposed_spec (elems scales : Memory) (m : Nat) {t : Nat} (ht : t = 16 ∨ t = 32) :
    (∀ i < 128, ∀ r < 128, Claims.code (blockTransposed elems scales m t).1 m t i r = Claims.code elems m t r i) ∧
    ∀ a < 128 / t, ∀ b < 128 / t, (blockTransposed elems scales m t).2.get (a * (128 / t) + b) = scales.get (b * (128 / t) + a) := by
  rw [blockTransposed_eq elems scales m ht]
  refine ⟨fun i hi r hr => ?_, fun a ha b hb => ?_⟩
  · rw [Claims.code_packedTiles ht hi hr fun _ _ => tileCode_lt _ _ _ _ _ _, Claims.code_eq]
    congr 1 <;> rcases ht with rfl | rfl <;> omega
  · rw [Memory.get_listed (row_place_lt ha hb)]
    congr 1
    rcases ht with rfl | rfl <;> omega

/-- The codes and scales of a plane made from MX data. -/
theorem mxPlane_spec (k : MatrixCommand) {t : Nat} (ht : t = 16 ∨ t = 32) (tr : Bool) :
    (∀ i < 128, ∀ r < 128, Claims.code (mxPlane k (recMx k.record) t tr).1 8 t i r = ((mxPlacedMant k tr t i r).1 % 256).toNat) ∧
    ∀ a < 128 / t, ∀ b < 128 / t, (mxPlane k (recMx k.record) t tr).2.1.get (a * (128 / t) + b) = BitVec.ofNat 8 (mxTileExp k tr t a b) := by
  rw [mxPlane_eq k ht]
  refine ⟨fun i hi r hr => ?_, fun a ha b hb => ?_⟩
  · obtain ⟨-, -, hrow, hcol⟩ := plane_element ht hi hr
    have hcode (tile e : Nat) : mxTileCode k tr t tile e < 2 ^ 8 := wrapBits_lt _ _
    rw [Claims.code_packedTiles ht hi hr hcode, mxTileCode, hrow, hcol]
    rfl
  · have hplace : (a * (128 / t) + b) / (128 / t) = a ∧ (a * (128 / t) + b) % (128 / t) = b := by rcases ht with rfl | rfl <;> omega
    rw [Memory.get_listed (row_place_lt ha hb), hplace.1, hplace.2]

theorem loadsEnd_hold : Claims.loadsEnd := by
  intro cell tr k s hend hok st w e n m
  have he : e = 16 ∨ e = 32 := blockEdge_cases st
  refine ⟨fun hk hfloat => ?_, fun hk hblock hcodes => ?_, fun hk hblock hcode => ?_, fun hk hst => ?_⟩
  · refine commandEnd_of_fill hend hk (State.completeLoad_elements _ _ tr hfloat) fun i hi r hr => ?_
    cases tr
    · rfl
    · rcases recordOk_shapes hok with ⟨hblock, -⟩ | ⟨-, -, hrow, hcount, -⟩
      · rw [hfloat] at hblock
        cases hblock
      · exact element_elemsTransposed k.elems hrow hi (hcount.symm ▸ hr)
  · refine commandEnd_of_fill hend hk (State.completeLoad_blocks _ _ tr rfl hblock hcodes) ?_
    cases tr
    · refine ⟨fun _ _ _ _ => rfl, fun a ha b hb => Memory.get_slice (Nat.zero_le _) ?_⟩
      exact (row_place_lt ha hb).trans_eq (Nat.zero_add _).symm
    · exact blockTransposed_spec k.elems k.scales m he
  · obtain ⟨x, hx⟩ := (s.lessEnded cell).completeLoad_parks cell tr rfl hblock hcode
    exact Claims.commandEnd_of_matrixPark hend ((State.completeCommand_load _ _ hend.2 hk).trans hx)
  · intro source exponent
    have hmx := (State.completeCommand_load (s.lessEnded cell) cell hend.2 hk).trans (State.completeLoad_mx _ _ k tr)
    obtain ⟨hcodes, hscales⟩ := mxPlane_spec k he tr
    refine Claims.commandEnd_of_matrixFlags hend hmx ((s.matrixOnly_lessEnded cell).updMtx _ _) (fun b => ?_)
      fun t hmtx hraises => ⟨Claims.fillsShadow_of_mtx (hmtx cell) ⟨hcodes, hscales⟩, hraises⟩
    rw [mxPlane_eq k he]
    exact getLsbD_mxFlags k he tr b

/-- Settles O24: issue by what a command lists, sets busy, charges and reads; the ends by the rewrite of tiles and the packing of planes. -/
theorem matrixProductsComplete : Obligations.MatrixProductsComplete := ⟨matrixLoads_hold, matrixProducts_hold, productsEnd_hold, loadsEnd_hold⟩

end Sys2Proof.Machine

/-! SUPPORT. Steps that leave the cores or change one copy engine only: what slices, stacks, ports and packets do, and copies and their lines
(08_copy R220, R226, R230). -/

namespace Sys2Proof.Machine

open Sys2Proof

/-! ## Steps beside the cores and the memory -/

/-- From `s` to `t` the cores and the memory stay, and numbers are only given out. -/
structure State.Beside (s t : State) : Prop where
  cores : t.cores = s.cores
  mem   : t.mem = s.mem
  next  : s.nextId ≤ t.nextId

namespace State.Beside

variable {s t u : State}

theorem refl (s : State) : s.Beside s := ⟨rfl, rfl, le_rfl⟩

theorem trans (h : s.Beside t) (hu : t.Beside u) : s.Beside u := ⟨hu.cores.trans h.cores, hu.mem.trans h.mem, h.next.trans hu.next⟩

theorem ite {c : Prop} [Decidable c] (ht : s.Beside t) (hu : s.Beside u) : s.Beside (if c then t else u) := by
  split
  · exact ht
  · exact hu

theorem updPkg {f} (h : s.Beside t) : s.Beside (t.updPkg f) := ⟨h.cores, h.mem, h.next⟩
theorem updSlice {k f} (h : s.Beside t) : s.Beside (t.updSlice k f) := h.updPkg
theorem updPlate {p f} (h : s.Beside t) : s.Beside (t.updPlate p f) := h.updPkg

theorem at' {due phase key item} (h : s.Beside t) : s.Beside (t.at' due phase key item) :=
  h.trans ⟨by simp, by simp, by simp⟩

theorem after {n phase key item} (h : s.Beside t) : s.Beside (t.after n phase key item) := h.at'

theorem lineLater {cell line} (h : s.Beside t) : s.Beside (t.lineLater cell line) :=
  after (t := t.drawDelay.2) ⟨h.cores, h.mem, h.next⟩

theorem send {src dest cls phase key item} (h : s.Beside t) : s.Beside (t.send src dest cls phase key item) := by
  obtain ⟨_, _, _, -, heq⟩ := t.send_cases src dest cls phase key item
  rw [heq]
  exact ⟨h.cores, h.mem, h.next.trans (Nat.le_succ _)⟩

theorem startWalk {plate ctx va write fetch user} (h : s.Beside t) : s.Beside (t.startWalk plate ctx va write fetch user) := by
  obtain ⟨_, _, _, heq⟩ := t.startWalk_cases plate ctx va write fetch user
  rw [heq]
  exact ⟨h.cores, h.mem, h.next.trans (Nat.le_succ _)⟩

theorem queueLine {store bank cell line} (h : s.Beside t) : s.Beside (t.queueLine store bank cell line) := (updPkg h).at'

theorem queueVault {pa user} (h : s.Beside t) : s.Beside (t.queueVault pa user) := after ⟨h.cores, h.mem, h.next⟩

/-! ## Turns at a slice (14_fabric R424) -/

theorem sliceAgain {k} (h : s.Beside t) : s.Beside (t.sliceAgain k) := by
  refine List.foldlRecOn _ _ h.updSlice fun u hu user _ => ?_
  cases user with
  | request id => exact hu.after
  | line cell line => exact hu.after

theorem sliceServed {k user} (h : s.Beside t) : s.Beside (t.sliceServed k user) := ite h.updSlice h.updSlice.sliceAgain

theorem sliceWaits {k user} (h : s.Beside t) : s.Beside (t.sliceWaits k user) := h.ite h.updSlice

/-! ## The bookkeeping of a write (14_fabric R424 to R426, 13_proof R391) -/

theorem keepOld {line} (h : s.Beside t) : s.Beside (t.keepOld line) := ite ⟨h.cores, h.mem, h.next⟩ h

theorem settled {line} (h : s.Beside t) : s.Beside (t.settled line) := ⟨h.cores, h.mem, h.next⟩

theorem cleansed {line} (h : s.Beside t) : s.Beside (t.cleansed line) := h.updPkg

theorem pushBack {k line} (h : s.Beside t) : s.Beside (t.pushBack k line) :=
  ite h.updSlice.settled.updSlice h.updSlice.updSlice.updPlate

theorem takeWay {k line} (h : s.Beside t) : s.Beside (t.takeWay k line) := by
  refine h.ite (updSlice ?_)
  split
  · exact h
  · exact h.pushBack.ite h.updSlice

theorem askHbm {line job} (h : s.Beside t) : s.Beside (t.askHbm line job) := h.updPlate

theorem through {line ctx agent order} (h : s.Beside t) : s.Beside (t.through line ctx agent order) := by
  unfold State.through
  exact askHbm ⟨h.cores, h.mem, h.next.trans (Nat.le_succ _)⟩

theorem noteWrite {line agent order whole stream} (h : s.Beside t) : s.Beside (t.noteWrite line agent order whole stream) := by
  unfold State.noteWrite
  extract_lets k s1 s2
  have h2 : s.Beside s2 := h.updSlice.cleansed.ite h.updSlice
  refine ite (h.cleansed.ite h) (ite h2 ?_)
  split
  · exact h2.through
  · exact ite h2.settled.updSlice (h2.ite h2.takeWay.updSlice)

end State.Beside

/-- A write to a line of the physical map leaves its bytes in the memory; all else it does is beside the cores (04_ordering R94). -/
theorem State.beside_writePhys (s : State) (pa n x agent order : Nat) (stream : Bool) :
    State.Beside { s with mem := s.mem.putNum pa n x } (s.writePhys pa n x agent order stream) := by
  have hkeep := (State.Beside.refl s).keepOld (line := lineOf pa)
  have hwrite : State.Beside { s with mem := s.mem.putNum pa n x }
      { s.keepOld (lineOf pa) with mem := (s.keepOld (lineOf pa)).mem.putNum pa n x } := ⟨hkeep.cores, by rw [hkeep.mem], hkeep.next⟩
  exact hwrite.updPkg.ite hwrite.noteWrite

/-- A discard leaves zeros in the memory; all else it does is beside the cores (R241). -/
theorem State.beside_discardLine (s : State) (id line agent order : Nat) (fallen : Bool) :
    State.Beside { s with mem := s.mem.putNum line 64 0 } (s.discardLine id line agent order fallen).2 := by
  have hkeep := (State.Beside.refl s).keepOld (line := line)
  have hwrite : State.Beside { s with mem := s.mem.putNum line 64 0 }
      { s.keepOld line with mem := (s.keepOld line).mem.putNum line 64 0 } := ⟨hkeep.cores, by rw [hkeep.mem], hkeep.next⟩
  unfold State.discardLine
  dsimp only
  split
  · exact hwrite.noteWrite
  · dsimp only
    exact hwrite.updSlice.updPkg

/-! ## Steps that change one copy engine -/

/-- A change of a copy engine changes its core and what is due. -/
theorem State.updCpy_cases (s : State) (cell : Nat) (f : CopyEngine → CopyEngine) :
    ∃ es : List Event, s.updCpy cell f = { s.updCore cell (fun c => { c with cpy := f c.cpy }) with events := es } :=
  State.copyWatch_cases _ _ _

section UpdCpy

variable (s : State) (cell : Nat) (f : CopyEngine → CopyEngine)

@[simp] theorem State.updCpy_clk : (s.updCpy cell f).clk = s.clk := by obtain ⟨_, h⟩ := s.updCpy_cases cell f; rw [h]; rfl
@[simp] theorem State.updCpy_curT : (s.updCpy cell f).curT = s.curT := by obtain ⟨_, h⟩ := s.updCpy_cases cell f; rw [h]; rfl
@[simp] theorem State.updCpy_mem : (s.updCpy cell f).mem = s.mem := by obtain ⟨_, h⟩ := s.updCpy_cases cell f; rw [h]; rfl
@[simp] theorem State.updCpy_nextId : (s.updCpy cell f).nextId = s.nextId := by obtain ⟨_, h⟩ := s.updCpy_cases cell f; rw [h]; rfl

@[simp] theorem State.core_updCpy_self : (s.updCpy cell f).core cell = { s.core cell with cpy := f (s.core cell).cpy } := by
  obtain ⟨_, h⟩ := s.updCpy_cases cell f
  rw [h]
  exact State.core_updCore_self s cell fun c => { c with cpy := f c.cpy }

end UpdCpy

/-- From `s` to `t` the memory stays, and of a core all but its copy engine, which is now `e`; numbers are only given out. -/
structure State.Copies (s t : State) (cell : Nat) (e : CopyEngine) : Prop where
  mem  : t.mem = s.mem
  core : t.core cell = { s.core cell with cpy := e }
  next : s.nextId ≤ t.nextId

namespace State.Copies

variable {s t u : State} {cell : Nat} {e : CopyEngine}

theorem refl (s : State) (cell : Nat) : s.Copies s cell (s.core cell).cpy := ⟨rfl, rfl, le_rfl⟩

theorem updCpy (h : s.Copies t cell e) (f : CopyEngine → CopyEngine) : s.Copies (t.updCpy cell f) cell (f e) :=
  ⟨by rw [State.updCpy_mem, h.mem], by rw [State.core_updCpy_self, h.core], by rw [State.updCpy_nextId]; exact h.next⟩

theorem beside (h : s.Copies t cell e) (hu : t.Beside u) : s.Copies u cell e :=
  ⟨hu.mem.trans h.mem, by rw [← h.core, State.core, State.core, hu.cores], h.next.trans hu.next⟩

/-- The next number is given out. -/
theorem numbered (h : s.Copies t cell e) : s.Copies { t with nextId := t.nextId + 1 } cell e := ⟨h.mem, h.core, h.next.trans (Nat.le_succ _)⟩

theorem cpy (h : s.Copies t cell e) : (t.core cell).cpy = e := by rw [h.core]
theorem regs (h : s.Copies t cell e) : (t.core cell).regs = (s.core cell).regs := by rw [h.core]

end State.Copies

end Sys2Proof.Machine

/-! SUPPORT. Copies and their lines in a copy engine: replaced, added, gone, and their errors (08_copy R220, R226, R230, R232). -/

namespace Sys2Proof.Machine

open Sys2Proof

/-! ## A line replaced -/

theorem TaggedCopy.setLine_id (c : TaggedCopy) (l : CopyLine) : (c.setLine l).id = c.id := rfl

theorem TaggedCopy.mem_setLine_self {c : TaggedCopy} {l x : CopyLine} (hx : x ∈ c.lines) (hid : x.id = l.id) : l ∈ (c.setLine l).lines :=
  List.mem_map.mpr ⟨x, hx, by simp [hid]⟩

theorem TaggedCopy.mem_setLine_ne {c : TaggedCopy} {l x : CopyLine} (hx : x ∈ c.lines) (hid : x.id ≠ l.id) : x ∈ (c.setLine l).lines :=
  List.mem_map.mpr ⟨x, hx, by simp [hid]⟩

/-- An engine with a line replaced. -/
def CopyEngine.setLine (e : CopyEngine) (l : CopyLine) : CopyEngine := { e with tagged := e.tagged.map fun c => c.setLine l }

theorem State.Copies.setLine {s t : State} {cell : Nat} {e : CopyEngine} (h : s.Copies t cell e) (l : CopyLine) :
    s.Copies (t.setLine cell l) cell (e.setLine l) := h.updCpy _

theorem CopyEngine.mem_mapCopy {e : CopyEngine} {c : TaggedCopy} (hc : c ∈ e.tagged) (f : TaggedCopy → TaggedCopy) :
    f c ∈ (e.mapCopy c.id f).tagged := List.mem_map.mpr ⟨c, hc, by simp⟩

/-! ## Data held for the destinations of a line (R226, R229) -/

/-- A line that has been read holds `data` for one destination. -/
def CopyLine.HoldsFor (l : CopyLine) (data : BitVec 512) (d : LineEnd) : Prop := l.read = true ∧ l.data = data ∧ l.dsts = [d]

/-- A copy holds `data` for each of some destinations, in lines under numbers below `next`. -/
def CopyEngine.Holds (e : CopyEngine) (id next : Nat) (data : BitVec 512) (ds : List LineEnd) : Prop :=
  ∃ x ∈ e.tagged, x.id = id ∧ ∀ d ∈ ds, ∃ y ∈ x.lines, y.id < next ∧ y.HoldsFor data d

theorem CopyEngine.Holds.mono {e : CopyEngine} {id n m : Nat} {data : BitVec 512} {ds : List LineEnd} (h : e.Holds id n data ds) (hnm : n ≤ m) :
    e.Holds id m data ds := by
  obtain ⟨x, hx, hid, hds⟩ := h
  refine ⟨x, hx, hid, fun d hd => ?_⟩
  obtain ⟨y, hy, hlt, hold⟩ := hds d hd
  exact ⟨y, hy, hlt.trans_le hnm, hold⟩

/-- The first destination of a line that has been read. -/
theorem CopyEngine.holds_setLine {e : CopyEngine} {c : TaggedCopy} {x l : CopyLine} {next : Nat} {data : BitVec 512} {d : LineEnd}
    (hc : c ∈ e.tagged) (hx : x ∈ c.lines) (hid : x.id = l.id) (hlt : l.id < next) (hl : l.HoldsFor data d) :
    (e.setLine l).Holds c.id next data [d] :=
  ⟨c.setLine l, List.mem_map_of_mem hc, c.setLine_id l, fun _ hd =>
    ⟨l, TaggedCopy.mem_setLine_self hx hid, hlt, List.mem_singleton.mp hd ▸ hl⟩⟩

/-- One more destination, in a line under a new number, which may since have been replaced. -/
theorem CopyEngine.Holds.append {e e' : CopyEngine} {id : Nat} {data : BitVec 512} {ds : List LineEnd} {d : LineEnd} {l l' : CopyLine}
    (h : e.Holds id l.id data ds) (hl : l.HoldsFor data d) (hl' : l'.HoldsFor data d) (hid : l'.id = l.id)
    (he : e' = e.mapCopy id (fun x => { x with lines := x.lines ++ [l] }) ∨
      e' = (e.mapCopy id fun x => { x with lines := x.lines ++ [l] }).setLine l') : e'.Holds id (l.id + 1) data (ds ++ [d]) := by
  obtain ⟨x, hx, rfl, hds⟩ := h
  have hadd := CopyEngine.mem_mapCopy hx fun x => { x with lines := x.lines ++ [l] }
  have hlast : l ∈ x.lines ++ [l] := List.mem_append_right _ List.mem_cons_self
  rcases he with rfl | rfl
  · refine ⟨_, hadd, rfl, fun a ha => ?_⟩
    rcases List.mem_append.mp ha with ha | ha
    · obtain ⟨y, hy, hlt, hold⟩ := hds a ha
      exact ⟨y, List.mem_append_left _ hy, hlt.trans (Nat.lt_succ_self _), hold⟩
    · exact ⟨l, hlast, Nat.lt_succ_self _, List.mem_singleton.mp ha ▸ hl⟩
  · refine ⟨_, List.mem_map_of_mem hadd, rfl, fun a ha => ?_⟩
    rcases List.mem_append.mp ha with ha | ha
    · obtain ⟨y, hy, hlt, hold⟩ := hds a ha
      exact ⟨y, TaggedCopy.mem_setLine_ne (List.mem_append_left _ hy) (hid ▸ hlt.ne), hlt.trans (Nat.lt_succ_self _), hold⟩
    · exact ⟨l', TaggedCopy.mem_setLine_self hlast hid.symm, hid ▸ Nat.lt_succ_self _, List.mem_singleton.mp ha ▸ hl'⟩

/-! ## Lines gone (R220) -/

/-- The engine once a line of a copy has performed or failed. -/
def CopyEngine.dropLine (e : CopyEngine) (id line : Nat) : CopyEngine :=
  (e.mapCopy id fun x => { x with lines := x.lines.filter fun y => y.id != line }).settle id

/-- From `e` to `e'` the error registers and the errors of the tags stay (R221, R230). -/
structure CopyEngine.SameErrors (e e' : CopyEngine) : Prop where
  err    : ∀ n : Nat, (e'.tags[n]?.getD Tag.reset).err = (e.tags[n]?.getD Tag.reset).err
  cfmask : e'.cfmask = e.cfmask
  valid  : e'.eValid = e.eValid
  more   : e'.eMore = e.eMore
  tag    : e'.eTag = e.eTag
  cause  : e'.eCause = e.eCause
  pc     : e'.errPc = e.errPc
  addr   : e'.errA = e.errA

/-- A property of a tag that a replacement keeps. -/
theorem Tag.setIfInBounds_keeps {α : Type} (p : Tag → α) (ts : Vector Tag 64) (i n : Nat) {g : Tag}
    (hg : p g = p (ts[i]?.getD Tag.reset)) :
    p ((ts.setIfInBounds i g)[n]?.getD Tag.reset) = p (ts[n]?.getD Tag.reset) := by
  rw [Vector.getElem?_setIfInBounds]
  split
  · subst_vars
    split
    · exact hg
    · simp_all
  · rfl

/-- A count taken back leaves of every tag what does not depend on its count. -/
theorem CopyEngine.countDown_keeps {α : Type} (p : Tag → α) (hp : ∀ g count done records, p { g with count, done, records } = p g)
    (e : CopyEngine) (tag n : Nat) : p ((e.countDown tag).tags[n]?.getD Tag.reset) = p (e.tags[n]?.getD Tag.reset) := by
  rw [CopyEngine.countDown]
  exact Tag.setIfInBounds_keeps p e.tags tag n (hp _ _ _ _)

/-- The end of a copy adds no copy, and leaves the errors. -/
theorem CopyEngine.finishCopy_spec (e : CopyEngine) (t : TaggedCopy) :
    (e.finishCopy t).tagged ⊆ e.tagged ∧ e.SameErrors (e.finishCopy t) := by
  refine ⟨fun x hx => List.mem_of_mem_filter hx, fun n => ?_, rfl, rfl, rfl, rfl, rfl, rfl, rfl⟩
  rw [CopyEngine.finishCopy, CopyEngine.countDown_keeps Tag.err fun _ _ _ _ => rfl]
  exact Tag.setIfInBounds_keeps Tag.err e.tags t.tag n rfl

theorem CopyEngine.settle_spec (e : CopyEngine) (id : Nat) : (e.settle id).tagged ⊆ e.tagged ∧ e.SameErrors (e.settle id) := by
  have hsame : e.tagged ⊆ e.tagged ∧ e.SameErrors e := ⟨List.Subset.refl _, fun _ => rfl, rfl, rfl, rfl, rfl, rfl, rfl, rfl⟩
  unfold CopyEngine.settle
  split
  · split
    · exact e.finishCopy_spec _
    · exact hsame
  · exact hsame

theorem CopyEngine.sameErrors_dropLine (e : CopyEngine) (id line : Nat) : e.SameErrors (e.dropLine id line) := by
  obtain ⟨herr, hcfmask, hvalid, hmore, htag, hcause, hpc, haddr⟩ := (CopyEngine.settle_spec _ id).2
  exact ⟨herr, hcfmask, hvalid, hmore, htag, hcause, hpc, haddr⟩

/-- A line that has gone stands in no copy under the number of its own. -/
theorem CopyEngine.not_mem_dropLine {e : CopyEngine} {id line : Nat} {x : TaggedCopy} (hx : x ∈ (e.dropLine id line).tagged) (hid : x.id = id) :
    ∀ y ∈ x.lines, y.id ≠ line := by
  obtain ⟨c, -, rfl⟩ := List.mem_map.mp ((CopyEngine.settle_spec _ id).1 hx)
  by_cases hc : c.id = id
  · simp [hc]
  · simp [hc] at hid

/-! ## Errors (R230, R232) -/

/-- The targets that a line would have filled join CFMASK. -/
theorem getLsbD_foldl_twoPow (ps : List Nat) (m : BitVec 80) {p : Nat} (hp : p < 80) :
    (ps.foldl (fun m p => m ||| BitVec.twoPow 80 p) m).getLsbD p = (m.getLsbD p || ps.contains p) := by
  induction ps generalizing m with
  | nil => simp
  | cons q ps ih =>
    have hbit : (BitVec.twoPow 80 q).getLsbD p = (p == q) := by
      rw [BitVec.getLsbD_twoPow, Bool.eq_iff_iff, Bool.and_eq_true, decide_eq_true_iff, decide_eq_true_iff, beq_iff_eq]
      omega
    rw [List.foldl_cons, ih, BitVec.getLsbD_or, hbit, List.contains_cons, Bool.or_assoc]

/-- Whether an end is the multicast target at a position. -/
def LineEnd.fills (d : LineEnd) (p : Nat) : Bool :=
  match d with
  | .core _ _ q => q == p
  | _ => false

theorem CopyLine.contains_positions (l : CopyLine) {p : Nat} (hp : p < 80) : l.positions.contains p = l.dsts.any fun d => d.fills p := by
  rw [Bool.eq_iff_iff, List.contains_iff_mem, CopyLine.positions, List.mem_filterMap, List.any_eq_true]
  refine exists_congr fun d => and_congr_right fun _ => ?_
  cases d with
  | core store offset q =>
    by_cases hq : q < 80
    · simp [hq, LineEnd.fills]
    · have hne : q ≠ p := by omega
      simp [hq, hne, LineEnd.fills]
  | global a => simp [LineEnd.fills]
  | zeros => simp [LineEnd.fills]
  | collect a => simp [LineEnd.fills]

/-- The engine once a line has failed. -/
def CopyEngine.failLine (e : CopyEngine) (c : TaggedCopy) (l : CopyLine) (cause address : Nat) : CopyEngine :=
  CopyEngine.dropLine { e.error c cause address with cfmask := l.positions.foldl (fun m p => m ||| BitVec.twoPow 80 p) e.cfmask } c.id l.id

end Sys2Proof.Machine

/-! SUPPORT. The actions of a line of a tagged copy: read, onward, failed, gone (08_copy R226 to R232). -/

namespace Sys2Proof.Machine

open Sys2Proof

theorem State.Copies.trans {s t u : State} {cell : Nat} {e e' : CopyEngine} (h : s.Copies t cell e) (hu : t.Copies u cell e') :
    s.Copies u cell e' := ⟨hu.mem.trans h.mem, by rw [hu.core, h.core], h.next.trans hu.next⟩

/-! ## What the actions leave of the copy engine -/

/-- A line that has performed or failed goes from its copy (R220). -/
theorem State.Copies.lineGone {s t : State} {cell : Nat} {e : CopyEngine} (h : s.Copies t cell e) (c : TaggedCopy) (l : CopyLine) :
    s.Copies (t.lineGone cell c l) cell (e.dropLine c.id l.id) := by
  have hdrop := h.updCpy fun e => e.dropLine c.id l.id
  unfold State.lineGone
  extract_lets s1
  split
  · exact hdrop.beside (State.Beside.refl _).after
  · exact hdrop

theorem State.Copies.lineFails {s t : State} {cell : Nat} {e : CopyEngine} (h : s.Copies t cell e) (c : TaggedCopy) (l : CopyLine)
    (cause address : Nat) : s.Copies (t.lineFails cell c l cause address) cell (e.failLine c l cause address) :=
  (h.updCpy fun e => { e.error c cause address with cfmask := l.positions.foldl (fun m p => m ||| BitVec.twoPow 80 p) e.cfmask }).lineGone c l

/-- A line that has been read and goes on stands as it was, or on the packet network. -/
theorem State.copies_lineOnward (s : State) (cell : Nat) (l : CopyLine) :
    ∃ e, s.Copies (s.lineOnward cell l) cell e ∧ (e = (s.core cell).cpy ∨ e = (s.core cell).cpy.setLine { l with stage := 4 }) := by
  have hrefl := State.Copies.refl s cell
  unfold State.lineOnward
  split
  · split
    · exact ⟨_, (hrefl.setLine _).beside (State.Beside.refl _).send, .inr rfl⟩
    · exact ⟨_, hrefl.beside (State.Beside.refl _).lineLater, .inl rfl⟩
  · exact ⟨_, hrefl.beside (State.Beside.refl _).lineLater, .inl rfl⟩

/-- A line that has been read goes on for one more destination, under the next number. -/
def State.lineFor (s : State) (cell id : Nat) (l : CopyLine) (d : LineEnd) : State :=
  let n : CopyLine := { l with id := s.nextId, dsts := [d] }
  ({ s with nextId := s.nextId + 1 }.updCpy cell fun e => e.mapCopy id fun x => { x with lines := x.lines ++ [n] }).lineOnward cell n

theorem State.lineRead_cons {s : State} {cell : Nat} {c : TaggedCopy} {l : CopyLine} {d : LineEnd} {ds : List LineEnd} (h : l.dsts = d :: ds)
    (data : BitVec 512) :
    s.lineRead cell c l data =
      let l1 : CopyLine := { l with read := true, stage := 0, data, dsts := [d] }
      ds.foldl (fun s d => s.lineFor cell c.id l1 d) ((s.setLine cell l1).lineOnward cell l1) := by
  rw [State.lineRead, h]
  rfl

/-- One more destination holds the data of the line. -/
theorem State.copies_lineFor (s : State) (cell id : Nat) (l : CopyLine) (d : LineEnd) {ds : List LineEnd} (hl : l.read = true)
    (h : (s.core cell).cpy.Holds id s.nextId l.data ds) :
    ∃ e, s.Copies (s.lineFor cell id l d) cell e ∧ e.Holds id (s.lineFor cell id l d).nextId l.data (ds ++ [d]) := by
  have hadd := (State.Copies.refl s cell).numbered.updCpy fun e => e.mapCopy id fun x =>
    { x with lines := x.lines ++ [{ l with id := s.nextId, dsts := [d] }] }
  obtain ⟨e, hon, he⟩ := State.copies_lineOnward _ cell { l with id := s.nextId, dsts := [d] }
  rw [hadd.cpy] at he
  have hold := CopyEngine.Holds.append (l := { l with id := s.nextId, dsts := [d] }) (l' := { l with id := s.nextId, dsts := [d], stage := 4 })
    h ⟨hl, rfl, rfl⟩ ⟨hl, rfl, rfl⟩ rfl he
  refine ⟨e, hadd.trans hon, hold.mono ?_⟩
  have hnext := hon.next
  rwa [State.updCpy_nextId] at hnext

theorem State.copies_lineFors (s : State) (cell id : Nat) (l : CopyLine) (hl : l.read = true) (ds : List LineEnd) {done : List LineEnd}
    (h : (s.core cell).cpy.Holds id s.nextId l.data done) :
    ∃ e n, s.Copies (ds.foldl (fun s d => s.lineFor cell id l d) s) cell e ∧ e.Holds id n l.data (done ++ ds) := by
  induction ds generalizing s done with
  | nil => exact ⟨_, _, .refl s cell, by rwa [List.append_nil]⟩
  | cons d ds ih =>
    obtain ⟨e, hc, he⟩ := s.copies_lineFor cell id l d hl h
    obtain ⟨e', n, hc', he'⟩ := ih (s.lineFor cell id l d) (hc.cpy.symm ▸ he)
    exact ⟨e', n, hc.trans hc', by rwa [List.append_cons]⟩

/-- A line of a copy of a core, among the copies and lines of its engine. -/
theorem Claims.mem_of_lineOf {s : State} {cell : Nat} {c : TaggedCopy} {l : CopyLine} (h : Claims.lineOf s cell c l) :
    c ∈ (s.core cell).cpy.tagged ∧ l ∈ c.lines ∧ l.id < s.nextId := by
  obtain ⟨hcopy, hline, -, hold⟩ := h
  have hc := List.mem_of_find?_eq_some hcopy
  have hl := List.mem_of_find?_eq_some hline
  exact ⟨hc, hl, hold c hc l hl⟩

/-- The source of a line has been read: its copy holds the data for every destination (R226, R229). -/
theorem State.copies_lineRead {s : State} {cell : Nat} {c : TaggedCopy} {l : CopyLine} (h : Claims.lineOf s cell c l) (hd : l.dsts ≠ [])
    (data : BitVec 512) : ∃ e n, s.Copies (s.lineRead cell c l data) cell e ∧ e.Holds c.id n data l.dsts := by
  obtain ⟨hc, hl, hlt⟩ := Claims.mem_of_lineOf h
  obtain ⟨d, ds, hds⟩ := List.exists_cons_of_ne_nil hd
  let l1 : CopyLine := { l with read := true, stage := 0, data, dsts := [d] }
  have hset := (State.Copies.refl s cell).setLine l1
  obtain ⟨e, hon, he⟩ := State.copies_lineOnward (s.setLine cell l1) cell l1
  have hread := hset.trans hon
  have hfirst : e.Holds c.id ((s.setLine cell l1).lineOnward cell l1).nextId data [d] := by
    rw [hset.cpy] at he
    have hlt' := hlt.trans_le hread.next
    rcases he with rfl | rfl
    · exact CopyEngine.holds_setLine hc hl rfl hlt' ⟨rfl, rfl, rfl⟩
    · exact CopyEngine.holds_setLine (c := c.setLine l1) (x := l1) (List.mem_map_of_mem hc) (TaggedCopy.mem_setLine_self hl rfl) rfl hlt'
        ⟨rfl, rfl, rfl⟩
  obtain ⟨e', n, hall, hold⟩ := State.copies_lineFors _ cell c.id l1 rfl ds (hread.cpy.symm ▸ hfirst)
  rw [State.lineRead_cons hds, hds]
  exact ⟨e', n, hread.trans hall, hold⟩

/-! ## In the words of the statements -/

section Words

variable {s t : State} {cell : Nat} {e : CopyEngine} {c : TaggedCopy} {l : CopyLine}

theorem Claims.lineHas_of_copies {n : Nat} {data : BitVec 512} (h : s.Copies t cell e) (he : e.Holds c.id n data l.dsts) :
    Claims.lineHas s t cell c l data := by
  obtain ⟨x, hx, hid, hds⟩ := he
  refine ⟨h.mem, x, h.cpy.symm ▸ hx, hid, fun d hd => ?_⟩
  obtain ⟨y, hy, -, hold⟩ := hds d hd
  exact ⟨y, hy, hold⟩

theorem Claims.lineGone_of_copies (h : s.Copies t cell (e.dropLine c.id l.id)) : Claims.lineGone t cell c l := fun _ hx =>
  CopyEngine.not_mem_dropLine (h.cpy ▸ hx)

theorem Claims.lineIs_of_copies {l' : CopyLine} (hl : Claims.lineOf s cell c l) (hid : l'.id = l.id)
    (h : s.Copies t cell ((s.core cell).cpy.setLine l')) : Claims.lineIs t cell c l' := by
  obtain ⟨hc, hmem, -⟩ := Claims.mem_of_lineOf hl
  exact ⟨c.setLine l', h.cpy.symm ▸ List.mem_map_of_mem hc, rfl, TaggedCopy.mem_setLine_self hmem hid.symm⟩

/-- A failed line: its tag's error, the first error in CFERR, and its targets in CFMASK (R230, R232). -/
theorem Claims.lineFailed_of_copies (hl : Claims.lineOf s cell c l) {cause address : Nat}
    (h : s.Copies t cell ((s.core cell).cpy.failLine c l cause address)) : Claims.lineFailed s t cell c l cause address := by
  obtain ⟨herr, hcfmask, hvalid, hmore, htag, hcause, hpc, haddr⟩ := CopyEngine.sameErrors_dropLine
    { (s.core cell).cpy.error c cause address with
      cfmask := l.positions.foldl (fun m p => m ||| BitVec.twoPow 80 p) (s.core cell).cpy.cfmask } c.id l.id
  obtain ⟨-, -, hlt, -⟩ := hl
  refine ⟨h.mem, Claims.lineGone_of_copies h, ?_⟩
  rw [h.cpy, CopyEngine.failLine, herr, hcfmask, hvalid, hmore, htag, hcause, hpc, haddr]
  refine ⟨?_, ?_, fun hv => ?_, fun hv => ?_, fun p hp => ?_⟩
  · unfold CopyEngine.error
    split <;> simp [hlt]
  · unfold CopyEngine.error
    split
    · assumption
    · rfl
  · simp [CopyEngine.error, hv]
  · simp [CopyEngine.error, hv, word]
  · exact (getLsbD_foldl_twoPow _ _ hp).trans (congrArg _ (CopyLine.contains_positions l hp))

end Words

end Sys2Proof.Machine

/-! SUPPORT. A line of a tagged copy at its places: core stores, translations and points (08_copy R226 to R230, R241; 14_fabric R424). -/

namespace Sys2Proof.Machine

open Sys2Proof

variable {s t : State} {cell : Nat} {c : TaggedCopy} {l : CopyLine}

/-! ## One action, by the end that is accessed next -/

theorem Claims.acts_of_runLine (h : Claims.lineOf s cell c l) {p : State → Prop} (ht : s.runLine cell c l = t)
    (hregs : (t.core cell).regs = (s.core cell).regs) (hp : p t) : Claims.acts s cell l p := by
  obtain ⟨hcopy, hline, -, -⟩ := h
  refine ⟨t, ?_, hregs, hp⟩
  show execTaggedCopyLine cell l.id s = _
  simp only [execTaggedCopyLine, hcopy, hline, ht]

theorem State.runLine_zeros (hn : l.nextEnd = .zeros) :
    s.runLine cell c l = if l.read then s.lineGone cell c l else s.lineRead cell c l 0 := by
  rw [State.runLine, hn]

theorem State.runLine_core {store offset position : Nat} (hn : l.nextEnd = .core store offset position) :
    s.runLine cell c l =
      if l.stage == 0 || l.stage == 4 then
        (s.setLine cell { l with stage := if l.read then 3 else 2 }).queueLine store (bankOf offset) cell l.id
      else if l.read then s.lineDelivered cell c l store offset position
      else if s.pkg.poison.contains (coreStoreBase store + offset) then s.lineFails cell c l 380 offset
      else s.lineRead cell c l (BitVec.ofNat 512 (s.mem.num (coreStoreBase store + offset) 64)) := by
  rw [State.runLine, hn]

/-- What the translation of a line's global address makes of it (R228, R435). -/
def State.lineKnown (s : State) (cell : Nat) (c : TaggedCopy) (l : CopyLine) (va : Nat) (known : Option (Except Nat Nat)) : State :=
  match known with
  | some (.ok pa) => s.lineTranslated cell l.id pa
  | some (.error cause) => s.lineFails cell c l cause va
  | none => s.startWalk (plateOf cell) (s.core cell).ctx va l.read false (.line cell l.id)

theorem State.runLine_global {va : Nat} (hn : l.nextEnd = .global va) :
    s.runLine cell c l =
      if l.stage == 0 then s.lineKnown cell c l va (s.translateNow (plateOf cell) (s.core cell).ctx va l.read false)
      else if l.stage == 4 then s.lineReaches cell l
      else s.lineAtPoint cell c l va := by
  rw [State.runLine, hn]
  rfl

/-! ## Actions in the words of the statements -/

theorem Claims.acts_lineRead (h : Claims.lineOf s cell c l) (hd : l.dsts ≠ []) {data : BitVec 512}
    (ht : s.runLine cell c l = s.lineRead cell c l data) : Claims.acts s cell l fun t => Claims.lineHas s t cell c l data := by
  obtain ⟨e, n, hc, he⟩ := State.copies_lineRead h hd data
  exact Claims.acts_of_runLine h ht hc.regs (Claims.lineHas_of_copies hc he)

theorem Claims.acts_lineFails (h : Claims.lineOf s cell c l) {cause address : Nat}
    (ht : s.runLine cell c l = s.lineFails cell c l cause address) :
    Claims.acts s cell l fun t => Claims.lineFailed s t cell c l cause address :=
  have hc := (State.Copies.refl s cell).lineFails c l cause address
  Claims.acts_of_runLine h ht hc.regs (Claims.lineFailed_of_copies h hc)

/-! ## Core stores (R226) -/

theorem State.mem_sidePort_queueLine (s : State) (store bank cell line : Nat) :
    .copy cell line ∈ ((s.queueLine store bank cell line).sidePort store bank).lines := by
  rw [State.queueLine, State.sidePort_queueJob, if_pos rfl]
  exact List.mem_append_right _ List.mem_cons_self

/-- A line that comes to a side port waits there. -/
theorem Claims.acts_queueLine (h : Claims.lineOf s cell c l) {store offset position : Nat} (hn : l.nextEnd = .core store offset position)
    (hs : l.stage = 0 ∨ l.stage = 4) : Claims.acts s cell l fun t => t.mem = s.mem ∧
      Claims.lineIs t cell c { l with stage := if l.read then 3 else 2 } ∧ .copy cell l.id ∈ (t.sidePort store (offset / 64 % 32)).lines := by
  have hc := ((State.Copies.refl s cell).setLine { l with stage := if l.read then 3 else 2 }).beside
    ((State.Beside.refl _).queueLine (store := store) (bank := bankOf offset) (cell := cell) (line := l.id))
  refine Claims.acts_of_runLine h ?_ hc.regs ⟨hc.mem, Claims.lineIs_of_copies h rfl hc, ?_⟩
  · rw [State.runLine_core hn, if_pos (by simpa using hs)]
  · exact State.mem_sidePort_queueLine _ _ _ _ _

/-- A line delivered into a core store. -/
theorem State.copies_delivered (s : State) (cell : Nat) (c : TaggedCopy) (l : CopyLine) {store offset position : Nat}
    (hno : position < 80 → s.refusesLine store offset = false) :
    State.Copies { s with mem := s.mem.putNum (coreStoreBase store + offset) l.bytes l.data.toNat }
      (s.lineDelivered cell c l store offset position) cell ((s.core cell).cpy.dropLine c.id l.id) := by
  have hrefuse : ¬(decide (position < 80) && s.refusesLine store offset) = true := by simpa using hno
  rw [State.lineDelivered, if_neg hrefuse]
  refine State.Copies.lineGone ?_ c l
  split
  · exact ⟨rfl, rfl, le_rfl⟩
  · exact ⟨rfl, rfl, le_rfl⟩

/-! ## Points of global addresses (R226, R241; 14_fabric R424) -/

/-- Whether a line at its point waits there, at a slice. -/
def State.lineHeld (s : State) (cell : Nat) (c : TaggedCopy) (l : CopyLine) : Bool :=
  let line := lineOf l.physical
  let k := sliceOf line
  (inHbm line || inHost line) &&
    s.sliceHolds k (.line cell l.id) line l.read (l.read && l.discard && s.discardWrites c.id line (c.fallen.contains k))

theorem State.lineAtPoint_held (h : s.lineHeld cell c l = true) (va : Nat) :
    s.lineAtPoint cell c l va = s.sliceWaits (sliceOf (lineOf l.physical)) (.line cell l.id) := if_pos h

/-- A line that waits no longer performs; all else is beside the cores. -/
theorem State.beside_lineAtPoint (h : s.lineHeld cell c l = false) (va : Nat) :
    (s.linePerforms cell c l va).Beside (s.lineAtPoint cell c l va) := by
  have hperforms : s.lineAtPoint cell c l va = if inHbm (lineOf l.physical) || inHost (lineOf l.physical) then
      (s.linePerforms cell c l va).sliceServed (sliceOf (lineOf l.physical)) (.line cell l.id) else s.linePerforms cell c l va :=
    if_neg (Bool.eq_false_iff.mp h)
  rw [hperforms]
  exact (State.Beside.refl _).sliceServed.ite (.refl _)

/-- A user that waits at a slice is among those that wait there. -/
theorem State.mem_sliceWaits (s : State) (k : Nat) (u : SliceUser) : u ∈ ((s.sliceWaits k u).slice k).waiting := by
  unfold State.sliceWaits
  split
  · exact List.contains_iff_mem.mp ‹_›
  · rw [State.slice, State.updSlice, State.updPkg, Table.getD_set_self]
    exact List.mem_append_right _ List.mem_cons_self

/-- A line that writes at its point: its bytes, or zeros for a discard, and it goes from its copy. -/
theorem State.copies_linePerforms (s : State) (cell : Nat) (c : TaggedCopy) {l : CopyLine} (hr : l.read = true) (va : Nat) :
    ∃ e : CopyEngine, State.Copies { s with mem := s.mem.putNum (lineOf l.physical) 64 (if l.discard then 0 else l.data.toNat) }
      (s.linePerforms cell c l va) cell (e.dropLine c.id l.id) := by
  unfold State.linePerforms
  extract_lets line k r s1
  rw [if_neg (show ¬(!l.read) = true by simp [hr])]
  split
  · have hzeros := (State.Copies.refl _ cell).beside (s.beside_discardLine c.id line (timedAgent cell) c.id (c.fallen.contains k))
    by_cases hslice : (r.1 || c.fallen.contains k) = true
    · have hs1 : s1 = r.2 := if_pos hslice
      exact ⟨_, (hs1 ▸ hzeros).lineGone c l⟩
    · have hs1 : s1 = r.2.updCpy cell fun e => { e.setCopy { c with fallen := k :: c.fallen } with zfall := e.zfall + 1 } := if_neg hslice
      exact ⟨_, (hs1 ▸ hzeros.updCpy _).lineGone c l⟩
  · exact ⟨_, ((State.Copies.refl _ cell).beside (s.beside_writePhys _ _ _ _ _ _)).lineGone c l⟩

/-! ## On the way to a point -/

theorem State.copies_lineReaches (s : State) (cell : Nat) (l : CopyLine) :
    s.Copies (s.lineReaches cell l) cell ((s.core cell).cpy.setLine { l with stage := 1 }) := by
  refine ((State.Copies.refl s cell).setLine _).beside ?_
  have hrefl := State.Beside.refl (s.setLine cell { l with stage := 1 })
  exact hrefl.updPlate.ite (hrefl.queueLine.ite (hrefl.queueVault.ite (hrefl.after.ite hrefl.after)))

/-- A line of HBM waits for its burst at the point. -/
theorem State.mem_bursts_lineReaches (s : State) (cell : Nat) {l : CopyLine} (hhbm : inHbm l.physical = true) (hd : l.discard = false)
    (hp : stackPlate l.physical < 4) : (l.physical, cell, l.id) ∈ ((s.lineReaches cell l).plate (stackPlate l.physical)).bursts := by
  have hburst : s.lineReaches cell l = (s.setLine cell { l with stage := 1 }).updPlate (stackPlate l.physical) fun p =>
      { p with bursts := p.bursts ++ [(l.physical, cell, l.id)] } := if_pos (by simp [hhbm, hd])
  rw [hburst, State.plate_updPlate hp]
  exact List.mem_append_right _ List.mem_cons_self

theorem inHbm_of_inStoreStep {pa : Nat} (h : inStoreStep pa = true) : inHbm pa = false := by
  simp only [inStoreStep, Bool.and_eq_true, decide_eq_true_eq] at h
  rw [inHbm, decide_eq_false_iff_not, hbmTop]
  omega

/-- A line of a core-store step waits for its side port at the point. -/
theorem State.mem_sidePort_lineReaches (s : State) (cell : Nat) {l : CopyLine} (hstore : inStoreStep l.physical = true) :
    .copy cell l.id ∈ ((s.lineReaches cell l).sidePort (storeCell l.physical) (l.physical / 64 % 32)).lines := by
  have hqueue : s.lineReaches cell l =
      (s.setLine cell { l with stage := 1 }).queueLine (storeCell l.physical) (bankOf l.physical) cell l.id :=
    (if_neg (by simp [inHbm_of_inStoreStep hstore])).trans (if_pos hstore)
  rw [hqueue]
  exact State.mem_sidePort_queueLine _ _ _ _ _

theorem State.lineTranslated_eq (h : Claims.lineOf s cell c l) (pa : Nat) :
    s.lineTranslated cell l.id pa =
      if travels cell pa l.discard then
        (s.setLine cell { l with stage := 4, physical := pa }).send (routerOf cell) (pointRouter pa) 0 phNet cell (.op (.taggedCopyLine cell l.id))
      else s.lineReaches cell { l with physical := pa } := by
  obtain ⟨hcopy, hline, -, -⟩ := h
  simp only [State.lineTranslated, hcopy, hline]

theorem travels_iff (cell pa : Nat) (discard : Bool) :
    travels cell pa discard = true ↔ discard = true ∨ inHbm pa = false ∨ stackPlate pa ≠ plateOf cell := by
  cases discard <;> cases h : inHbm pa <;> simp [travels, h]

/-- A translated line that travels sets out by a packet to the point of its address. -/
theorem Claims.acts_travels (h : Claims.lineOf s cell c l) {pa : Nat} (ht : s.runLine cell c l = s.lineTranslated cell l.id pa)
    (htravels : travels cell pa l.discard = true) : Claims.acts s cell l fun t => t.mem = s.mem ∧
      Claims.lineIs t cell c { l with stage := 4, physical := pa } ∧ ∃ p : Packet, t.packets.get? s.nextId = some p ∧
        p.dest = pointRouter pa ∧ p.item = .op (.taggedCopyLine cell l.id) := by
  let item : Item := .op (.taggedCopyLine cell l.id)
  have hset := (State.Copies.refl s cell).setLine { l with stage := 4, physical := pa }
  have hc := hset.beside
    ((State.Beside.refl _).send (src := routerOf cell) (dest := pointRouter pa) (cls := 0) (phase := phNet) (key := cell) (item := item))
  obtain ⟨-, -, -, hpacket⟩ := State.send_spec (s.setLine cell { l with stage := 4, physical := pa }) (routerOf cell) (pointRouter pa) 0 phNet
    cell item
  rw [State.setLine, State.updCpy_nextId] at hpacket
  refine Claims.acts_of_runLine h ?_ hc.regs ⟨hc.mem, Claims.lineIs_of_copies h rfl hc, hpacket⟩
  rw [ht, State.lineTranslated_eq h, if_pos htravels]

end Sys2Proof.Machine

/-! SUPPORT. The actions of a line of a tagged copy, in the words of the statement (08_copy R226 to R232, R241). -/

namespace Sys2Proof.Machine

open Sys2Proof

variable {s : State} {cell : Nat} {c : TaggedCopy} {l : CopyLine}

theorem CopyLine.nextEnd_source (hr : l.read = false) : l.nextEnd = l.src := by simp [CopyLine.nextEnd, hr]

theorem CopyLine.nextEnd_destination {d : LineEnd} {ds : List LineEnd} (hr : l.read = true) (hd : l.dsts = d :: ds) : l.nextEnd = d := by
  simp [CopyLine.nextEnd, hr, hd]

theorem CopyLine.nextEnd_global {va : Nat} (h : (if l.read then l.dsts.head? else some l.src) = some (.global va)) : l.nextEnd = .global va := by
  cases hr : l.read with
  | false =>
    rw [CopyLine.nextEnd_source hr]
    simpa [hr] using h
  | true =>
    obtain ⟨ds, hds⟩ := List.head?_eq_some_iff.mp ((if_pos hr).symm.trans h)
    exact CopyLine.nextEnd_destination hr hds

/-- A line at a core store that is past its wait is read there, or fails. -/
theorem State.runLine_core_served {store offset position : Nat} (hn : l.nextEnd = .core store offset position) (h0 : l.stage ≠ 0)
    (h4 : l.stage ≠ 4) :
    s.runLine cell c l =
      if l.read then s.lineDelivered cell c l store offset position
      else if s.pkg.poison.contains (coreStoreBase store + offset) then s.lineFails cell c l 380 offset
      else s.lineRead cell c l (BitVec.ofNat 512 (s.mem.num (coreStoreBase store + offset) 64)) := by
  rw [State.runLine_core hn, if_neg (by simp [h0, h4])]

/-- A line's turn at a core store that takes it. -/
theorem Claims.acts_delivered (h : Claims.lineOf s cell c l) {store offset position : Nat} (hn : l.nextEnd = .core store offset position)
    (hr : l.read = true) (hs : l.stage = 3) (hno : position < 80 → s.refusesLine store offset = false) :
    Claims.acts s cell l fun t =>
      t.mem = s.mem.putNum (coreStoreBase store + offset) l.bytes l.data.toNat ∧ Claims.lineGone t cell c l := by
  have hc := s.copies_delivered cell c l hno
  refine Claims.acts_of_runLine h ?_ hc.regs ⟨hc.mem, Claims.lineGone_of_copies hc⟩
  rw [State.runLine_core_served hn (by omega) (by omega), if_pos hr]

/-- A line's turn at a core store that refuses it. -/
theorem Claims.acts_refused (h : Claims.lineOf s cell c l) {store offset position : Nat} (hn : l.nextEnd = .core store offset position)
    (hr : l.read = true) (hs : l.stage = 3) (hp : position < 80) (hno : s.refusesLine store offset = true) :
    Claims.acts s cell l fun t => Claims.lineFailed s t cell c l 278 offset := by
  refine Claims.acts_lineFails h ?_
  rw [State.runLine_core_served hn (by omega) (by omega), if_pos hr, State.lineDelivered, if_pos (by simp [hp, hno])]

section Global

variable {va : Nat}

theorem State.runLine_translates (hn : l.nextEnd = .global va) (hs : l.stage = 0) {known : Option (Except Nat Nat)}
    (hk : s.translateNow (plateOf cell) (s.core cell).ctx va l.read false = known) :
    s.runLine cell c l = s.lineKnown cell c l va known := by
  rw [State.runLine_global hn, if_pos (by simp [hs]), hk]

theorem State.runLine_reaches (hn : l.nextEnd = .global va) (hs : l.stage = 4) : s.runLine cell c l = s.lineReaches cell l := by
  rw [State.runLine_global hn, if_neg (by simp [hs]), if_pos (by simp [hs])]

theorem State.runLine_atPoint (hn : l.nextEnd = .global va) (hs : l.stage = 1) : s.runLine cell c l = s.lineAtPoint cell c l va := by
  rw [State.runLine_global hn, if_neg (by simp [hs]), if_neg (by simp [hs])]

/-- A line whose translation needs a walk waits for it. -/
theorem Claims.acts_walks (h : Claims.lineOf s cell c l) (hn : l.nextEnd = .global va) (hs : l.stage = 0)
    (hk : s.translateNow (plateOf cell) (s.core cell).ctx va l.read false = none) :
    Claims.acts s cell l fun t => t.mem = s.mem ∧ ∃ w, t.walks.get? s.nextId = some w ∧ w.plate = plateOf cell ∧
      w.ctx = (s.core cell).ctx ∧ w.va = va ∧ w.write = l.read ∧ w.user = .line cell l.id := by
  have hwalk := (State.Beside.refl s).startWalk (plate := plateOf cell) (ctx := (s.core cell).ctx) (va := va) (write := l.read)
    (fetch := false) (user := .line cell l.id)
  have hc := (State.Copies.refl s cell).beside hwalk
  have hrun : s.runLine cell c l = s.startWalk (plateOf cell) (s.core cell).ctx va l.read false (.line cell l.id) :=
    State.runLine_translates hn hs hk
  refine Claims.acts_of_runLine h hrun hc.regs ⟨hc.mem, ?_⟩
  obtain ⟨go, es, n, heq⟩ := s.startWalk_cases (plateOf cell) (s.core cell).ctx va l.read false (.line cell l.id)
  rw [heq]
  exact ⟨_, Table.get?_set_self _ _ _, rfl, rfl, rfl, rfl, rfl⟩

/-- A line that need not travel is at its point at once, and waits for its burst. -/
theorem Claims.acts_translated_here (h : Claims.lineOf s cell c l) (hn : l.nextEnd = .global va) (hs : l.stage = 0) {pa : Nat}
    (hk : s.translateNow (plateOf cell) (s.core cell).ctx va l.read false = some (.ok pa)) (hd : l.discard = false)
    (hhbm : inHbm pa = true) (hplate : stackPlate pa = plateOf cell) (hp : stackPlate pa < 4) :
    Claims.acts s cell l fun t => t.mem = s.mem ∧ Claims.lineIs t cell c { l with stage := 1, physical := pa } ∧
      (pa, cell, l.id) ∈ (t.plate (stackPlate pa)).bursts := by
  have hc := s.copies_lineReaches cell { l with physical := pa }
  have hhere : ¬travels cell pa l.discard = true := by simp [travels_iff, hd, hhbm, hplate]
  refine Claims.acts_of_runLine h ?_ hc.regs
    ⟨hc.mem, Claims.lineIs_of_copies h rfl hc, s.mem_bursts_lineReaches cell (l := { l with physical := pa }) hhbm hd hp⟩
  rw [State.runLine_translates hn hs hk]
  exact (State.lineTranslated_eq h pa).trans (if_neg hhere)

/-- A line that has come to its point. -/
theorem Claims.acts_reaches (h : Claims.lineOf s cell c l) (hn : l.nextEnd = .global va) (hs : l.stage = 4) :
    Claims.acts s cell l fun t => t.mem = s.mem ∧ Claims.lineIs t cell c { l with stage := 1 } ∧
      (inHbm l.physical = true → l.discard = false → stackPlate l.physical < 4 →
        (l.physical, cell, l.id) ∈ (t.plate (stackPlate l.physical)).bursts) ∧
      (inStoreStep l.physical = true → .copy cell l.id ∈ (t.sidePort (storeCell l.physical) (l.physical / 64 % 32)).lines) := by
  have hc := s.copies_lineReaches cell l
  exact Claims.acts_of_runLine h (State.runLine_reaches hn hs) hc.regs ⟨hc.mem, Claims.lineIs_of_copies h rfl hc,
    s.mem_bursts_lineReaches cell, s.mem_sidePort_lineReaches cell⟩

/-- A line held at its slice waits there. -/
theorem Claims.acts_held (h : Claims.lineOf s cell c l) (hn : l.nextEnd = .global va) (hs : l.stage = 1) (hheld : s.lineHeld cell c l = true) :
    Claims.acts s cell l fun t => t.mem = s.mem ∧ (t.core cell).cpy = (s.core cell).cpy ∧
      .line cell l.id ∈ (t.slice (sliceOf (l.physical / 64 * 64))).waiting := by
  have hc := (State.Copies.refl s cell).beside
    ((State.Beside.refl s).sliceWaits (k := sliceOf (lineOf l.physical)) (user := .line cell l.id))
  refine Claims.acts_of_runLine h ?_ hc.regs ⟨hc.mem, hc.cpy, s.mem_sliceWaits _ _⟩
  rw [State.runLine_atPoint hn hs, State.lineAtPoint_held hheld]

/-- A source whose line holds an uncorrectable error at its point. -/
theorem Claims.acts_poisoned (h : Claims.lineOf s cell c l) (hn : l.nextEnd = .global va) (hs : l.stage = 1) (hheld : s.lineHeld cell c l = false)
    (hr : l.read = false) (hpoison : s.linePoisoned (l.physical / 64 * 64) = true) :
    Claims.acts s cell l fun t => Claims.lineFailed s t cell c l 380 va := by
  have hperforms : s.linePerforms cell c l va = s.lineFails cell c l 380 va := (if_pos (by simp [hr])).trans (if_pos hpoison)
  have hc := ((State.Copies.refl s cell).lineFails c l 380 va).beside (hperforms ▸ State.beside_lineAtPoint hheld va)
  exact Claims.acts_of_runLine h (State.runLine_atPoint hn hs) hc.regs (Claims.lineFailed_of_copies h hc)

/-- A source read at its point. -/
theorem Claims.acts_pointRead (h : Claims.lineOf s cell c l) (hd : l.dsts ≠ []) (hn : l.nextEnd = .global va) (hs : l.stage = 1)
    (hheld : s.lineHeld cell c l = false) (hr : l.read = false) (hpoison : s.linePoisoned (l.physical / 64 * 64) = false) :
    Claims.acts s cell l fun t => Claims.lineHas s t cell c l (BitVec.ofNat 512 (s.mem.num (l.physical / 64 * 64) 64)) := by
  have hperforms : s.linePerforms cell c l va = s.lineRead cell c l (BitVec.ofNat 512 (s.mem.num (l.physical / 64 * 64) 64)) :=
    (if_pos (by simp [hr])).trans (if_neg (Bool.eq_false_iff.mp hpoison))
  obtain ⟨e, n, hread, he⟩ := State.copies_lineRead h hd (BitVec.ofNat 512 (s.mem.num (l.physical / 64 * 64) 64))
  have hc := hread.beside (hperforms ▸ State.beside_lineAtPoint hheld va)
  exact Claims.acts_of_runLine h (State.runLine_atPoint hn hs) hc.regs (Claims.lineHas_of_copies hc he)

/-- A destination written at its point. -/
theorem Claims.acts_pointWritten (h : Claims.lineOf s cell c l) (hn : l.nextEnd = .global va) (hs : l.stage = 1)
    (hheld : s.lineHeld cell c l = false) (hr : l.read = true) :
    Claims.acts s cell l fun t => Claims.lineGone t cell c l ∧
      t.mem = s.mem.putNum (l.physical / 64 * 64) 64 (if l.discard then 0 else l.data.toNat) := by
  obtain ⟨e, hperforms⟩ := s.copies_linePerforms cell c hr va
  have hc := hperforms.beside (State.beside_lineAtPoint hheld va)
  exact Claims.acts_of_runLine h (State.runLine_atPoint hn hs) hc.regs ⟨Claims.lineGone_of_copies hc, hc.mem⟩

end Global

theorem copyLines_hold : Claims.copyLines := by
  intro cell c l s h hd pa line
  refine ⟨fun hr hsrc => ?_, fun store offset position hr hsrc => ?_, fun store offset position rest hr hdst => ?_, fun va hend => ?_⟩
  · refine Claims.acts_lineRead h hd ?_
    rw [State.runLine_zeros ((CopyLine.nextEnd_source hr).trans hsrc), if_neg (by simp [hr])]
  · have hn := (CopyLine.nextEnd_source hr).trans hsrc
    refine ⟨fun hs => ?_, fun hs hpoison => ?_, fun hs hpoison => ?_⟩
    · have hqueue := Claims.acts_queueLine h hn (.inl hs)
      rwa [if_neg (by simp [hr])] at hqueue
    · refine Claims.acts_lineFails h ?_
      rw [State.runLine_core_served hn (by omega) (by omega), if_neg (by simp [hr]), if_pos hpoison]
    · refine Claims.acts_lineRead h hd ?_
      rw [State.runLine_core_served hn (by omega) (by omega), if_neg (by simp [hr]), if_neg (Bool.eq_false_iff.mp hpoison)]
  · have hn := CopyLine.nextEnd_destination hr hdst
    refine ⟨fun hs => ?_, fun hs hp hno => Claims.acts_refused h hn hr hs hp hno, fun hs hno => ?_⟩
    · have hqueue := Claims.acts_queueLine h hn hs
      rwa [if_pos hr] at hqueue
    · exact Claims.acts_delivered h hn hr hs fun hp => hno.resolve_left (Nat.not_le.mpr hp)
  · have hn := CopyLine.nextEnd_global hend
    refine ⟨fun hs cause hk => Claims.acts_lineFails h (State.runLine_translates hn hs hk), fun hs hk => Claims.acts_walks h hn hs hk,
      fun hs a hk => ⟨fun htravels => ?_, fun hdisc hhbm hplate hp => Claims.acts_translated_here h hn hs hk hdisc hhbm hplate hp⟩,
      fun hs => Claims.acts_reaches h hn hs, fun hs => ?_⟩
    · exact Claims.acts_travels h (State.runLine_translates hn hs hk) ((travels_iff _ _ _).mpr htravels)
    · exact ⟨Claims.acts_held h hn hs, Claims.acts_poisoned h hn hs, Claims.acts_pointRead h hd hn hs, Claims.acts_pointWritten h hn hs⟩

end Sys2Proof.Machine

/-! SUPPORT. The issue of copies: the copy that takes its place, its lines, its prefetches and its accesses (08_copy R220 to R225, R233, R234,
R237 to R241). -/

namespace Sys2Proof.Machine

open Sys2Proof

/-! ## Checks at issue (R229) -/

theorem firstOf_eq_none {fs : List (Option SlotFault)} (h : firstOf fs = none) : ∀ f ∈ fs, f = none := by
  induction fs with
  | nil => exact fun _ hf => absurd hf List.not_mem_nil
  | cons f fs ih =>
    cases f with
    | none => exact List.forall_mem_cons.mpr ⟨rfl, ih h⟩
    | some x => cases h

/-- A copy that passes its checks has lines. -/
theorem State.lines_ne_zero {s : State} {x : CopyShape} (h : s.shapeFault x = none) (hunit : 64 ≤ x.unit) : x.len / 64 ≠ 0 := by
  have hlen := firstOf_eq_none h (if x.len == 0 || x.len % x.unit != 0 then some (275, 0, word x.len) else none) (by simp)
  have hok : x.len ≠ 0 ∧ x.len % x.unit = 0 := by simpa using hlen
  have hle := Nat.le_of_dvd (Nat.pos_of_ne_zero hok.1) (Nat.dvd_of_mod_eq_zero hok.2)
  omega

/-! ## A copy takes its place and its lines (R220) -/

/-- The copy that an instruction of the executing core begins. -/
def State.begunCopy (s : State) (tag : Nat) (list : Option PageList) (ranges : List (Nat × Nat)) (coll proof : Bool) : TaggedCopy :=
  { id := s.nextId, tag, pc := s.curT.pc, issued := s.clk, lines := [], list, ranges, fallen := [], coll, proof }

theorem State.copies_newCopy (s : State) (tag : Nat) (list : Option PageList) (ranges : List (Nat × Nat)) (coll proof : Bool) :
    ∃ e, s.Copies (s.newCopy tag list ranges coll proof) s.curT.cell e ∧ s.begunCopy tag list ranges coll proof ∈ e.tagged :=
  ⟨_, (State.Copies.refl s s.curT.cell).numbered.updCpy fun e =>
    { e.countUp tag with tagged := e.tagged ++ [s.begunCopy tag list ranges coll proof] }, List.mem_append_right _ List.mem_cons_self⟩

/-- A copy stands in an engine with its lines, none of them begun. -/
def CopyEngine.Stands (e : CopyEngine) (id tag issued : Nat) (lines : List (LineEnd × List LineEnd)) : Prop :=
  ∃ x ∈ e.tagged, x.id = id ∧ x.tag = tag ∧ x.issued = issued ∧ x.lines.map (fun l => (l.src, l.dsts)) = lines ∧
    ∀ l ∈ x.lines, l.read = false ∧ l.stage = 0

/-- A line as a copy is given it. -/
def freshLine (id : Nat) (x : LineEnd × List LineEnd × Bool) : CopyLine :=
  { id, src := x.1, dsts := x.2.1, stage := 0, read := false, physical := 0, data := 0, bytes := 64, discard := x.2.2 }

/-- One more line of a copy, requested later. -/
def State.giveLine (s : State) (cell id : Nat) (x : LineEnd × List LineEnd × Bool) : State :=
  ({ s with nextId := s.nextId + 1 }.updCpy cell fun e => e.mapCopy id fun t =>
    { t with lines := t.lines ++ [freshLine s.nextId x] }).lineLater cell s.nextId

theorem State.giveLines_eq (s : State) (cell id : Nat) (ls : List (LineEnd × List LineEnd × Bool)) :
    s.giveLines cell id ls = (ls.foldl (fun s x => s.giveLine cell id x) s).updCpy cell fun e => e.settle id := rfl

theorem State.copies_giveLine {s t : State} {cell : Nat} {e : CopyEngine} (h : s.Copies t cell e) (id : Nat)
    (x : LineEnd × List LineEnd × Bool) : s.Copies (t.giveLine cell id x) cell
      (e.mapCopy id fun c => { c with lines := c.lines ++ [freshLine t.nextId x] }) :=
  (h.numbered.updCpy _).beside (State.Beside.refl _).lineLater

theorem CopyEngine.Stands.of_tagged {e e' : CopyEngine} {id tag issued : Nat} {lines : List (LineEnd × List LineEnd)}
    (h : e.Stands id tag issued lines) (he : e'.tagged = e.tagged) : e'.Stands id tag issued lines := by
  rwa [CopyEngine.Stands, he]

theorem CopyEngine.Stands.giveLine {e : CopyEngine} {id tag issued : Nat} {lines : List (LineEnd × List LineEnd)}
    (h : e.Stands id tag issued lines) (n : Nat) (x : LineEnd × List LineEnd × Bool) :
    (e.mapCopy id fun c => { c with lines := c.lines ++ [freshLine n x] }).Stands id tag issued (lines ++ [(x.1, x.2.1)]) := by
  obtain ⟨c, hc, rfl, htag, hissued, hlines, hfresh⟩ := h
  refine ⟨_, CopyEngine.mem_mapCopy hc _, rfl, htag, hissued, ?_, fun l hl => ?_⟩
  · rw [List.map_append, hlines]
    rfl
  · rcases List.mem_append.mp hl with hl | hl
    · exact hfresh l hl
    · rw [List.mem_singleton.mp hl]
      exact ⟨rfl, rfl⟩

/-- A copy given lines stands with them, and no copy of its number is without lines. -/
theorem State.copies_giveLine_all (s : State) {cell id tag issued : Nat} {lines : List (LineEnd × List LineEnd)}
    (h : (s.core cell).cpy.Stands id tag issued lines) (ls : List (LineEnd × List LineEnd × Bool)) :
    ∃ e, s.Copies (ls.foldl (fun s x => s.giveLine cell id x) s) cell e ∧
      e.Stands id tag issued (lines ++ ls.map fun x => (x.1, x.2.1)) ∧ (ls ≠ [] → ∀ c ∈ e.tagged, c.id = id → c.lines ≠ []) := by
  induction ls using List.reverseRecOn with
  | nil => exact ⟨_, .refl s cell, by simpa using h, fun hne => absurd rfl hne⟩
  | append_singleton ls x ih =>
    obtain ⟨e, hc, hstands, -⟩ := ih
    rw [List.foldl_append, List.map_append, ← List.append_assoc]
    refine ⟨_, State.copies_giveLine hc id x, hstands.giveLine _ x, fun _ c hmem hid => ?_⟩
    obtain ⟨c0, -, rfl⟩ := List.mem_map.mp hmem
    by_cases h0 : c0.id = id
    · simp [h0]
    · simp [h0] at hid

theorem CopyEngine.settle_of_lines {e : CopyEngine} {id : Nat} (h : ∀ c ∈ e.tagged, c.id = id → c.lines ≠ []) : e.settle id = e := by
  unfold CopyEngine.settle
  split
  · rename_i c hc
    have hlines := h c (List.mem_of_find?_eq_some hc) (by simpa using List.find?_some hc)
    rw [if_neg (by simp [hlines])]
  · rfl

theorem State.copies_taggedCopy (s : State) (f : FormE) (ranges : List (Nat × Nat)) (proof : Bool)
    {ls : List (LineEnd × List LineEnd × Bool)} (hls : ls ≠ []) :
    ∃ e, s.Copies (s.taggedCopy f ranges proof ls) s.curT.cell e ∧
      e.Stands s.nextId f.f4.toNat s.clk (ls.map fun x => (x.1, x.2.1)) := by
  obtain ⟨e, hnew, hmem⟩ := s.copies_newCopy f.f4.toNat none ranges false proof
  have hbegun : e.Stands s.nextId f.f4.toNat s.clk [] := ⟨_, hmem, rfl, rfl, rfl, rfl, fun _ hl => absurd hl List.not_mem_nil⟩
  obtain ⟨e', hgive, hstands, hlines⟩ := State.copies_giveLine_all _ (hnew.cpy.symm ▸ hbegun) ls
  have hc := (hnew.trans hgive).updCpy fun e => e.settle s.nextId
  rw [CopyEngine.settle_of_lines (hlines hls)] at hc
  exact ⟨e', hc, hstands⟩

/-! ## Prefetches (R237, R240) -/

/-- A prefetch of some lines stands among the prefetches; the copies stay. -/
theorem State.Copies.prefetch {s t : State} {cell : Nat} {e : CopyEngine} (h : s.Copies t cell e) (a lines : Nat) :
    ∃ e' : CopyEngine, s.Copies (t.prefetch cell a lines) cell e' ∧ e'.tagged = e.tagged ∧
      (lines ≠ 0 → { id := t.nextId, address := a, lines } ∈ e'.ahead) := by
  unfold State.prefetch
  split
  · rename_i hzero
    exact ⟨e, h, rfl, fun hne => absurd (beq_iff_eq.mp hzero) hne⟩
  · exact ⟨_, (h.numbered.updCpy _).beside (State.Beside.refl _).lineLater, rfl, fun _ => List.mem_append_right _ List.mem_cons_self⟩

/-! ## Tagged copies -/

section Tagged

variable {s t : State}

theorem Claims.tagged_of_copies {tag : Nat} {lines : List (LineEnd × List LineEnd)} {e : CopyEngine} (h : s.Copies t s.curT.cell e)
    (he : e.Stands s.nextId tag s.clk lines) : Claims.tagged s t tag lines := by
  refine ⟨h.mem, h.regs, ?_⟩
  rw [Claims.core, h.cpy]
  exact he

/-- A tagged copy of some lines, one for each number below `n`. -/
theorem Claims.tagged_taggedCopy (s : State) (f : FormE) (ranges : List (Nat × Nat)) (proof : Bool) {n : Nat} (hn : n ≠ 0)
    (line : Nat → LineEnd × List LineEnd × Bool) :
    Claims.tagged s (s.taggedCopy f ranges proof ((List.range n).map line)) f.f4.toNat
      ((List.range n).map fun u => ((line u).1, (line u).2.1)) := by
  obtain ⟨e, hc, he⟩ := s.copies_taggedCopy f ranges proof (ls := (List.range n).map line) (by simpa using hn)
  rw [List.map_map] at he
  exact Claims.tagged_of_copies hc he

end Tagged

theorem fld_low {w : Nat} (x : BitVec w) (len : Nat) : fld x 0 len = x.toNat % 2 ^ len := by
  rw [fld, Nat.pow_zero, Nat.div_one]

theorem taggedCopies_hold : Claims.taggedCopies := by
  intro g f s h a b n cell ts block
  refine ⟨fun hf => ?_, fun hf => ?_, fun hf => ?_, fun hf => ?_, fun hf => ?_, fun hf => ?_⟩
  · show ∃ t, execCph g f s = .next t ∧ _
    rw [execCph, hf, State.guarded_on h]
    have hn : n ≠ 0 := State.lines_ne_zero hf le_rfl
    obtain ⟨e, hc, he⟩ := s.copies_taggedCopy f [(a, (s.cur.s' f.f3.toNat).toNat)] false
      (ls := pairEnds n (fun u => .global (b + 64 * u)) (fun u => .core cell (a + 64 * u) notTarget) false) (by simpa [pairEnds] using hn)
    obtain ⟨e', hc', htagged, -⟩ := hc.prefetch (b + (s.cur.s' f.f3.toNat).toNat) (fld f.func 4 4 * 64)
    rw [pairEnds, List.map_map] at he
    exact ⟨_, rfl, Claims.tagged_of_copies hc' (he.of_tagged htagged)⟩
  · show ∃ t, execCpw g f s = .next t ∧ _
    rw [execCpw, hf, State.guarded_on h]
    exact ⟨_, rfl, Claims.tagged_taggedCopy s f _ _ (State.lines_ne_zero hf le_rfl) _⟩
  · show ∃ t, execCpm g f s = .next t ∧ _
    rw [execCpm, hf, State.guarded_on h]
    exact ⟨_, rfl, Claims.tagged_taggedCopy s f _ _ (State.lines_ne_zero hf le_rfl) _⟩
  · show ∃ t, execCpd g f s = .next t ∧ _
    rw [execCpd, hf, State.guarded_on h, fld_low]
    exact ⟨_, rfl, Claims.tagged_taggedCopy s f _ _ (State.lines_ne_zero hf (Nat.le_mul_of_pos_right _ (Nat.two_pow_pos _))) _⟩
  · show ∃ t, execCdisc g f s = .next t ∧ _
    rw [execCdisc, hf, State.guarded_on h]
    exact ⟨_, rfl, Claims.tagged_taggedCopy s f _ _ (State.lines_ne_zero hf le_rfl) _⟩
  · show ∃ t, execCpf g f s = .next t ∧ _
    rw [execCpf, hf, State.guarded_on h]
    obtain ⟨e, hc, -, hahead⟩ := (State.Copies.refl s cell).prefetch a (b / 64)
    exact ⟨_, rfl, hc.mem, _, hc.cpy.symm ▸ hahead (State.lines_ne_zero hf le_rfl), rfl, rfl, rfl⟩

end Sys2Proof.Machine

/-! SUPPORT. Accesses that copies put in flight: page lists and timed copies (08_copy R222 to R225, R233, R234, R238). -/

namespace Sys2Proof.Machine

open Sys2Proof

/-! ## Accesses in flight -/

/-- From `s` to `t` the time, the cores and the memory stay, and no access has gone. -/
structure State.Accessing (s t : State) : Prop where
  clk      : t.clk = s.clk
  cores    : t.cores = s.cores
  mem      : t.mem = s.mem
  accesses : s.accesses ⊆ t.accesses

namespace State.Accessing

variable {s t u : State}

theorem refl (s : State) : s.Accessing s := ⟨rfl, rfl, rfl, List.Subset.refl _⟩

theorem trans (h : s.Accessing t) (hu : t.Accessing u) : s.Accessing u :=
  ⟨hu.clk.trans h.clk, hu.cores.trans h.cores, hu.mem.trans h.mem, List.Subset.trans h.accesses hu.accesses⟩

theorem access (s : State) (offset space : Nat) (ls : List AccessLine) (k : AccessKind) : s.Accessing (s.access offset space ls k) :=
  ⟨State.access_clk .., State.access_cores .., State.access_mem .., by
    rw [State.access_accesses]
    exact List.subset_append_left _ _⟩

theorem core (h : s.Accessing t) (cell : Nat) : t.core cell = s.core cell := by rw [State.core, State.core, h.cores]

/-- Accesses put in flight for each of a list: each step is one of them, between the first state and the last. -/
theorem foldl {α : Type} {f : State → α → State} (hf : ∀ (w : State) (a : α), w.Accessing (f w a)) (s : State) (l : List α) :
    s.Accessing (l.foldl f s) ∧ ∀ a ∈ l, ∃ w, s.Accessing w ∧ (f w a).Accessing (l.foldl f s) := by
  induction l generalizing s with
  | nil => exact ⟨.refl s, fun _ ha => absurd ha List.not_mem_nil⟩
  | cons x l ih =>
    obtain ⟨hall, hmem⟩ := ih (f s x)
    refine ⟨(hf s x).trans hall, List.forall_mem_cons.mpr ⟨⟨s, .refl s, hall⟩, fun a ha => ?_⟩⟩
    obtain ⟨w, hw, hlast⟩ := hmem a ha
    exact ⟨w, (hf s x).trans hw, hlast⟩

end State.Accessing

/-- An access of one line is in flight. -/
def State.InFlight (t : State) (due space : Nat) (kind : AccessKind) (l : AccessLine) : Prop :=
  ∃ x ∈ t.accesses, x.due = due ∧ x.kind = kind ∧ x.space = space ∧ x.lines = [l]

theorem State.inFlight_access (s : State) (offset space : Nat) (l : AccessLine) (k : AccessKind) :
    (s.access offset space [l] k).InFlight (s.clk + offset) space k l := by
  rw [State.InFlight, State.access_accesses]
  exact ⟨_, List.mem_append_right _ List.mem_cons_self, rfl, rfl, rfl, rfl⟩

theorem State.Accessing.inFlight {s t : State} (h : s.Accessing t) {due space : Nat} {kind : AccessKind} {l : AccessLine}
    (hs : s.InFlight due space kind l) : t.InFlight due space kind l := by
  obtain ⟨x, hx, hline⟩ := hs
  exact ⟨x, h.accesses hx, hline⟩

/-- Line `u` of consecutive lines from an address on. -/
def lineFrom (a u : Nat) : AccessLine := { address := a + 64 * u, len := 64, lane := u }

theorem State.clk_newCopy (s : State) (tag : Nat) (list : Option PageList) (ranges : List (Nat × Nat)) (coll proof : Bool) :
    (s.newCopy tag list ranges coll proof).clk = s.clk := by rw [State.newCopy, State.updCpy_clk]

/-! ## Page lists (R233, R234, R238) -/

/-- The page list of a gather or a scatter, none of it read. -/
def pageListOf (f : FormE) (gather : Bool) (core address entries : Nat) : PageList :=
  { address, entries, g := fld f.func 0 4, core, gather, zf := fbit f.func 4, left := cdiv (address % 64 + 8 * entries) 64, data := [] }

/-- A gather or a scatter waits for its page list, whose lines it reads one a tick. -/
theorem State.pages_pageCopy (s : State) (f : FormE) (gather : Bool) {core address entries : Nat}
    (hcore : (s.cur.s' (if gather then f.f1 else f.f2).toNat).toNat = core)
    (haddress : (s.cur.s' (if gather then f.f2 else f.f1).toNat).toNat = address) (hentries : (s.cur.s' f.f3.toNat).toNat = entries)
    {p : PageList → Prop} (hp : p (pageListOf f gather core address entries)) :
    Claims.pages s (s.pageCopy f gather) f.f4.toNat address entries p := by
  subst hcore haddress hentries
  let list := pageListOf f gather (s.cur.s' (if gather then f.f1 else f.f2).toNat).toNat
    (s.cur.s' (if gather then f.f2 else f.f1).toNat).toNat (s.cur.s' f.f3.toNat).toNat
  let ranges := [(list.core, list.entries * 2 ^ list.g * 64), (list.address, 8 * list.entries)]
  obtain ⟨e, hnew, hmem⟩ := s.copies_newCopy f.f4.toNat (some list) ranges false !gather
  obtain ⟨hall, hline⟩ := State.Accessing.foldl (fun w v => .access w (2 + v) 0 [lineFrom (lineOf list.address) v] (.pageList s.nextId))
    (s.newCopy f.f4.toNat (some list) ranges false !gather) (List.range list.left)
  have hcpy := hall.core s.curT.cell
  refine ⟨hall.mem.trans hnew.mem, ?_, ⟨s.begunCopy f.f4.toNat (some list) ranges false !gather, ?_, rfl, rfl, rfl, list, rfl, rfl, rfl, hp⟩,
    fun v hv => ?_⟩
  · exact (congrArg Core.regs hcpy).trans hnew.regs
  · rw [← hnew.cpy] at hmem
    exact (congrArg Core.cpy hcpy).symm ▸ hmem
  · obtain ⟨w, hw, hlast⟩ := hline v (List.mem_range.mpr hv)
    obtain ⟨x, hx, hdue, hkind, -, hlines⟩ := hlast.inFlight
      (w.inFlight_access (2 + v) 0 (lineFrom (lineOf list.address) v) (.pageList s.nextId))
    exact ⟨x, hx, by rw [hdue, hw.clk, State.clk_newCopy], hkind, hlines⟩

theorem pageCopies_hold : Claims.pageCopies := by
  intro g f s h a b n
  refine ⟨fun hf => ?_, fun hf => ?_⟩
  · show ∃ t, execCpg g f s = .next t ∧ _
    rw [execCpg, hf, State.guarded_on h]
    exact ⟨_, rfl, s.pages_pageCopy f true rfl rfl rfl ⟨rfl, rfl, fld_low _ _, rfl⟩⟩
  · show ∃ t, execCps g f s = .next t ∧ _
    rw [execCps, hf, State.guarded_on h]
    exact ⟨_, rfl, s.pages_pageCopy f false rfl rfl rfl ⟨rfl, rfl, fld_low _ _⟩⟩

/-- Settles O27: a copy takes its place and is given its lines one after another; a page list is read by accesses in flight; of a line each
place has its action. -/
theorem taggedCopiesComplete : Obligations.TaggedCopiesComplete := ⟨taggedCopies_hold, pageCopies_hold, copyLines_hold⟩

/-! ## Timed copies (R222 to R225) -/

theorem copyReadOffset_eq (cell space a u : Nat) :
    copyReadOffset cell space a u = (if space = 0 then 2 else 10 + 2 * hops (clusterOf cell) (spaceCluster cell space a)) + u := by
  simp only [copyReadOffset, beq_iff_eq]
  split <;> rfl

theorem copyWriteOffset_eq (cell src a dst b u : Nat) :
    copyWriteOffset cell src a dst b u = (if src = 0 then (if dst = 0 then 5 else 15 + 2 * hops (clusterOf cell) (spaceCluster cell dst b))
      else if dst = 0 then 20 + 4 * hops (clusterOf cell) (spaceCluster cell src a)
      else 30 + 4 * hops (clusterOf cell) (spaceCluster cell src a) + 2 * hops (clusterOf cell) (spaceCluster cell dst b)) + u := by
  simp only [copyWriteOffset, beq_iff_eq]

/-- The read and the write of one line of a timed copy. -/
def State.copyPair (s : State) (cell id src dst a b u : Nat) : State :=
  (s.access (copyReadOffset cell src (b + 64 * u) u) src [lineFrom b u] (.copyRead id u)).access
    (copyWriteOffset cell src (b + 64 * u) dst (a + 64 * u) u) dst [lineFrom a u] (.copyWrite id u)

theorem State.accessing_copyPair (s : State) (cell id src dst a b u : Nat) : s.Accessing (s.copyPair cell id src dst a b u) :=
  (State.Accessing.access _ _ _ _ _).trans (.access _ _ _ _ _)

theorem State.inFlight_copyPair (s : State) (cell id src dst a b u : Nat) :
    (s.copyPair cell id src dst a b u).InFlight (s.clk + copyReadOffset cell src (b + 64 * u) u) src (.copyRead id u) (lineFrom b u) ∧
    (s.copyPair cell id src dst a b u).InFlight (s.clk + copyWriteOffset cell src (b + 64 * u) dst (a + 64 * u) u) dst (.copyWrite id u)
      (lineFrom a u) := by
  have hwrite := State.inFlight_access (s.access (copyReadOffset cell src (b + 64 * u) u) src [lineFrom b u] (.copyRead id u))
    (copyWriteOffset cell src (b + 64 * u) dst (a + 64 * u) u) dst (lineFrom a u) (.copyWrite id u)
  rw [State.access_clk] at hwrite
  exact ⟨State.Accessing.inFlight (.access _ _ _ _ _) (s.inFlight_access _ _ _ _), hwrite⟩

/-- A timed copy stands in its channel until after its last write, and every line has its read and its write in flight. -/
theorem State.timedCopy_spec (s : State) (f : FormE) (dst src : Nat) :
    let n := (s.cur.s' f.f3.toNat).toNat
    let a := (s.cur.s' f.f1.toNat).toNat
    let b := (s.cur.s' f.f2.toNat).toNat
    let read (u : Nat) : Nat := copyReadOffset s.curT.cell src (b + 64 * u) u
    let write (u : Nat) : Nat := copyWriteOffset s.curT.cell src (b + 64 * u) dst (a + 64 * u) u
    let t := s.timedCopy f dst src
    t.mem = s.mem ∧ (Claims.core s t).regs = s.cur.regs ∧
      (∃ x ∈ (Claims.core s t).cpy.timed, x.id = s.nextId ∧ x.issued = s.clk ∧ ∀ u < n, s.clk + write u < x.frees) ∧
      ∀ u < n, t.InFlight (s.clk + read u) src (.copyRead s.nextId u) (lineFrom b u) ∧
        t.InFlight (s.clk + write u) dst (.copyWrite s.nextId u) (lineFrom a u) := by
  intro n a b read write t
  let copy : TimedCopy :=
    { id := s.nextId, pc := s.curT.pc, issued := s.clk, frees := s.clk + ((List.range n).map write).foldl max 0 + 1, data := [],
      ranges := (if dst == 0 then [(a, 64 * n)] else []) ++ (if src == 0 then [(b, 64 * n)] else []), dead := false }
  let s1 := { s with nextId := s.nextId + 1 }.updCpy s.curT.cell fun e =>
    { e with timed := e.timed.filter (fun (x : TimedCopy) => decide (s.clk < x.frees)) ++ [copy] }
  have hs1 : s.Copies s1 s.curT.cell _ := (State.Copies.refl s s.curT.cell).numbered.updCpy _
  obtain ⟨hall, hline⟩ := State.Accessing.foldl (fun w u => w.accessing_copyPair s.curT.cell s.nextId src dst a b u) s1 (List.range n)
  have hcpy := hall.core s.curT.cell
  refine ⟨hall.mem.trans hs1.mem, (congrArg Core.regs hcpy).trans hs1.regs, ⟨copy, ?_, rfl, rfl, fun u hu => ?_⟩, fun u hu => ?_⟩
  · show copy ∈ (t.core s.curT.cell).cpy.timed
    rw [show t.core s.curT.cell = _ from hcpy, hs1.cpy]
    exact List.mem_append_right _ List.mem_cons_self
  · have hle := (foldl_max_spec ((List.range n).map write) 0).2.1 (write u) (List.mem_map_of_mem (List.mem_range.mpr hu))
    exact Nat.lt_succ_of_le (Nat.add_le_add_left hle _)
  · obtain ⟨w, hw, hlast⟩ := hline u (List.mem_range.mpr hu)
    have hclk : w.clk = s.clk := hw.clk.trans (State.updCpy_clk _ _ _)
    obtain ⟨hread, hwrite⟩ := w.inFlight_copyPair s.curT.cell s.nextId src dst a b u
    rw [hclk] at hread hwrite
    exact ⟨hlast.inFlight hread, hlast.inFlight hwrite⟩

/-- A form of a timed copy that issues with no fault completes. -/
theorem Claims.copies_of_exec {i : Gate → FormE → Instr} {src : FormE → Nat}
    (hi : ∀ g f s, exec (i g f) s = s.guarded g (s.copyFault (i g f)) fun s => s.timedCopy f (f.func.toNat % 4) (src f)) :
    Claims.copies i src := by
  intro g f s h hf dst n a b hs hd read write
  refine ⟨_, by rw [hi, hf, State.guarded_on h], ?_⟩
  have hspec := s.timedCopy_spec f dst (src f)
  simp only [copyReadOffset_eq, copyWriteOffset_eq] at hspec
  exact hspec

/-- Settles O26: the pairs of accesses of a timed copy, by its lines. -/
theorem timedCopiesComplete : Obligations.TimedCopiesComplete := by
  refine ⟨Claims.copies_of_exec fun g f s => ?_, Claims.copies_of_exec fun g f s => ?_⟩
  · show execCpt g f s = _
    rw [execCpt, fld_low]
    rfl
  · show execCptx g f s = _
    rw [execCptx, fld_low]
    rfl

end Sys2Proof.Machine

/-! SUPPORT. Tag waits, CTAGS and CCANCEL (08_copy R242 to R245). -/

namespace Sys2Proof.Machine

open Sys2Proof

/-! ## Tags changed one after another -/

/-- The first `k` tags changed one after another, each where a condition on it holds. -/
theorem getElem?_foldl_tags (p : Nat → Tag → Bool) (f : Tag → Tag) (ts : Vector Tag 64) (k n : Nat) :
    ((List.range k).foldl (fun (ts : Vector Tag 64) t =>
        if p t (ts[t]?.getD Tag.reset) then ts.setIfInBounds t (f (ts[t]?.getD Tag.reset)) else ts) ts)[n]? =
      (ts[n]?).map fun g => if n < k ∧ p n g = true then f g else g := by
  induction k with
  | zero => simp
  | succ k ih =>
    rw [List.range_succ, List.foldl_append, List.foldl_cons, List.foldl_nil]
    generalize (List.range k).foldl _ ts = us at ih
    by_cases hk : n = k
    · subst hk
      have hsame : us[n]? = ts[n]? := by simpa using ih
      by_cases hn : n < 64
      · rw [Vector.getElem?_eq_getElem hn (xs := ts)] at hsame ⊢
        rw [hsame, Option.getD_some, Option.map_some]
        split <;> simp_all
      · have hnone (vs : Vector Tag 64) : vs[n]? = none := Vector.getElem?_eq_none (Nat.not_lt.mp hn)
        rw [hnone, hnone, Option.map_none]
    · have hlt : n < k + 1 ↔ n < k := by omega
      have hstep : ∀ g, (us.setIfInBounds k g)[n]? = us[n]? := fun g => by
        rw [Vector.getElem?_setIfInBounds, if_neg (Ne.symm hk)]
      simp only [hlt, ← ih]
      split
      · exact hstep _
      · rfl

/-! ## Observation (R220, R242) -/

theorem CopyEngine.getElem?_observe (e : CopyEngine) (set : Word) {n : Nat} (hn : n < 64) :
    (e.observe set).tags[n]? = (e.tags[n]?).map fun g => if set.getLsbD n then { g with armed := false, slots := 0 } else g := by
  have h := getElem?_foldl_tags (fun t _ => set.getLsbD t) (fun g => { g with armed := false, slots := 0 }) e.tags 64 n
  simp only [hn, true_and] at h
  exact h

/-- A tag wait's observation and its result, one tick later. -/
theorem Claims.observed_fly (s : State) (set : Word) (d : BitVec 6) (result : Word) :
    Claims.observed s ((s.updCpy s.curT.cell fun e => e.observe set).fly 1 [.s d.toNat result]) set d result := by
  have hfly := State.fly_core (s.updCpy s.curT.cell fun e => e.observe set) 1 [.s d.toNat result]
  rw [State.cur, State.updCpy_curT, State.core_updCpy_self] at hfly
  refine ⟨(State.flight_mem ..).trans (State.updCpy_mem _ _ _), ?_⟩
  rw [Claims.core, hfly]
  refine ⟨rfl, fun n hn hset => ?_, fun n hn hset => ?_, _, List.mem_append_right _ List.mem_cons_self, ?_, rfl⟩
  · have htag := s.cur.cpy.getElem?_observe set hn
    rw [Vector.getElem?_eq_getElem hn (xs := s.cur.cpy.tags)] at htag
    rw [State.cur_eq, htag]
    simp [hset]
  · rw [State.cur_eq, CopyEngine.getElem?_observe _ _ hn]
    simp [hset]
  · rw [State.updCpy_clk]

theorem Claims.observed_of_tagWait {s : State} {g : Gate} {f : FormE} {i : Instr} {result : CopyEngine → Word → Word → Word}
    (h : s.issues g = true) (hf : s.tagFault i (s.cur.s' f.f2.toNat) = none) :
    ∃ t, s.tagWait g f i result = .next t ∧ Claims.observed s t (s.observedSet i (s.cur.s' f.f2.toNat)) f.f1
      (result s.cur.cpy (s.cur.s' f.f2.toNat) (s.observedSet i (s.cur.s' f.f2.toNat))) := by
  rw [State.tagWait, hf, State.guarded_on h]
  exact ⟨_, rfl, Claims.observed_fly _ _ _ _⟩

/-! ## Cancelling (R245) -/

/-- Counts taken back from some tags leave the copies, and the marks of the tags. -/
theorem CopyEngine.foldl_countDown_spec (e : CopyEngine) (cs : List TaggedCopy) :
    (cs.foldl (fun e c => e.countDown c.tag) e).tagged = e.tagged ∧ ∀ n : Nat,
      ((cs.foldl (fun e c => e.countDown c.tag) e).tags[n]?.getD Tag.reset).cxl = (e.tags[n]?.getD Tag.reset).cxl := by
  induction cs generalizing e with
  | nil => exact ⟨rfl, fun _ => rfl⟩
  | cons c cs ih =>
    obtain ⟨htagged, hcxl⟩ := ih (e.countDown c.tag)
    exact ⟨htagged, fun n => (hcxl n).trans (CopyEngine.countDown_keeps Tag.cxl (fun _ _ _ _ => rfl) e c.tag n)⟩

/-- A line that a cut leaves is in flight at a slice or a side port. -/
theorem TaggedCopy.mem_cut {c : TaggedCopy} {l : CopyLine} (h : l ∈ c.cut.lines) : l.stage ≠ 0 ∧ l.stage ≠ 4 ∧ l.discard = false := by
  have hstops := (List.mem_filter.mp h).2
  simp only [CopyLine.stops, Bool.not_eq_true', Bool.or_eq_false_iff, beq_eq_false_iff_ne] at hstops
  obtain ⟨⟨h0, h4⟩, hd⟩ := hstops
  exact ⟨h0, h4, hd⟩

/-- What a cancel leaves of the copies of its tags, collectives apart. -/
theorem CopyEngine.mem_cancel {e : CopyEngine} {mask : Word} {x : TaggedCopy} (hx : x ∈ (e.cancel mask).tagged)
    (hmask : mask.getLsbD x.tag = true) :
    x.coll = true ∨ (x.lines ≠ [] ∧ ∀ l ∈ x.lines, l.stage ≠ 0 ∧ l.stage ≠ 4 ∧ l.discard = false) := by
  cases hcoll : x.coll with
  | true => exact .inl rfl
  | false =>
    rw [CopyEngine.cancel, (CopyEngine.foldl_countDown_spec _ _).1] at hx
    obtain ⟨hkept, hgone⟩ := List.mem_filter.mp hx
    obtain ⟨c, -, hc⟩ := List.mem_map.mp hkept
    by_cases hdrops : (mask.getLsbD c.tag && !c.coll) = true
    · rw [if_pos hdrops] at hc
      subst hc
      exact .inr ⟨by simpa [hmask, hcoll] using hgone, fun _ => TaggedCopy.mem_cut⟩
    · rw [if_neg hdrops] at hc
      subst hc
      simp [hmask, hcoll] at hdrops

/-- A cancel marks the tags of its mask that have copies in flight. -/
theorem CopyEngine.cxl_cancel (e : CopyEngine) {mask : Word} {n : Nat} (hn : n < 64) (hmask : mask.getLsbD n = true)
    (hcount : (e.tags[n]?.getD Tag.reset).count ≠ 0) : ((e.cancel mask).tags[n]?.getD Tag.reset).cxl = true := by
  have hmarked := getElem?_foldl_tags (fun t g => mask.getLsbD t && g.count != 0) (fun g => { g with cxl := true }) e.tags 64 n
  beta_reduce at hmarked
  rw [CopyEngine.cancel, (CopyEngine.foldl_countDown_spec _ _).2]
  dsimp only
  rw [hmarked]
  rw [Vector.getElem?_eq_getElem hn] at hcount ⊢
  simp_all

/-- Settles O28: a wait's observation changes the tags of its set and puts its result in flight; a cancel cuts its copies and marks its tags. -/
theorem tagWaitsComplete : Obligations.TagWaitsComplete := by
  refine ⟨fun g f s h => ⟨fun hf => ?_, fun hf => ?_, fun hf => ?_⟩, fun g f s h => ?_, fun g f s h => ?_⟩
  · exact Claims.observed_of_tagWait (result := fun _ _ set => set) h hf
  · exact Claims.observed_of_tagWait (result := fun e mask _ => packTags e.tags (·.err) &&& mask) h hf
  · exact Claims.observed_of_tagWait (result := fun _ _ set => word ((lowestBit set).getD 64)) h hf
  · show execCtags g f s = _
    rw [execCtags, State.guarded_on h, fld_low]
    rfl
  · show ∃ t, execCcancel g f s = .next t ∧ _
    have hc := (State.Copies.refl s s.curT.cell).updCpy fun e => e.cancel (s.cur.s' f.f2.toNat)
    rw [execCcancel, State.guarded_on h]
    refine ⟨_, rfl, hc.mem, hc.regs, ?_⟩
    rw [Claims.core, hc.cpy]
    exact ⟨fun x hx => CopyEngine.mem_cancel hx, fun n hn => s.cur.cpy.cxl_cancel hn⟩

end Sys2Proof.Machine

/-! SUPPORT. The sync slot: ticks, windows, counts, and the requests it sends to other agents (09_windows R273 to R284; 13_proof R396, R397,
R415; 14_fabric R444, R449). -/

namespace Sys2Proof.Machine

open Sys2Proof

/-! ## Instructions without a fault -/

/-- An instruction that issues and meets no fault of its list goes on. -/
theorem State.guarded_clear {s : State} {g : Gate} {f : Option SlotFault} (h : s.issues g = true) (hf : f = none) (k : State → State) :
    s.guarded g f k = .next (k s) := by
  rw [hf, State.guarded_on h]

/-- No refusal is found where no class of the list has one. -/
theorem ClockEngine.firstRefusal_eq_none {k : ClockEngine} {cs : List Nat} (h : ∀ c ∈ cs, k.refusal c = none) : k.firstRefusal cs = none := by
  induction cs with
  | nil => rfl
  | cons c cs ih =>
    obtain ⟨hc, hcs⟩ := List.forall_mem_cons.mp h
    rw [ClockEngine.firstRefusal, hc]
    exact ih hcs

section Faults

variable {s : State} {g : Gate} {f : FormE}

theorem State.syncFault_waitt (h : fbit f.func 0 = true → s.tick.toNat ≤ (s.cur.waitTarget f).toNat) : s.syncFault (.waitt g f) = none := by
  simpa [State.syncFault] using h

theorem State.syncFault_bar (h : fbit f.func 0 = true → s.domainMask (s.cur.s' f.f3.toNat) = true) : s.syncFault (.bar g f) = none := by
  simpa [State.syncFault] using h

theorem State.syncFault_fence (h : fbit f.func 1 = true → ∀ c ∈ [1, 2, 3], s.cur.clock.refusal c = none) :
    s.syncFault (.fence g f) = none := by
  rw [State.syncFault]
  split
  · next hr => rw [ClockEngine.firstRefusal_eq_none (h hr), Option.map_none]
  · rfl

/-- The classes that an RCNT reads lie among the three (R279). -/
theorem rcntClasses_subset (htag : f.tag.toNat ≤ 3) : ∀ c ∈ rcntClasses f, c ∈ [1, 2, 3] := by
  intro c hc
  by_cases h0 : f.tag = 0
  · simpa [rcntClasses, h0] using hc
  · have hpos : f.tag.toNat ≠ 0 := fun h => h0 (BitVec.eq_of_toNat_eq h)
    rw [rcntClasses, if_neg (by simpa using h0), List.mem_singleton] at hc
    simp only [List.mem_cons, List.not_mem_nil, or_false]
    omega

theorem State.syncFault_rcnt (h : ∀ c ∈ [1, 2, 3], s.cur.clock.refusal c = none) (htag : f.tag.toNat ≤ 3) : s.syncFault (.rcnt g f) = none := by
  rw [State.syncFault, ClockEngine.firstRefusal_eq_none fun c hc => h c (rcntClasses_subset htag c hc), Option.map_none]

theorem State.syncFault_prel (hpen : (s.ctx s.cur.ctx).pen = true) (hmirror : fbit f.func 0 = true → (s.ctx s.cur.ctx).mirror = true)
    (hroom : (s.cur.clock.prIssued - s.cur.clock.prDone).toNat < 65535) : s.syncFault (.prel g f) = none := by
  simp only [State.syncFault, hpen]
  rw [if_neg (by simp), if_neg (by simpa using hmirror), if_neg (Nat.not_le.mpr hroom)]

theorem State.syncFault_pseal (hpen : (s.ctx s.cur.ctx).pen = true) (hn : (s.cur.s' f.f2.toNat).toNat < 2 ^ 32) :
    s.syncFault (.pseal g f) = none := by
  simp only [State.syncFault, hpen]
  rw [if_neg (by simp), if_neg (Nat.not_le.mpr hn)]

end Faults

/-! ## Ticks, posts and counts (R273 to R283) -/

theorem execRcnt_clear {s : State} {g : Gate} {f : FormE} (h : s.issues g = true) (hf : s.syncFault (.rcnt g f) = none) :
    execRcnt g f s = .next (s.fly 1 [.s f.f1.toNat (word (if f.tag == 0 then s.cur.clock.counts[0] + s.cur.clock.counts[1] * 2 ^ 16 +
      s.cur.clock.counts[2] * 2 ^ 32 else s.cur.clock.counts[f.tag.toNat - 1]?.getD 0))]) := by
  rw [execRcnt, hf, if_neg (by simp), State.guarded_on h]
  simp

theorem execFence_clear {s : State} {g : Gate} {f : FormE} (hf : s.syncFault (.fence g f) = none) : execFence g f s = .next s := by
  rw [execFence, hf, if_neg (by simp)]

/-- Settles O7: none of the faults of these instructions holds, and each puts its result in flight. -/
theorem tickReadsComplete : Obligations.TickReadsComplete := by
  refine ⟨fun g f s h hlate => ?_, fun g f s h => ?_, fun g f s h => ?_, fun g f s h hopened => ⟨?_, ?_⟩, fun g f s h hdom => ?_,
    fun g f s _ hrefused => ?_, fun g f s h hrefused htag => ?_⟩
  · show execWaitt g f s = _
    rw [execWaitt, State.guarded_clear h (State.syncFault_waitt hlate)]
    rfl
  · show execRdtk g f s = _
    rw [execRdtk, State.guarded_on h]
  · show execYield g f s = _
    rw [execYield, State.guarded_on h]
  · show execWshut g f s = _
    rw [execWshut, State.guarded_clear h (by simp [State.syncFault, hopened])]
  · show execGetpost g f s = _
    rw [execGetpost, State.guarded_clear h (by simp [State.syncFault, hopened]), fld_low]
    rfl
  · show execBar g f s = _
    rw [execBar, State.guarded_clear h (State.syncFault_bar fun hd => by simpa [State.domainMask, and_assoc] using hdom hd), id]
  · exact execFence_clear (State.syncFault_fence hrefused)
  · refine ⟨_, execRcnt_clear h (State.syncFault_rcnt hrefused htag), fun c hc heq => ?_, fun h0 => ?_⟩
    · have hne : f.tag ≠ 0 := by
        intro h0
        rw [h0] at heq
        exact absurd (heq ▸ hc) (by decide)
      rw [if_neg (by simpa using hne), heq]
      rfl
    · rw [BitVec.eq_of_toNat_eq (y := 0) h0]
      rfl

/-! ## Windows opened (R274) -/

/-- No address of a list of ranges lies in a region that meets none of them. -/
theorem firstInRegion_eq_none {w : Window} {rs : List (Nat × Nat)} (h : ∀ r ∈ rs, w.meet r.1 r.2 = none) : firstInRegion w rs = none :=
  List.foldlRecOn (motive := fun m => m = none) rs _ rfl fun m hm r hr => by rw [h r hr, hm]

theorem State.wopenFault_eq_none {s : State} {f : FormE} {base size close : Word} (hbase : base = s.cur.s' f.f1.toNat)
    (hsize : size = s.cur.s' f.f2.toNat) (hclose : close = s.cur.shifted (fbit f.func 6) (s.cur.s' f.f3.toNat))
    (hmeet : ∀ x ∈ s.cur.clock.windows.toList, x.isOpen = true → x.meet base.toNat size.toNat = none)
    (hnumber : (s.cur.window f.tag.toNat).isOpen = false) (halign : base.toNat % 64 = 0 ∧ size.toNat % 64 = 0)
    (hinside : base.toNat + size.toNat ≤ coreStoreSize) (hlate : s.tick.toNat + s.stepBy < close.toNat)
    (hcopies : ∀ r ∈ s.cur.cpy.liveRanges s.clk, Window.meet { Window.reset with base, size } r.1 r.2 = none) :
    s.wopenFault f = none := by
  subst hbase hsize hclose
  have hopen : (s.cur.clock.windows.toList.any fun x =>
      x.isOpen && (x.meet (s.cur.s' f.f1.toNat).toNat (s.cur.s' f.f2.toNat).toNat).isSome) = false :=
    List.any_eq_false.mpr fun x hx => by
      intro hboth
      obtain ⟨hx1, hx2⟩ := Bool.and_eq_true_iff.mp hboth
      rw [hmeet x hx hx1] at hx2
      exact absurd hx2 (by decide)
  simp only [State.wopenFault]
  rw [if_neg (by simp [hopen, hnumber]), if_neg (by simp [halign, hinside]), if_neg (by simpa using hlate), firstInRegion_eq_none hcopies]

/-- Settles O8: under its premises WOPEN meets no fault, and the opening it puts in flight holds its operands. -/
theorem windowOpensComplete : Obligations.WindowOpensComplete := by
  intro g f s h base size close hmeet hnumber hbase hsize hinside hlate hcopies
  have hf : s.syncFault (.wopen g f) = none :=
    State.wopenFault_eq_none rfl rfl rfl hmeet hnumber ⟨hbase, hsize⟩ hinside hlate hcopies
  show execWopen g f s = _
  rw [execWopen, State.guarded_clear h hf, fld_low]
  rfl

/-! ## Requests to other agents (R280, R284, R415, R444, R449) -/

/-- A core is read from the cores alone. -/
theorem State.core_of_cores {s t : State} (h : t.cores = s.cores) (x : Nat) : t.core x = s.core x := by rw [State.core, State.core, h]

/-- A signal sends its wake to the thread that its operand names (R284). -/
theorem signal_sends {s : State} {g : Gate} {f : FormE} (h : s.issues g = true) (hf : s.syncFault (.signal g f) = none) :
    ∃ t, exec (.signal g f) s = .next t ∧ t.cores = s.cores ∧ t.mem = s.mem ∧ ∃ p : Packet, t.packets.get? s.nextId = some p ∧
      p.dest = routerOf ((s.cur.s' f.f2.toNat).toNat % 512) ∧
      p.item = .wake ((s.cur.s' f.f2.toNat).toNat % 512) ((s.cur.s' f.f2.toNat).toNat / 2 ^ 16 % 64)
        (if s.cur.ctx = 0 then none else some s.cur.ctx) (some s.curT.cell) := by
  have hcell : fld (s.cur.s' f.f2.toNat) 0 9 = (s.cur.s' f.f2.toNat).toNat % 512 := fld_low _ 9
  show ∃ t, execSignal g f s = .next t ∧ _
  rw [execSignal, State.guarded_clear h hf]
  refine ⟨_, rfl, ?_⟩
  obtain ⟨hmem, hcores, -, p, hp, hdest, hitem⟩ := s.send_spec (routerOf s.curT.cell) (routerOf (fld (s.cur.s' f.f2.toNat) 0 9)) 2 phNet
    (fld (s.cur.s' f.f2.toNat) 0 9 * 64 + fld (s.cur.s' f.f2.toNat) 16 6)
    (.wake (fld (s.cur.s' f.f2.toNat) 0 9) (fld (s.cur.s' f.f2.toNat) 16 6) (if s.cur.ctx == 0 then none else some s.cur.ctx) (some s.curT.cell))
  refine ⟨hcores, hmem, p, hp, hdest.trans (by rw [hcell]), hitem.trans ?_⟩
  simp only [hcell, beq_iff_eq]
  rfl

/-- The state in which a release has taken the next number of its core (R415). -/
def State.releaseTaken (s : State) (f : FormE) : State :=
  let n := s.cur.clock.prIssued + 1
  let r : Release := { id := s.nextId, agent := timedAgent s.curT.cell, number := n, ctx := s.cur.ctx, bound := 0,
                       mirrored := fbit f.func 0, request := none, reached := false, live := true }
  { s with releases := s.releases ++ [r], nextId := s.nextId + 1 }.updClock s.curT.cell fun k => { k with prIssued := n }

theorem State.cur_releaseTaken (s : State) (f : FormE) :
    (s.releaseTaken f).cur = { s.cur with clock := { s.cur.clock with prIssued := s.cur.clock.prIssued + 1 } } := State.core_updCore_self _ _ _

/-- A release takes the next number and lands it (R415). -/
theorem prel_takes {s : State} {g : Gate} {f : FormE} (h : s.issues g = true) (hf : s.syncFault (.prel g f) = none) :
    ∃ t, exec (.prel g f) s = .next t ∧ (Claims.core s t).clock.prIssued = s.cur.clock.prIssued + 1 ∧ t.mem = s.mem ∧
      (Claims.core s t).regs = s.cur.regs ∧ (Claims.core s t).flights.length = s.cur.flights.length + 1 ∧
      ∃ x ∈ (Claims.core s t).flights, x.due = s.clk + 1 ∧ x.landings = [.s f.f1.toNat ((s.cur.clock.prIssued + 1).setWidth 64)] := by
  show ∃ t, execPrel g f s = .next t ∧ _
  rw [execPrel, State.guarded_clear h hf]
  refine ⟨((s.releaseTaken f).fly 1 [.s f.f1.toNat ((s.cur.clock.prIssued + 1).setWidth 64)]).after 0 phNet s.curT.cell
    (.release s.curT.cell s.nextId), rfl, ?_⟩
  have hcore := (s.releaseTaken f).fly_core 1 [.s f.f1.toNat ((s.cur.clock.prIssued + 1).setWidth 64)]
  rw [show (s.releaseTaken f).curT.cell = s.curT.cell from rfl, s.cur_releaseTaken] at hcore
  rw [Claims.core, State.core_after, hcore, State.after_mem]
  exact ⟨rfl, State.flight_mem .., rfl, by simp, _, List.mem_append_right _ List.mem_cons_self, rfl, rfl⟩

/-- A seal's call changes no core and no memory. -/
theorem State.beside_callSeal (s : State) (ctx : Nat) (asker : SealAsker) (before : Nat) : s.Beside (s.callSeal ctx asker before) := by
  unfold State.callSeal
  split
  · exact .refl s
  · exact .updPkg ⟨rfl, rfl, le_rfl⟩

/-- A seal's status lands one period later (R415). -/
theorem pseal_lands {s : State} {g : Gate} {f : FormE} (h : s.issues g = true) (hf : s.syncFault (.pseal g f) = none) :
    ∃ t, exec (.pseal g f) s = .next t ∧ t.mem = s.mem ∧ (Claims.core s t).regs = s.cur.regs ∧
      ∃ x ∈ (Claims.core s t).flights, x.due = s.clk + 1 ∧
        x.landings = [.s f.f1.toNat (BitVec.ofNat 64 (s.sealStatus s.cur.ctx (s.cur.s' f.f2.toNat).toNat))] := by
  show ∃ t, execPseal g f s = .next t ∧ _
  rw [execPseal, State.guarded_clear h hf]
  refine ⟨_, rfl, ?_⟩
  dsimp only
  generalize hu : s.fly 1 [.s f.f1.toNat (word (s.sealStatus s.cur.ctx (s.cur.s' f.f2.toNat).toNat))] = u
  have hbeside : u.Beside (if s.sealStatus s.cur.ctx (s.cur.s' f.f2.toNat).toNat != 0 then u else
      (u.callSeal s.cur.ctx (.core s.curT.cell) (s.ctx s.cur.ctx).prpState).send (routerOf s.curT.cell) portDie 0 phNet s.curT.cell
        (.op (.sealPages s.cur.ctx))) :=
    (State.Beside.refl u).ite (u.beside_callSeal _ _ _).send
  rw [Claims.core, State.core_of_cores hbeside.cores, hbeside.mem, ← hu, State.fly_core]
  exact ⟨State.flight_mem .., rfl, _, List.mem_append_right _ List.mem_cons_self, rfl, rfl⟩

/-- The checks of a record that is aligned and lies inside the core store. -/
theorem recordChecks {a : Nat} (halign : a % 64 = 0) (hinside : a + 64 ≤ coreStoreSize) : misaligned a 64 = none ∧ outside a 64 = none := by
  simp [misaligned, outside, halign, hinside]

/-- An abandonment reads its record two periods later (R449). -/
theorem cabort_reads {s : State} {g : Gate} {f : FormE} (h : s.issues g = true) (hf : s.collFault (.cabort g f) = none) :
    ∃ t, exec (.cabort g f) s = .next t ∧ t.cores = s.cores ∧ t.mem = s.mem ∧ ∃ a ∈ t.accesses, a.due = s.clk + 2 ∧
      a.kind = .abortRecord ∧ a.lines = [{ address := (s.cur.s' f.f2.toNat).toNat, len := 64, lane := 0 }] := by
  show ∃ t, execCabort g f s = .next t ∧ _
  rw [execCabort, State.guarded_clear h hf]
  refine ⟨_, rfl, State.access_cores .., State.access_mem .., ?_⟩
  obtain ⟨a, ha, hdue, hkind, -, hline⟩ := s.inFlight_access 2 0 { address := (s.cur.s' f.f2.toNat).toNat, len := 64, lane := 0 } .abortRecord
  exact ⟨a, ha, hdue, hkind, hline⟩

/-- A collective begins its copy and reads its record two periods later (R444). -/
theorem coll_begins {s : State} {g : Gate} {f : FormE} (h : s.issues g = true) (hf : s.collFault (.coll g f) = none) :
    ∃ t, exec (.coll g f) s = .next t ∧ t.mem = s.mem ∧ (Claims.core s t).regs = s.cur.regs ∧
      (∃ x ∈ (Claims.core s t).cpy.tagged, x.tag = f.f4.toNat ∧ x.coll = true ∧ x.id = s.nextId) ∧
      ∃ a ∈ t.accesses, a.due = s.clk + 2 ∧ a.kind = .record s.nextId ∧
        a.lines = [{ address := (s.cur.s' f.f2.toNat).toNat, len := 64, lane := 0 }] := by
  show ∃ t, execColl g f s = .next t ∧ _
  rw [execColl, State.guarded_clear h hf]
  refine ⟨_, rfl, ?_⟩
  dsimp only
  generalize hu : s.newCopy f.f4.toNat none [((s.cur.s' f.f2.toNat).toNat, 64)] true false = u
  obtain ⟨e, hcopies, hbegun⟩ := s.copies_newCopy f.f4.toNat none [((s.cur.s' f.f2.toNat).toNat, 64)] true false
  have hclk := s.clk_newCopy f.f4.toNat none [((s.cur.s' f.f2.toNat).toNat, 64)] true false
  rw [hu] at hcopies hclk
  obtain ⟨a, ha, hdue, hkind, -, hline⟩ := u.inFlight_access 2 0 { address := (s.cur.s' f.f2.toNat).toNat, len := 64, lane := 0 } (.record s.nextId)
  rw [hclk] at hdue
  rw [Claims.core, State.core_access, State.access_mem, hcopies.cpy]
  exact ⟨hcopies.mem, hcopies.regs, ⟨_, hbegun, rfl, rfl, rfl⟩, a, ha, hdue, hkind, hline⟩

/-- Settles O9: the premises of each request exclude its faults. -/
theorem agentRequestsComplete : Obligations.AgentRequestsComplete := by
  refine ⟨fun g f s h hf => signal_sends h hf, fun g f s h hpen hmirror hroom => prel_takes h (State.syncFault_prel hpen hmirror hroom),
    fun g f s h hpen hn => pseal_lands h (State.syncFault_pseal hpen hn), fun g f s h halign hinside => ?_⟩
  obtain ⟨hmis, hout⟩ := recordChecks halign hinside
  have hcabort : s.collFault (.cabort g f) = none := by simp [State.collFault, hmis, hout, firstOf]
  refine ⟨cabort_reads h hcabort, fun hhit hslots => coll_begins h ?_⟩
  simp [State.collFault, hmis, hout, hhit, firstOf, Nat.not_le.mpr hslots]

end Sys2Proof.Machine

/-! SUPPORT. Windows and barriers: their closes, redirects, accesses, releases and time-outs (09_windows R261 to R268, R277; 04_ordering
R111). -/

namespace Sys2Proof.Machine

open Sys2Proof

/-! ## Windows (R262, R264) -/

theorem Core.lt_of_isOpen_window {c : Core} {n : Nat} (h : (c.window n).isOpen = true) : n < 16 := by
  by_contra hn
  rw [Core.window, Vector.getElem?_eq_none (Nat.not_lt.mp hn)] at h
  exact absurd h (by decide)

theorem State.core_updClock_self (s : State) (cell : Nat) (f : ClockEngine → ClockEngine) :
    (s.updClock cell f).core cell = { s.core cell with clock := f (s.core cell).clock } := State.core_updCore_self _ _ _

theorem State.window_setWindow_self {s : State} {cell n : Nat} (hn : n < 16) (w : Window) : ((s.setWindow cell n w).core cell).window n = w := by
  rw [State.setWindow, State.core_updClock_self, Core.window]
  simp [hn]

/-- A close at its tick of a window on which nobody stalls (R262). -/
theorem execWindowClose_closes {s : State} {cell n : Nat} (hopen : ((s.core cell).window n).isOpen = true)
    (hdue : ((s.core cell).window n).close.toNat ≤ s.tick.toNat) (hstall : ((s.core cell).window n).stalling = false)
    (hgoes : ¬(((s.core cell).window n).action = 2 ∧ ((s.core cell).window n).hit = false)) :
    execWindowClose cell n s = .next (s.closeWindow cell n false) := by
  simp only [execWindowClose, hopen, hstall]
  rw [if_neg (by simpa using hdue), if_neg (by simp), if_neg (by simpa using hgoes)]

/-- What a close in its tick leaves: its status, and the redirect that a missed `br` window owes (R262, R263). -/
theorem State.closeWindow_spec {s : State} {cell n : Nat} (hopen : ((s.core cell).window n).isOpen = true) :
    let w := (s.core cell).window n
    let t := s.closeWindow cell n false
    t.mem = s.mem ∧ (t.core cell).regs = (s.core cell).regs ∧
      (t.core cell).window n = { w with isOpen := false, stalling := false, absent := false, missed := !w.hit, close := s.tick,
                                        owed := w.owed || (!w.hit && w.action == 1) } := by
  simp only [State.closeWindow, hopen]
  refine ⟨rfl, ?_, ?_⟩
  · show ((State.setWindow ..).core cell).regs = _
    rw [State.setWindow, State.core_updClock_self]
  · exact State.window_setWindow_self (Core.lt_of_isOpen_window hopen) _

/-- The core on which a redirect has landed: the window owes it no longer, and the sequencer goes on at its target (R264). -/
def Core.redirectedBy (c : Core) (n : Nat) (due : Nat) : Core :=
  { c with
    clock := { c.clock with windows := c.clock.windows.setIfInBounds n { c.window n with owed := false }, wrpc := c.seq.pc }
    seq := { c.seq with pc := (c.window n).target, bar := none, barsDone := 0, observed := [], notBefore := due } }

/-- A core looks at its next group at a period: only the time of its sequencer changes, and the look is due. -/
theorem State.issueAt_spec (s : State) (cell due : Nat) :
    (s.issueAt cell due).core cell = { s.core cell with seq := { (s.core cell).seq with notBefore := due } } ∧
      ∃ e ∈ (s.issueAt cell due).events, e.due = due ∧ e.item = .op (.groupIssue cell) := by
  refine ⟨?_, _, (State.mem_at' ..).mpr (.inl rfl), rfl, rfl⟩
  rw [State.issueAt, State.core_at', State.core_updSeq_self]

theorem State.issueAt_keeps (s : State) (cell due : Nat) :
    ((s.issueAt cell due).core cell).run = (s.core cell).run ∧ ((s.issueAt cell due).core cell).ctx = (s.core cell).ctx ∧
      ((s.issueAt cell due).core cell).regs = (s.core cell).regs := by
  rw [(s.issueAt_spec cell due).1]
  exact ⟨rfl, rfl, rfl⟩

theorem State.issueAt_mem (s : State) (cell due : Nat) : (s.issueAt cell due).mem = s.mem := by
  rw [State.issueAt, State.at'_mem, State.updSeq_mem]

/-- An owed redirect (R264): the core of the lowest window that owes one. -/
theorem execWindowRedirect_owed {s : State} {cell n : Nat} (h : (List.range 16).find? (fun n => ((s.core cell).window n).owed) = some n) :
    ∃ t, execWindowRedirect cell s = .next t ∧ t.mem = s.mem ∧ t.core cell = (s.core cell).redirectedBy n (s.clk + 1) ∧
      ∃ e ∈ t.events, e.due = s.clk + 1 ∧ e.item = .op (.groupIssue cell) := by
  simp only [execWindowRedirect, h]
  refine ⟨_, rfl, by rw [State.issueAt_mem]; rfl, ?_, (State.issueAt_spec ..).2⟩
  rw [(State.issueAt_spec ..).1, State.core_leaveBarrier, State.core_updSeq_self, State.core_updClock_self]
  rfl

theorem Core.window_redirectedBy {c : Core} {n due : Nat} (hn : n < 16) : (c.redirectedBy n due).window n = { c.window n with owed := false } := by
  rw [Core.window, Core.redirectedBy]
  simp [hn]

/-! ## One change of several cores -/

/-- A change of several cores changes the cores only. -/
theorem State.foldl_updCore_cases (f : Core → Core) (l : List Nat) (s : State) :
    ∃ cs, l.foldl (fun s m => s.updCore m f) s = { s with cores := cs } :=
  List.foldlRecOn (motive := fun t => ∃ cs, t = { s with cores := cs }) l _ ⟨_, rfl⟩ fun _ ⟨_, ht⟩ _ _ => by rw [ht]; exact ⟨_, rfl⟩

/-- A change that is the same when made twice reaches every core of the list, and no other. -/
theorem State.core_foldl_updCore {f : Core → Core} (hf : ∀ c, f (f c) = f c) (l : List Nat) (s : State) (x : Nat) :
    (l.foldl (fun s m => s.updCore m f) s).core x = if x ∈ l then f (s.core x) else s.core x := by
  induction l generalizing s with
  | nil => rfl
  | cons m l ih =>
    rw [List.foldl_cons, ih]
    by_cases hx : x = m
    · subst hx
      simp [hf]
    · simp [hx, State.core_updCore_ne]

/-! ## Releases of barriers (R267, R268) -/

/-- The core that goes on from its barrier at a period. -/
def Core.freed (due : Nat) (c : Core) : Core :=
  { c with seq := { c.seq with bar := c.seq.bar.map fun b => { b with release := some due } } }

theorem Core.freed_freed (due : Nat) (c : Core) : (c.freed due).freed due = c.freed due := by
  simp [Core.freed, Function.comp_def]

theorem State.mem_waitingAt {s : State} {cells : List Nat} {n m : Nat} {b : BarWait} (hm : m ∈ cells) (hb : (s.core m).seq.bar = some b)
    (hn : b.barrier = n) (hr : b.release = none) : m ∈ s.waitingAt cells n := by
  rw [State.waitingAt, List.mem_filter]
  exact ⟨hm, by simp [hb, hn, hr]⟩

/-- A release reaches the cores that wait at its barrier, and changes nothing else. -/
theorem State.releaseBarrier_spec (s : State) (cells : List Nat) (n due : Nat) :
    (∃ cs, s.releaseBarrier cells n due = { s with cores := cs }) ∧
      ∀ x, ((s.releaseBarrier cells n due).core x).regs = (s.core x).regs ∧ ∀ b, x ∈ cells → (s.core x).seq.bar = some b → b.barrier = n →
        b.release = none → ((s.releaseBarrier cells n due).core x).seq.bar = some { b with release := some due } := by
  refine ⟨State.foldl_updCore_cases (Core.freed due) _ s, fun x => ?_⟩
  have hcore : (s.releaseBarrier cells n due).core x = if x ∈ s.waitingAt cells n then (s.core x).freed due else s.core x :=
    State.core_foldl_updCore (Core.freed_freed due) _ s x
  rw [hcore]
  refine ⟨by split <;> rfl, fun b hx hb hn hr => ?_⟩
  rw [if_pos (State.mem_waitingAt hx hb hn hr), Core.freed, hb]
  rfl

/-! ## Records of domain barriers (R268) -/

section Records

variable {gang barrier : Nat} {f : DomainBarrier → DomainBarrier} {bs : List DomainBarrier}

/-- Every record of the barrier is one changed. -/
theorem eq_of_mem_withBarrier {x : DomainBarrier} (hx : x ∈ withBarrier gang barrier f bs)
    (hgang : x.gang = gang) (hbarrier : x.barrier = barrier) : ∃ b, x = f b := by
  unfold withBarrier at hx
  split at hx
  · obtain ⟨b, -, hb⟩ := List.mem_map.mp hx
    split at hb
    · exact ⟨b, hb.symm⟩
    · next hother => subst hb; simp [hgang, hbarrier] at hother
  · next hnone =>
    rcases List.mem_append.mp hx with hx | hx
    · exact absurd (List.any_eq_true.mpr ⟨x, hx, by simp [hgang, hbarrier]⟩) hnone
    · exact ⟨_, List.mem_singleton.mp hx⟩

/-- Some record of the barrier has been changed, or begun. -/
theorem exists_mem_withBarrier (f : DomainBarrier → DomainBarrier) (bs : List DomainBarrier) :
    ∃ b : DomainBarrier, b.gang = gang ∧ b.barrier = barrier ∧ f b ∈ withBarrier gang barrier f bs := by
  unfold withBarrier
  split
  · next hany =>
    obtain ⟨b, hb, hof⟩ := List.any_eq_true.mp hany
    have hnames : b.gang = gang ∧ b.barrier = barrier := by simpa using hof
    exact ⟨b, hnames.1, hnames.2, List.mem_map.mpr ⟨b, hb, if_pos hof⟩⟩
  · exact ⟨{ gang, barrier, plates := [], ticks := [], seen := [] }, rfl, rfl, List.mem_append_right _ List.mem_cons_self⟩

end Records

theorem DomainBarrier.leave_spec (b : DomainBarrier) (plate : Nat) :
    (b.leave plate).plates.get? plate = none ∧ ((b.leave plate).plates = [] → (b.leave plate).ticks = []) := by
  refine ⟨by simp [DomainBarrier.leave, Table.get?_erase], fun h => ?_⟩
  have hempty : b.plates.erase plate = [] := h
  simp [DomainBarrier.leave, hempty]

/-- A beat queued changes links only (14_fabric R436). -/
theorem State.sendBeat_cases (s : State) (cls dest : Nat) (body : BeatBody) :
    ∃ ls, s.sendBeat cls dest body = { s with pkg := { s.pkg with links := ls } } := by
  unfold State.sendBeat
  split
  · exact ⟨_, rfl⟩
  · dsimp only
    split
    · exact ⟨_, rfl⟩
    · exact ⟨_, rfl⟩

theorem State.foldl_sendBeat_cases (s : State) (cls : Nat) (body : State → BeatBody) (l : List Nat) :
    ∃ ls, l.foldl (fun s d => s.sendBeat cls d (body s)) s = { s with pkg := { s.pkg with links := ls } } :=
  List.foldlRecOn (motive := fun t => ∃ ls, t = { s with pkg := { s.pkg with links := ls } }) l _ ⟨_, rfl⟩ fun t ⟨_, ht⟩ d _ => by
    obtain ⟨_, hd⟩ := t.sendBeat_cases cls d (body t)
    rw [hd, ht]
    exact ⟨_, rfl⟩

/-! ## Domain barriers and time-outs (R268, R277) -/

/-- A domain barrier whose release tick has come releases the plate's members, and its record loses the plate. -/
theorem execDomainBarrierRelease_releases {s : State} {plate gang barrier t0 : Nat} {b : DomainBarrier}
    (hfind : s.pkg.domBars.find? (fun b => b.gang == gang && b.barrier == barrier && (b.plates.get? plate).isSome) = some b)
    (hrelease : b.release s.pkg.domPos s.pkg.domLat plate = some t0) (hdue : t0 ≤ s.tick.toNat) :
    execDomainBarrierRelease plate gang barrier s = .next ((s.releaseBarrier (s.gangMembers plate gang) barrier s.clk).updPkg fun k =>
      { k with domBars := releasedBarrier plate gang barrier k.domBars }) := by
  simp only [execDomainBarrierRelease, hfind, hrelease, if_pos hdue]

/-- The record of a domain barrier with the arrival of a plate's gang: its mask and its tick (R268). -/
def DomainBarrier.arrive (plate : Nat) (mask tick : Word) (b : DomainBarrier) : DomainBarrier :=
  { b with plates := b.plates.set plate (mask, tick) }

/-- The state in which a plate's gang has arrived at a domain barrier, and no other package knows of it yet. -/
def State.arrivalRecorded (s : State) (plate gang barrier : Nat) (mask : Word) : State :=
  s.updPkg fun k => { k with domBars := withBarrier gang barrier (DomainBarrier.arrive plate mask s.tick) k.domBars }

/-- A plate's gang that completes at a domain barrier records its mask and the tick; cores and memory stay. -/
theorem execDomainBarrierRelease_records {s : State} {plate gang barrier m : Nat} {ms : List Nat} {b : BarWait}
    (hfind : s.pkg.domBars.find? (fun b => b.gang == gang && b.barrier == barrier && (b.plates.get? plate).isSome) = none)
    (hall : s.allArrived (s.gangMembers plate gang) barrier = true) (hwait : s.waitingAt (s.gangMembers plate gang) barrier = m :: ms)
    (hb : (s.core m).seq.bar = some b) :
    ∃ t, execDomainBarrierRelease plate gang barrier s = .next t ∧ t.mem = s.mem ∧ t.cores = s.cores ∧
      t.pkg.domBars = withBarrier gang barrier (DomainBarrier.arrive plate b.mask s.tick) s.pkg.domBars := by
  have hexec : execDomainBarrierRelease plate gang barrier s = .next (((s.arrivalRecorded plate gang barrier b.mask).others b.mask).foldl
      (fun u d => u.sendBeat clsCounter d (.domainArrival gang barrier u.pkg.domPos u.tick)) (s.arrivalRecorded plate gang barrier b.mask)) := by
    simp only [execDomainBarrierRelease, hfind, hall, hwait, List.head?_cons, Option.bind_some, hb]
    rw [if_neg (by simp)]
    rfl
  obtain ⟨ls, hls⟩ := (s.arrivalRecorded plate gang barrier b.mask).foldl_sendBeat_cases clsCounter
    (fun u => .domainArrival gang barrier u.pkg.domPos u.tick) ((s.arrivalRecorded plate gang barrier b.mask).others b.mask)
  rw [hexec, hls]
  exact ⟨_, rfl, rfl, rfl, rfl⟩

/-- A timed BAR whose limit has come traps in its bundle (R277). -/
theorem execBarrierTimeout_traps {s : State} {cell : Nat} {b : BarWait} {bs : List Bundle} {m : Member} {g : Gate} {f : FormE}
    (hb : (s.core cell).seq.bar = some b) (hr : b.release = none) (hrun : (s.core cell).run = .running)
    (hgroup : s.checkedGroup cell (s.core cell).seq.pc = .ok bs)
    (hm : (((s.core cell).waiters bs).filter fun m => m.instr matches .bar ..)[(s.core cell).seq.barsDone]? = some m) (hi : m.instr = .bar g f)
    (hlimit : b.limit.any (fun t => decide (t ≤ s.clk)) = true) :
    execBarrierTimeout cell s = .next (s.takeTrap cell
      { cause := 182, slot := 7, lane := 0, pc := bundlePc (s.core cell).seq.pc m.bundle, val := word f.tag.toNat }
      (bundlePc (s.core cell).seq.pc m.bundle)) := by
  unfold execBarrierTimeout
  simp only [hb, hr, hrun, hgroup]
  rw [if_neg (by simp)]
  -- The model tests for BAR by a match of its own, which is that of `hm` by definition only.
  erw [hm]
  simp only [hi, hlimit]
  rfl

/-- Settles O42: each clause reads off what its event leaves; a release reaches every core that waits, and a record that has lost a plate
shows it no more. -/
theorem windowEventsComplete : Obligations.WindowEventsComplete := by
  refine ⟨fun cell n s hopen hdue hstall hgoes => ?_, fun cell n s h => ?_, fun id r s h => ⟨fun n k x hk => ?_, fun n hk => ?_⟩,
    fun plate gang barrier s h => ?_, fun cell b bs m g f s hb hr hrun hgroup hm hi hlimit => ?_,
    fun plate gang barrier t0 b s hfind hrelease hdue => ?_, fun plate gang barrier m ms b s hfind hall hwait hb => ?_⟩
  · obtain ⟨hmem, hregs, hwindow⟩ := State.closeWindow_spec hopen
    refine ⟨_, execWindowClose_closes hopen hdue hstall hgoes, hregs, hmem, ?_⟩
    rw [hwindow, ← hstall]
  · obtain ⟨t, ht, hmem, hcore, hlook⟩ := execWindowRedirect_owed h
    have hn : n < 16 := List.mem_range.mp (List.mem_of_find?_eq_some h)
    refine ⟨t, ht, hmem, ?_⟩
    rw [hcore, Core.window_redirectedBy hn]
    exact ⟨rfl, (BitVec.setWidth_eq _).symm, (BitVec.setWidth_eq _).symm, rfl, hlook⟩
  · show execWindowAccessArrival id s = _
    simp only [execWindowAccessArrival, h, hk]
  · show execWindowAccessArrival id s = _
    rcases hk with ⟨d, hk⟩ | ⟨x, hk⟩ <;> simp only [execWindowAccessArrival, h, hk]
  · obtain ⟨⟨cs, hcs⟩, hcore⟩ := s.releaseBarrier_spec (s.gangMembers plate gang) barrier (s.clk + 8)
    refine ⟨s.releaseBarrier (s.gangMembers plate gang) barrier (s.clk + 8), ?_, by rw [hcs], by rw [hcs], fun m hm => ?_⟩
    · show execBarrierRelease plate gang barrier s = _
      rw [execBarrierRelease, if_pos h]
    · exact ⟨(hcore m).1, fun b => (hcore m).2 b hm⟩
  · obtain ⟨n, hn, hle⟩ := hlimit
    exact execBarrierTimeout_traps hb hr hrun hgroup hm hi (by simp [hn, hle])
  · obtain ⟨⟨cs, hcs⟩, hcore⟩ := s.releaseBarrier_spec (s.gangMembers plate gang) barrier s.clk
    refine ⟨_, execDomainBarrierRelease_releases hfind hrelease hdue, by rw [hcs]; rfl, fun x hx hgang hbarrier => ?_, fun m hm =>
      ⟨(hcore m).1, fun b => (hcore m).2 b hm⟩⟩
    obtain ⟨b', rfl⟩ := eq_of_mem_withBarrier (f := fun b => b.leave plate) hx hgang hbarrier
    exact b'.leave_spec plate
  · obtain ⟨t, ht, hmem, hcores, hbars⟩ := execDomainBarrierRelease_records hfind hall hwait hb
    obtain ⟨x, hgang, hbarrier, hx⟩ := exists_mem_withBarrier (gang := gang) (barrier := barrier)
      (DomainBarrier.arrive plate b.mask s.tick) s.pkg.domBars
    exact ⟨t, ht, hmem, hcores, x.arrive plate b.mask s.tick, hbars ▸ hx, hgang, hbarrier, Table.get?_set_self _ _ _⟩

end Sys2Proof.Machine

/-! SUPPORT. The schedule tables: entries written, argument blocks, launches, resumes, pre-emptions and containment (09_windows R252 to R258;
01_machine R27, R28). -/

namespace Sys2Proof.Machine

open Sys2Proof

/-! ## Entries and units -/

theorem State.entry_setEntry {plate : Nat} (hp : plate < 4) (s : State) (index : Nat) (e : ScheduleEntry) :
    (s.setEntry plate index e).entry plate index = e := by
  rw [State.entry, State.setEntry, State.plate_updPlate hp]
  exact Table.getD_set_self _ _ _ _

/-- An entry is read from the plates alone. -/
theorem State.entry_of_plates {s t : State} (h : t.pkg.plates = s.pkg.plates) (plate index : Nat) : t.entry plate index = s.entry plate index := by
  simp only [State.entry, State.plate, h]

theorem State.Books.entry {s t : State} (h : s.Books t) (plate index : Nat) : t.entry plate index = s.entry plate index :=
  State.entry_of_plates h.plates plate index

@[simp] theorem State.setEntry_cores (s : State) (plate index : Nat) (e : ScheduleEntry) : (s.setEntry plate index e).cores = s.cores := by
  rw [State.setEntry, State.updPlate, State.updPkg_cores]

@[simp] theorem State.setEntry_mem (s : State) (plate index : Nat) (e : ScheduleEntry) : (s.setEntry plate index e).mem = s.mem := by
  rw [State.setEntry, State.updPlate, State.updPkg_mem]

theorem State.Books.drawDelay {s t : State} (h : s.Books t) : s.Books t.drawDelay.2 :=
  ⟨h.clk, h.tick, h.stepBy, h.cores, h.mem, h.barrels, h.plates, h.events⟩

/-! ## Entries written (R253) -/

/-- The state in which a write has ended what its plate's units did for the entry before. -/
def State.entryCleared (s : State) (plate index : Nat) : State :=
  ((s.dropUnit (.args plate index)).dropUnit (.resume plate index)).updPlate plate fun p => { p with argFaults := p.argFaults.erase index }

@[simp] theorem State.entryCleared_cores (s : State) (plate index : Nat) : (s.entryCleared plate index).cores = s.cores := by
  rw [State.entryCleared, State.updPlate, State.updPkg_cores, State.dropUnit_cores, State.dropUnit_cores]

@[simp] theorem State.entryCleared_mem (s : State) (plate index : Nat) : (s.entryCleared plate index).mem = s.mem := by
  rw [State.entryCleared, State.updPlate, State.updPkg_mem, State.dropUnit_mem, State.dropUnit_mem]

/-- A write that does not arm keeps the result of the entry before (R253). -/
theorem execScheduleEntryWrite_unarmed {s : State} {plate index : Nat} {e : ScheduleEntry} (h : seArmed e = false) :
    execScheduleEntryWrite plate index e s =
      .next ((s.entryCleared plate index).setEntry plate index (seWith e false (seResult (s.entry plate index)))) := by
  simp only [execScheduleEntryWrite, h]
  rfl

/-- An arming write that is refused leaves result 2 (R253). -/
theorem execScheduleEntryWrite_refused {s : State} {plate index : Nat} {e : ScheduleEntry} (h : seArmed e = true)
    (hr : s.entryRefused plate e = true) :
    execScheduleEntryWrite plate index e s = .next ((s.entryCleared plate index).setEntry plate index (seWith e false 2)) := by
  simp only [execScheduleEntryWrite, h, hr]
  rfl

theorem State.copyDelay_pos (s : State) (e : ScheduleEntry) : 0 < (s.copyDelay e).1 := by
  rw [State.copyDelay]
  exact Nat.succ_pos _

theorem State.books_copyDelay (s : State) (e : ScheduleEntry) : s.Books (s.copyDelay e).2 := (State.Books.refl s).drawDelay

theorem State.books_imagesDelay (s : State) (e : ScheduleEntry) : s.Books (s.imagesDelay e).2 := (State.Books.refl s).drawDelay

/-- An arming write that is not refused: its plate's table holds it armed, and what it makes due comes later. -/
theorem execScheduleEntryWrite_armed {s : State} {plate index : Nat} {e : ScheduleEntry} (h : seArmed e = true)
    (hr : s.entryRefused plate e = false) :
    ∃ t, execScheduleEntryWrite plate index e s = .next t ∧
      State.Books ((s.entryCleared plate index).setEntry plate index (seWith e true 0)) t ∧
      (seKind e = 0 → ∃ x ∈ t.events, x.item = .op (.launchArgumentBlockCopy plate index) ∧ s.clk < x.due) := by
  unfold State.entryCleared
  simp only [execScheduleEntryWrite, h, hr]
  rw [if_neg (by simp), if_neg (by simp)]
  generalize hs2 : State.setEntry _ plate index (seWith e true 0) = s2
  have hclk : s2.clk = s.clk := by rw [← hs2]; rfl
  by_cases h0 : seKind e = 0
  · rw [if_pos (by simp [h0])]
    have hdelay := s2.books_copyDelay e
    refine ⟨_, rfl, hdelay.after, fun _ => ⟨_, (State.mem_after ..).mpr (.inl rfl), rfl, ?_⟩⟩
    rw [hdelay.clk, hclk]
    exact Nat.lt_add_of_pos_right (s2.copyDelay_pos e)
  · rw [if_neg (by simpa using h0)]
    by_cases h1 : seKind e = 1
    · rw [if_pos (by simp [h1])]
      exact ⟨_, rfl, (s2.books_imagesDelay e).after, fun h => absurd h h0⟩
    · rw [if_neg (by simpa using h1)]
      exact ⟨_, rfl, .refl _, fun h => absurd h h0⟩

/-- What a write leaves in its plate's table, and what it makes due (R253). -/
theorem entryWrites_hold {plate index : Nat} {e : ScheduleEntry} {s : State} (hp : plate < 4) :
    (∃ t, exec (.scheduleEntryWrite plate index e) s = .next t ∧ t.cores = s.cores ∧ t.mem = s.mem ∧ t.entry plate index =
      if seArmed e = false then seWith e false (seResult (s.entry plate index)) else if s.entryRefused plate e = true then seWith e false 2
        else seWith e true 0) ∧
    (seArmed e = true → s.entryRefused plate e = false → seKind e = 0 → ∃ t, exec (.scheduleEntryWrite plate index e) s = .next t ∧
      ∃ x ∈ t.events, x.item = .op (.launchArgumentBlockCopy plate index) ∧ s.clk < x.due) := by
  show (∃ t, execScheduleEntryWrite plate index e s = .next t ∧ _) ∧ (_ → _ → _ → ∃ t, execScheduleEntryWrite plate index e s = .next t ∧ _)
  refine ⟨?_, fun ha hr hk => ?_⟩
  · cases ha : seArmed e with
    | false =>
      refine ⟨_, execScheduleEntryWrite_unarmed ha, ?_⟩
      rw [State.setEntry_cores, State.setEntry_mem, if_pos rfl, State.entry_setEntry hp]
      exact ⟨s.entryCleared_cores _ _, s.entryCleared_mem _ _, rfl⟩
    | true =>
      rw [if_neg (by decide)]
      cases hr : s.entryRefused plate e with
      | true =>
        refine ⟨_, execScheduleEntryWrite_refused ha hr, ?_⟩
        rw [State.setEntry_cores, State.setEntry_mem, if_pos rfl, State.entry_setEntry hp]
        exact ⟨s.entryCleared_cores _ _, s.entryCleared_mem _ _, rfl⟩
      | false =>
        obtain ⟨t, ht, hbooks, -⟩ := execScheduleEntryWrite_armed (index := index) ha hr
        refine ⟨t, ht, ?_⟩
        rw [hbooks.cores, hbooks.mem, hbooks.entry, State.setEntry_cores, State.setEntry_mem, if_neg (by decide), State.entry_setEntry hp]
        exact ⟨s.entryCleared_cores _ _, s.entryCleared_mem _ _, rfl⟩
  · obtain ⟨t, ht, -, hcopy⟩ := execScheduleEntryWrite_armed (index := index) ha hr
    exact ⟨t, ht, hcopy hk⟩

/-! ## Argument blocks (R28) -/

/-- A block that has been read reaches the core store of every named cell. -/
theorem execLaunchArgumentBlockCopy_copies {s : State} {plate index : Nat} {bs : List Byte} (ha : seArmed (s.entry plate index) = true)
    (hk : seKind (s.entry plate index) = 0)
    (hread : (s.asUnit (.args plate index) false).readRange plate (seContext (s.entry plate index)) (seArgs (s.entry plate index)) 256 =
      .ok (.ok bs)) :
    execLaunchArgumentBlockCopy plate index s = .next ((seCells (s.entry plate index)).foldl
      (fun s n => { s with mem := s.mem.put (coreStoreBase n + 0x2FFF00) bs }) (s.dropUnit (.args plate index))) := by
  simp only [execLaunchArgumentBlockCopy, ha, hk, hread]
  rfl

/-- No copy that waits: nothing is left to complete at the launch tick. -/
theorem State.argsDue_idle {s : State} {plate index : Nat} (h : ∀ j ∈ s.units, j.user ≠ .args plate index) : s.argsDue plate index = s := by
  have hany : (s.units.any fun j => j.user == .args plate index) = false := List.any_eq_false.mpr fun j hj => by simpa using h j hj
  simp only [State.argsDue, hany]
  rfl

/-! ## Cores that begin, one after another -/

/-- From `s` to `t` the core `n` has begun: its group is due, and the other cores, the package and the time stay. -/
structure State.Begins (s t : State) (n : Nat) : Prop where
  clk    : t.clk = s.clk
  pkg    : t.pkg = s.pkg
  core   : ∀ x, x ≠ n → t.core x = s.core x
  events : s.events ⊆ t.events
  due    : Claims.due t (.op (.groupIssue n))

/-- A core replaced, and its first group made due in this period, begins. -/
theorem State.begins_issueAt {s t : State} {n : Nat} (hclk : t.clk = s.clk) (hpkg : t.pkg = s.pkg) (hcore : ∀ x, x ≠ n → t.core x = s.core x)
    (hevents : t.events = s.events) : s.Begins (t.issueAt n s.clk) n where
  clk := by rw [State.issueAt, State.at'_clk, State.updSeq_clk, hclk]
  pkg := by rw [State.issueAt, State.at'_pkg]; exact hpkg
  core x hx := by rw [State.issueAt, State.core_at', State.updSeq, State.core_updCore_ne _ _ _ _ hx, hcore x hx]
  events e he := (State.mem_at' ..).mpr (.inr (hevents ▸ he))
  due := ⟨_, (State.mem_at' ..).mpr (.inl rfl), by rw [State.issueAt, State.at'_clk, State.updSeq_clk, hclk], rfl⟩

theorem State.Begins.due_of {s t : State} {n : Nat} (h : s.Begins t n) {i : Item} (hi : Claims.due s i) : Claims.due t i := by
  obtain ⟨e, he, hdue, hitem⟩ := hi
  exact ⟨e, h.events he, hdue.trans h.clk.symm, hitem⟩

/-- Steps in each of which another core of a list begins: each core is left as its own step left it, with its group due. -/
theorem foldl_begins {α : Type} {step : State → α → State} {cell : α → Nat} (hstep : ∀ u a, State.Begins u (step u a) (cell a)) {l : List α}
    (hd : (l.map cell).Nodup) (s : State) :
    (l.foldl step s).pkg = s.pkg ∧ (∀ i, Claims.due s i → Claims.due (l.foldl step s) i) ∧
      (∀ x, x ∉ l.map cell → (l.foldl step s).core x = s.core x) ∧
      ∀ a ∈ l, Claims.due (l.foldl step s) (.op (.groupIssue (cell a))) ∧ ∃ u, (l.foldl step s).core (cell a) = (step u a).core (cell a) := by
  induction l generalizing s with
  | nil => exact ⟨rfl, fun _ h => h, fun _ _ => rfl, fun _ h => absurd h List.not_mem_nil⟩
  | cons a l ih =>
    obtain ⟨hnew, hd⟩ := List.nodup_cons.mp hd
    obtain ⟨hpkg, hdue, hcore, hall⟩ := ih hd (step s a)
    have ha := hstep s a
    refine ⟨hpkg.trans ha.pkg, fun i hi => hdue i (ha.due_of hi), fun x hx => ?_, List.forall_mem_cons.mpr ⟨⟨hdue _ ha.due, s, hcore _ hnew⟩, hall⟩⟩
    obtain ⟨hxa, hxl⟩ := not_or.mp (mt List.mem_cons.mpr hx)
    exact (hcore x hxl).trans (ha.core x hxa)

theorem nodup_seCells (e : ScheduleEntry) : (seCells e).Nodup := List.nodup_range.filter _

/-- Beginning a gang is bookkeeping beside the cores, the memory and the plates. -/
theorem State.books_setGang (s : State) (plate : Nat) (e : ScheduleEntry) : s.Books (s.setGang plate e) := by
  have howners : s.Books ((seCells e).foldl (fun s c => s.newOwner c) s) :=
    (State.Books.refl s).foldl fun {u _} h => ⟨h.clk, h.tick, h.stepBy, h.cores, h.mem, h.barrels, h.plates, h.events⟩
  unfold State.setGang
  exact howners.updPkg fun _ => rfl

/-- Members of two lists at one place of both, with that place. -/
theorem mem_places {α β : Type} {l : List α} {l' : List β} {i : Nat} {a : α} {b : β} (h : l[i]? = some a) (h' : l'[i]? = some b) :
    (i, b) ∈ (List.range l.length).zip l' := by
  obtain ⟨hi, -⟩ := List.getElem?_eq_some_iff.mp h
  exact List.mem_of_getElem? (List.getElem?_zip_eq_some.mpr ⟨by simp [hi], h'⟩)

/-- An entry of a plate is armed, of a kind, and its tick has come (R27, R254). -/
structure State.Fires (s : State) (plate index kind : Nat) (e : ScheduleEntry) : Prop where
  entry : s.entry plate index = e
  armed : seArmed e = true
  kind  : seKind e = kind
  due   : seTick e ≤ s.tick.toNat

/-! ## Launches (R27, R28) -/

/-- A member at its place is launched, and its first group is due. -/
def State.launchMember (e : ScheduleEntry) (s : State) (x : Nat × Nat) : State :=
  (s.setCore x.2 (s.launched x.2 e x.1 (seCells e).length)).issueAt x.2 s.clk

theorem State.begins_launchMember (e : ScheduleEntry) (s : State) (x : Nat × Nat) : s.Begins (s.launchMember e x) x.2 :=
  State.begins_issueAt rfl rfl (fun y hy => State.core_setCore_ne s x.2 y _ hy) rfl

/-- A core launched, but for the time of its sequencer. -/
theorem State.core_launchMember (e : ScheduleEntry) (s : State) (x : Nat × Nat) :
    (s.launchMember e x).core x.2 = { s.launched x.2 e x.1 (seCells e).length with
      seq := { (s.launched x.2 e x.1 (seCells e).length).seq with notBefore := s.clk } } := by
  rw [State.launchMember, (State.issueAt_spec ..).1, State.core_setCore_self]

/-- A launch without an offence: the entry has fired, and the members begin in their order. -/
theorem execScheduleLaunch_starts {s s1 : State} {plate index : Nat} {e : ScheduleEntry} (hfires : s.Fires plate index 0 e)
    (hs1 : s.argsDue plate index = s1) (hcells : ∀ n ∈ seCells e, s1.launchOffends (seContext e) n = false)
    (hgang : s1.pkg.gangs.get? (gangKey plate (seGang e)) = none) (hargs : (s1.plate plate).argFaults.get? index = none) :
    execScheduleLaunch plate index s = .next (((List.range (seCells e).length).zip (seCells e)).foldl (State.launchMember e)
      ((s1.setEntry plate index (seWith e false 1)).setGang plate e)) := by
  have hfind : (seCells e).find? (fun n => s1.launchOffends (seContext e) n) = none :=
    List.find?_eq_none.mpr fun n hn => by simp [hcells n hn]
  simp only [execScheduleLaunch, hfires.entry, hs1, hfind, hgang, hargs]
  rw [if_neg (by simp [hfires.armed, hfires.kind, hfires.due]), if_neg (by simp)]
  rfl

theorem State.launchMember_mem (e : ScheduleEntry) (s : State) (x : Nat × Nat) : (s.launchMember e x).mem = s.mem := by
  rw [State.launchMember, State.issueAt_mem, State.setCore_mem]

/-- The registers of a launched member (R28). -/
theorem State.launched_regs (s : State) (cell : Nat) (e : ScheduleEntry) (position size : Nat) :
    let c := s.launched cell e position size
    c.a' 0 = 0x2FFF00 ∧ c.s' 1 = word (seGang e) ∧ c.s' 2 = word position ∧ c.s' 3 = word size := by
  simp [State.launched, Core.a', Core.s', TimedRegs.setA, TimedRegs.setS]

/-- What a launch without an offence leaves of its members (R27, R28). -/
theorem launches_hold {s s1 : State} {plate index : Nat} {e : ScheduleEntry} (hfires : s.Fires plate index 0 e) (hp : plate < 4)
    (hs1 : s.argsDue plate index = s1) (hcells : ∀ n ∈ seCells e, s1.launchOffends (seContext e) n = false)
    (hgang : s1.pkg.gangs.get? (gangKey plate (seGang e)) = none) (hargs : (s1.plate plate).argFaults.get? index = none) :
    ∃ t, exec (.scheduleLaunch plate index) s = .next t ∧ t.mem = s1.mem ∧ t.entry plate index = seWith e false 1 ∧
      ∀ i n, (seCells e)[i]? = some n → (t.core n).run = .running ∧ (t.core n).ctx = seContext e ∧ (t.core n).a' 0 = 0x2FFF00 ∧
        (t.core n).s' 1 = word (seGang e) ∧ (t.core n).s' 2 = word i ∧ (t.core n).s' 3 = word (seCells e).length ∧
        (t.core n).seq.pc = BitVec.ofNat 64 (seEntry e) ∧ (t.core n).ctl.plevel = seLevel e ∧ Claims.due t (.op (.groupIssue n)) := by
  have hbooks := (s1.setEntry plate index (seWith e false 1)).books_setGang plate e
  have hmap : ((List.range (seCells e).length).zip (seCells e)).map Prod.snd = seCells e := List.map_snd_zip (by simp)
  obtain ⟨hpkg, -, -, hall⟩ := foldl_begins (State.begins_launchMember e) (l := (List.range (seCells e).length).zip (seCells e))
    (by rw [hmap]; exact nodup_seCells e) ((s1.setEntry plate index (seWith e false 1)).setGang plate e)
  refine ⟨_, execScheduleLaunch_starts hfires hs1 hcells hgang hargs, ?_, ?_, fun i n hn => ?_⟩
  · exact List.foldlRecOn (motive := fun t : State => t.mem = s1.mem) _ _ (hbooks.mem.trans (State.setEntry_mem ..)) fun t ht x _ =>
      (State.launchMember_mem e t x).trans ht
  · rw [State.entry_of_plates (congrArg Package.plates hpkg), hbooks.entry, State.entry_setEntry hp]
  · obtain ⟨hdue, u, hcore⟩ := hall (i, n) (mem_places hn hn)
    obtain ⟨ha0, hs1, hs2, hs3⟩ := u.launched_regs n e i (seCells e).length
    rw [hcore, State.core_launchMember]
    exact ⟨rfl, rfl, ha0, hs1, hs2, hs3, rfl, rfl, hdue⟩

/-! ## Resumes (R254, R256) -/

section Redirect

variable (c : Core) (landed delta : Word)

@[simp] theorem Core.resumeRedirect_run : (c.resumeRedirect landed delta).run = c.run := by
  rw [Core.resumeRedirect]
  split <;> rfl

@[simp] theorem Core.resumeRedirect_ctx : (c.resumeRedirect landed delta).ctx = c.ctx := by
  rw [Core.resumeRedirect]
  split <;> rfl

@[simp] theorem Core.resumeRedirect_regs : (c.resumeRedirect landed delta).regs = c.regs := by
  rw [Core.resumeRedirect]
  split <;> rfl

end Redirect

/-- The register files of an image (05_sequencer R149); p0 and pv0 hold nothing. -/
def imageRegs (m : Memory) : TimedRegs :=
  { s := imageVector 64 m 0x40 8 8 64, a := imageVector 64 m 0x240 8 8 16, p := BitVec.ofNat 16 (m.num 0x2C0 8) &&& 0xFFFE
    v := imageVector 2048 m 0x1000 256 256 64, k := imageVector 256 m 0x5000 32 32 8
    pv := (imageVector 256 m 0x5100 32 32 16).setIfInBounds 0 0 }

theorem getElem?_imageVector {w n k : Nat} (m : Memory) (offset step size : Nat) (hk : k < n) :
    (imageVector w m offset step size n)[k]? = some (BitVec.ofNat w (m.num (offset + step * k) size)) := by
  simp [imageVector, hk]

theorem getLsbD_imageRegs_p (m : Memory) {k : Nat} (hk : k < 16) (hpos : 0 < k) :
    (imageRegs m).p.getLsbD k = (BitVec.ofNat 16 (m.num 0x2C0 8)).getLsbD k := by
  have hkept : ∀ k < 16, 0 < k → (0xFFFE : BitVec 16).getLsbD k = true := by decide
  rw [imageRegs, BitVec.getLsbD_and, hkept k hk hpos, Bool.and_true]

/-- A resumed member runs in its entry's context with the registers of its image (R256). -/
theorem State.resumed_spec (s : State) (cell : Nat) (e : ScheduleEntry) (position size a : Nat) (m : Memory) (first : Word) :
    (s.resumed cell e position size a m first).run = .running ∧ (s.resumed cell e position size a m first).ctx = seContext e ∧
      (s.resumed cell e position size a m first).regs = imageRegs m := by
  simp only [State.resumed, Core.resumeRedirect_run, Core.resumeRedirect_ctx, Core.resumeRedirect_regs, imageRegs, and_self]

/-- What the registers of an image read. -/
theorem Core.reads_imageRegs {c : Core} {m : Memory} (h : c.regs = imageRegs m) :
    (∀ k < 64, c.s' k = word (m.num (0x40 + 8 * k) 8)) ∧ (∀ k < 16, c.a' k = word (m.num (0x240 + 8 * k) 8)) ∧
      ∀ k < 16, 0 < k → c.p' k = (BitVec.ofNat 16 (m.num 0x2C0 8)).getLsbD k := by
  refine ⟨fun k hk => ?_, fun k hk => ?_, fun k hk hpos => ?_⟩
  · rw [Core.s', h, imageRegs, getElem?_imageVector m 0x40 8 8 hk]
    rfl
  · rw [Core.a', h, imageRegs, getElem?_imageVector m 0x240 8 8 hk]
    rfl
  · rw [Core.p', h, getLsbD_imageRegs_p m hk hpos, beq_false_of_ne hpos.ne', Bool.false_or]

/-- The first TICK value at which a member of a list of images was pre-empted (R256). -/
def firstLanding (imgs : List (Nat × Memory)) : Word :=
  let landed := imgs.map fun x => word (x.2.num 8 8)
  landed.foldl (fun (m : Word) x => if x.toNat < m.toNat then x else m) (landed.headD 0)

theorem State.begins_resumeMember (e : ScheduleEntry) (size : Nat) (first : Word) (s : State) (x : Nat × Nat × Nat × Memory) :
    s.Begins (s.resumeMember e size first x) x.2.1 :=
  State.begins_issueAt rfl rfl (fun y hy => State.core_setCore_ne s x.2.1 y _ hy) rfl

/-- A member's core and core store from its image, before anything follows. -/
def State.restored (s : State) (e : ScheduleEntry) (size : Nat) (first : Word) (x : Nat × Nat × Nat × Memory) : State :=
  let s1 := s.setCore x.2.1 (s.resumed x.2.1 e x.1 size x.2.2.1 x.2.2.2 first)
  { s1 with mem := s1.mem.copyFrom x.2.2.2 0x120000 (coreStoreBase x.2.1) coreStoreSize }

theorem State.resumeMember_eq (s : State) (e : ScheduleEntry) (size : Nat) (first : Word) (x : Nat × Nat × Nat × Memory) :
    s.resumeMember e size first x = (s.restored e size first x).issueAt x.2.1 s.clk := rfl

theorem State.core_restored (s : State) (e : ScheduleEntry) (size : Nat) (first : Word) (x : Nat × Nat × Nat × Memory) :
    (s.restored e size first x).core x.2.1 = s.resumed x.2.1 e x.1 size x.2.2.1 x.2.2.2 first := State.core_setCore_self _ _ _

/-- What a member restored at its place holds. -/
theorem State.resumeMember_spec (e : ScheduleEntry) (size : Nat) (first : Word) (s : State) (x : Nat × Nat × Nat × Memory) :
    ((s.resumeMember e size first x).core x.2.1).run = .running ∧ ((s.resumeMember e size first x).core x.2.1).ctx = seContext e ∧
      ((s.resumeMember e size first x).core x.2.1).regs = imageRegs x.2.2.2 := by
  obtain ⟨hrun, hctx, hregs⟩ := (s.restored e size first x).issueAt_keeps x.2.1 s.clk
  rw [State.resumeMember_eq, hrun, hctx, hregs, State.core_restored]
  exact s.resumed_spec x.2.1 e x.1 size x.2.2.1 x.2.2.2 first

/-- The state before the members of a resume are restored: the pre-empted members are taken up, the entry has fired, and the gang stands. -/
def State.resumeBegun (s : State) (plate index : Nat) (e : ScheduleEntry) : State :=
  let old := (s.pkg.gangs.get? (gangKey plate (seGang e))).map (·.members) |>.getD []
  let s1 := old.foldl (fun s m => s.updCore m fun c => if c.run == .preempted then { c with run := .idle } else c)
    (s.dropUnit (.resume plate index))
  (s1.setEntry plate index (seWith e false 1)).setGang plate e

theorem State.entry_resumeBegun {plate : Nat} (hp : plate < 4) (s : State) (index : Nat) (e : ScheduleEntry) :
    (s.resumeBegun plate index e).entry plate index = seWith e false 1 := by
  rw [State.resumeBegun, (State.books_setGang ..).entry, State.entry_setEntry hp]

/-- A resume without an offence: the members are restored in their order. -/
theorem execScheduleResume_restores {s : State} {plate index : Nat} {e : ScheduleEntry} {imgs : List (Nat × Memory)}
    (hfires : s.Fires plate index 1 e) (hcells : ∀ n ∈ seCells e, s.resumeOffends e n = false) (hgang : s.resumable plate e = true)
    (himgs : s.imagesNow plate index e = some imgs) :
    execScheduleResume plate index s = .next (((List.range (seCells e).length).zip ((seCells e).zip imgs)).foldl
      (State.resumeMember (e := e) (size := (seCells e).length) (first := firstLanding imgs)) (s.resumeBegun plate index e)) := by
  have hfind : (seCells e).find? (fun n => (s.dropUnit (.resume plate index)).resumeOffends e n) = none :=
    List.find?_eq_none.mpr fun n hn => by
      rw [show (s.dropUnit (.resume plate index)).resumeOffends e n = false from hcells n hn]
      decide
  have hresumable : (s.dropUnit (.resume plate index)).resumable plate e = true := hgang
  simp only [execScheduleResume, hfires.entry, hfind, hresumable, himgs]
  rw [if_neg (by simp [hfires.armed, hfires.kind, hfires.due]), if_neg (by simp)]
  rfl

/-- The first parts of two lists put together begin the first list. -/
theorem map_fst_zip_sublist {α β : Type} (l : List α) (l' : List β) : ((l.zip l').map Prod.fst).Sublist l := by
  induction l generalizing l' with
  | nil => exact List.Sublist.refl _
  | cons a l ih =>
    cases l' with
    | nil => exact List.nil_sublist _
    | cons b l' => exact (ih l').cons_cons a

theorem nodup_resumed (e : ScheduleEntry) (imgs : List (Nat × Memory)) :
    (((List.range (seCells e).length).zip ((seCells e).zip imgs)).map fun x => x.2.1).Nodup := by
  have hmap : ((List.range (seCells e).length).zip ((seCells e).zip imgs)).map Prod.snd = (seCells e).zip imgs :=
    List.map_snd_zip (by simp)
  have hcells := (nodup_seCells e).sublist (map_fst_zip_sublist (seCells e) imgs)
  rwa [← hmap, List.map_map] at hcells

/-- What a resume without an offence leaves of its members (R254, R256). -/
theorem resumes_hold {s : State} {plate index : Nat} {e : ScheduleEntry} {imgs : List (Nat × Memory)} (hfires : s.Fires plate index 1 e)
    (hp : plate < 4) (hcells : ∀ n ∈ seCells e, s.resumeOffends e n = false) (hgang : s.resumable plate e = true)
    (himgs : s.imagesNow plate index e = some imgs) :
    ∃ t, exec (.scheduleResume plate index) s = .next t ∧ t.entry plate index = seWith e false 1 ∧
      ∀ (i n : Nat) (x : Nat × Memory), (seCells e)[i]? = some n → imgs[i]? = some x → (t.core n).run = .running ∧ (t.core n).ctx = seContext e ∧
        (∀ k < 64, (t.core n).s' k = word (x.2.num (0x40 + 8 * k) 8)) ∧ (∀ k < 16, (t.core n).a' k = word (x.2.num (0x240 + 8 * k) 8)) ∧
        (∀ k < 16, 0 < k → (t.core n).p' k = (BitVec.ofNat 16 (x.2.num 0x2C0 8)).getLsbD k) ∧ Claims.due t (.op (.groupIssue n)) := by
  obtain ⟨hpkg, -, -, hall⟩ := foldl_begins (State.begins_resumeMember e (seCells e).length (firstLanding imgs)) (nodup_resumed e imgs)
    (s.resumeBegun plate index e)
  refine ⟨_, execScheduleResume_restores hfires hcells hgang himgs, ?_, fun i n x hn hx => ?_⟩
  · rw [State.entry_of_plates (congrArg Package.plates hpkg), State.entry_resumeBegun hp]
  · obtain ⟨hdue, u, hcore⟩ := hall (i, n, x) (mem_places hn (List.getElem?_zip_eq_some.mpr ⟨hn, hx⟩))
    obtain ⟨hrun, hctx, hregs⟩ := u.resumeMember_spec e (seCells e).length (firstLanding imgs) (i, n, x)
    rw [← hcore] at hrun hctx hregs
    obtain ⟨hs, ha, hps⟩ := Core.reads_imageRegs hregs
    exact ⟨hrun, hctx, hs, ha, hps, hdue⟩

/-! ## Pre-emptions and containment (R254, R255, R258) -/

/-- A live core takes the request for its pre-emption. -/
def Core.asked (c : Core) : Core := if c.run.live then { c with clock := { c.clock with prq := true } } else c

theorem Core.asked_asked (c : Core) : c.asked.asked = c.asked := by
  by_cases hlive : c.run.live = true
  · simp [Core.asked, hlive]
  · simp [Core.asked, hlive]

theorem Core.asked_spec (c : Core) : c.asked.regs = c.regs ∧ (c.run.live = true → c.asked.clock.prq = true) := by
  unfold Core.asked
  split
  · exact ⟨rfl, fun _ => rfl⟩
  · next hlive => exact ⟨rfl, fun h => absurd h hlive⟩

/-- The question whether a gang is pre-empted makes its answers due, no more. -/
theorem State.books_preemptCheck (s : State) (cell : Nat) : s.Books (s.preemptCheck cell) := by
  unfold State.preemptCheck
  split
  · exact .refl s
  · exact ((State.Books.refl s).foldl .after).ite (.refl s)

/-- The state in which a pre-empt entry has fired and its gang knows of it; no core has been asked yet (R255). -/
def State.preemptNoted (s : State) (plate index : Nat) (e : ScheduleEntry) : State :=
  (s.setEntry plate index (seWith e false 0)).updPkg fun k => { k with
    gangs := k.gangs.map fun x => if x.1 == gangKey plate (seGang e) then (x.1, { x.2 with preempt := x.2.preempt ++ [index] }) else x }

/-- A pre-emption without an offence: the gang knows of it, and the cells of the entry are asked. -/
theorem execSchedulePreempt_asks {s : State} {plate index : Nat} {e : ScheduleEntry} (hfires : s.Fires plate index 2 e)
    (hoff : s.preemptOffends plate e = none) :
    execSchedulePreempt plate index s =
      .next (((seCells e).foldl (fun s n => s.updCore n Core.asked) (s.preemptNoted plate index e)).preemptCheck ((seCells e).headD 0)) := by
  simp only [execSchedulePreempt, hfires.entry, hoff]
  rw [if_neg (by simp [hfires.kind]), if_neg (by simp [hfires.armed]), if_neg (Nat.not_lt.mpr hfires.due)]
  rfl

/-- What a pre-emption without an offence asks of its cores (R254, R255). -/
theorem preemptions_hold {s : State} {plate index : Nat} {e : ScheduleEntry} (hfires : s.Fires plate index 2 e) (hp : plate < 4)
    (hoff : s.preemptOffends plate e = none) :
    ∃ t, exec (.schedulePreempt plate index) s = .next t ∧ t.mem = s.mem ∧ t.entry plate index = seWith e false 0 ∧
      ∀ n ∈ seCells e, (t.core n).regs = (s.core n).regs ∧ ((s.core n).run.live = true → (t.core n).clock.prq = true) := by
  obtain ⟨cs, hcs⟩ := State.foldl_updCore_cases Core.asked (seCells e) (s.preemptNoted plate index e)
  have hcore := State.core_foldl_updCore Core.asked_asked (seCells e) (s.preemptNoted plate index e)
  have hbooks := State.books_preemptCheck ((seCells e).foldl (fun s n => s.updCore n Core.asked) (s.preemptNoted plate index e))
    ((seCells e).headD 0)
  refine ⟨_, execSchedulePreempt_asks hfires hoff, ?_, ?_, fun n hn => ?_⟩
  · rw [hbooks.mem, hcs]
    rfl
  · have hnoted : ((seCells e).foldl (fun s n => s.updCore n Core.asked) (s.preemptNoted plate index e)).pkg.plates =
        (s.setEntry plate index (seWith e false 0)).pkg.plates := by rw [hcs]; rfl
    rw [hbooks.entry, State.entry_of_plates hnoted, State.entry_setEntry hp]
  · rw [State.core_of_cores hbooks.cores, hcore, if_pos hn]
    exact Core.asked_spec (s.core n)

/-- Settles O41: each clause reads off what its event leaves; the cells of an entry are distinct, so that each member stays as its own start
left it. -/
theorem scheduleEventsComplete : Obligations.ScheduleEventsComplete := by
  refine ⟨fun plate index e s hp => entryWrites_hold hp, fun plate index bs s ha hk hread => execLaunchArgumentBlockCopy_copies ha hk hread,
    fun plate index s => ⟨State.argsDue_idle, fun ha hk htick hp hcells hgang hargs => launches_hold ⟨rfl, ha, hk, htick⟩ hp rfl hcells hgang hargs⟩,
    fun plate index imgs s ha hk htick hp hcells hgang himgs => resumes_hold ⟨rfl, ha, hk, htick⟩ hp hcells hgang himgs,
    fun plate index s ha hk htick hp hoff => preemptions_hold ⟨rfl, ha, hk, htick⟩ hp hoff, fun g s hgang hctx hbusy => ?_⟩
  show execKcontContain s = _
  simp [execKcontContain, hgang, hctx, hbusy]

end Sys2Proof.Machine

/-! SUPPORT. The barrel cores of a state and the threads in their slots: what an update leaves, of its own core and of the others
(10_barrel R287 to R294). -/

namespace Sys2Proof.Machine

open Sys2Proof

/-! ## Barrel cores -/

theorem State.barrel_of_barrels {s t : State} (h : t.barrels = s.barrels) (c : Nat) : t.barrel c = s.barrel c := by
  rw [State.barrel, State.barrel, h]

@[simp] theorem State.barrel_updBarrel_self (s : State) (cell : Nat) (f : BarrelCore → BarrelCore) :
    (s.updBarrel cell f).barrel cell = f (s.barrel cell) := Table.getD_set_self _ _ _ _

theorem State.barrel_updBarrel_ne {s : State} {cell c : Nat} {f : BarrelCore → BarrelCore} (h : c ≠ cell) :
    (s.updBarrel cell f).barrel c = s.barrel c := Table.getD_set_ne _ _ _ _ _ h

@[simp] theorem State.barrel_at' (s : State) (due phase key : Nat) (item : Item) (c : Nat) :
    (s.at' due phase key item).barrel c = s.barrel c := State.barrel_of_barrels (by simp) c
@[simp] theorem State.barrel_after (s : State) (n phase key : Nat) (item : Item) (c : Nat) :
    (s.after n phase key item).barrel c = s.barrel c := s.barrel_at' _ _ _ _ c
@[simp] theorem State.barrel_updReq (s : State) (id : Nat) (f : Request → Request) (c : Nat) :
    (s.updReq id f).barrel c = s.barrel c := State.barrel_of_barrels (by simp) c

/-- A quantity of every barrel core that an update of one core keeps. -/
theorem State.barrel_updBarrel_keeps {α : Type} {s : State} {cell : Nat} {f : BarrelCore → BarrelCore} (p : BarrelCore → α)
    (h : p (f (s.barrel cell)) = p (s.barrel cell)) (c : Nat) : p ((s.updBarrel cell f).barrel c) = p (s.barrel c) := by
  by_cases hc : c = cell
  · rw [hc, State.barrel_updBarrel_self, h]
  · rw [State.barrel_updBarrel_ne hc]

/-! ## Threads -/

theorem State.thread?_of_barrels {s t : State} (h : t.barrels = s.barrels) (c n : Nat) : t.thread? c n = s.thread? c n := by
  rw [State.thread?, State.thread?, State.barrel_of_barrels h]

@[simp] theorem State.thread?_at' (s : State) (due phase key : Nat) (item : Item) (c n : Nat) :
    (s.at' due phase key item).thread? c n = s.thread? c n := State.thread?_of_barrels (by simp) c n
@[simp] theorem State.thread?_after (s : State) (k phase key : Nat) (item : Item) (c n : Nat) :
    (s.after k phase key item).thread? c n = s.thread? c n := s.thread?_at' _ _ _ _ c n
@[simp] theorem State.thread?_updReq (s : State) (id : Nat) (f : Request → Request) (c n : Nat) :
    (s.updReq id f).thread? c n = s.thread? c n := State.thread?_of_barrels (by simp) c n

/-- An update of a barrel core beside its threads. -/
theorem State.thread?_updBarrel {s : State} {cell : Nat} {f : BarrelCore → BarrelCore}
    (h : (f (s.barrel cell)).threads = (s.barrel cell).threads) (c n : Nat) : (s.updBarrel cell f).thread? c n = s.thread? c n := by
  rw [State.thread?, State.thread?, State.barrel_updBarrel_keeps BarrelCore.threads h]

theorem State.updThread_none {s : State} {cell t : Nat} (h : s.thread? cell t = none) (f : Thread → Thread) :
    s.updThread cell t f = s := by rw [State.updThread, h]

theorem State.updThread_some {s : State} {cell t : Nat} {x : Thread} (h : s.thread? cell t = some x) (f : Thread → Thread) :
    s.updThread cell t f = s.updBarrel cell fun b => { b with threads := b.threads.set t (f x) } := by rw [State.updThread, h]

theorem State.thread?_updThread_self (s : State) (cell t : Nat) (f : Thread → Thread) :
    (s.updThread cell t f).thread? cell t = (s.thread? cell t).map f := by
  cases h : s.thread? cell t with
  | none => rw [State.updThread_none h, h]; rfl
  | some x => rw [State.updThread_some h, State.thread?, State.barrel_updBarrel_self, Table.get?_set_self]; rfl

/-- A thread of a slot after an update of it. -/
theorem State.thread?_updThread {s : State} {cell t : Nat} {x : Thread} (h : s.thread? cell t = some x) (f : Thread → Thread) :
    (s.updThread cell t f).thread? cell t = some (f x) := by rw [State.thread?_updThread_self, h]; rfl

/-- A thread of any slot after an update of one: that of the slot, changed, and every other as it was. -/
theorem State.thread?_updThread_cases (s : State) (cell t : Nat) (f : Thread → Thread) (c n : Nat) :
    (s.updThread cell t f).thread? c n = if c = cell ∧ n = t then (s.thread? c n).map f else s.thread? c n := by
  split_ifs with h
  · rw [h.1, h.2, State.thread?_updThread_self]
  · cases hx : s.thread? cell t with
    | none => rw [State.updThread_none hx]
    | some x =>
      rw [State.updThread_some hx, State.thread?, State.thread?]
      by_cases hc : c = cell
      · rw [hc, State.barrel_updBarrel_self, Table.get?_set_ne _ _ _ _ fun hn => h ⟨hc, hn⟩]
      · rw [State.barrel_updBarrel_ne hc]

/-- An update of the current thread is known by what it makes of that thread. -/
theorem State.updTh_congr {s : State} {f g : Thread → Thread} (h : f s.th = g s.th) : s.updTh f = s.updTh g := by
  cases hx : s.thread? s.curB.cell s.curB.thread with
  | none => rw [State.updTh, State.updTh, State.updThread_none hx, State.updThread_none hx]
  | some x =>
    rw [State.th, hx] at h
    rw [State.updTh, State.updTh, State.updThread_some hx, State.updThread_some hx, show f x = g x from h]

/-- A quantity of barrel cores that does not read their threads is kept by an update of a thread. -/
theorem State.barrel_updThread_keeps {α : Type} {s : State} {cell t : Nat} {f : Thread → Thread} (p : BarrelCore → α)
    (h : ∀ b ts, p { b with threads := ts } = p b) (c : Nat) : p ((s.updThread cell t f).barrel c) = p (s.barrel c) := by
  cases hx : s.thread? cell t with
  | none => rw [State.updThread_none hx]
  | some x => rw [State.updThread_some hx, State.barrel_updBarrel_keeps p (h _ _)]

theorem State.th_of_thread {s : State} {x : Thread} (h : Claims.thread s = some x) : s.th = x := by
  rw [State.th, show s.thread? s.curB.cell s.curB.thread = some x from h]; rfl

end Sys2Proof.Machine

/-! SUPPORT. Integer instructions of a thread (10_barrel R305, R306). -/

namespace Sys2Proof.Machine

open Sys2Proof

/-! ## Values at both widths -/

theorem lands_of_intW {i : Instr} {zext : Bool} {op op' : IntOp} (hi : ∀ s, exec i s = s.intW zext op) (hop : op = op') :
    Claims.lands i (Claims.sized zext op') := by
  subst hop
  exact fun s => hi s

theorem clz_op_eq : (fun n a _ => BitVec.ofNat n (if a == 0 then n else n - 1 - Nat.log2 a.toNat) : IntOp) =
    fun n a _ => BitVec.ofNat n (if a = 0 then n else n - 1 - Nat.log2 a.toNat) := by
  funext n a b
  simp only [beq_iff_eq]

theorem popc_op_eq : (fun n a _ => BitVec.ofNat n (onesIn n a.toNat) : IntOp) =
    fun n a _ => BitVec.ofNat n (((List.range n).filter fun j => a.getLsbD j).length) := by
  funext n a b
  rw [onesIn_eq_length_filter]
  rfl

theorem lands_of_value {i : Instr} {v w : State → Word} (hi : ∀ s, exec i s = .next (s.simple (s.dst (v s)))) (hv : ∀ s, v s = w s) :
    Claims.lands i w := fun s => by rw [hi s, hv s]; rfl

theorem wordBool_decide (p : Prop) [Decidable p] : wordBool (decide p) = if p then 1 else 0 := by
  by_cases hp : p <;> simp [wordBool, hp]

/-! ## Immediates and extensions -/

theorem State.toInt_imm (s : State) : s.imm.toInt = s.curB.word.imm.toInt := BitVec.toInt_signExtend_of_le (by decide)

theorem State.toNat_imm_mod (s : State) : s.imm.toNat % 64 = s.curB.word.imm.toNat % 64 := by
  have hlow : s.imm.setWidth 6 = s.curB.word.imm.setWidth 6 := by
    refine BitVec.eq_of_getLsbD_eq fun j hj => ?_
    rw [BitVec.getLsbD_setWidth, BitVec.getLsbD_setWidth, State.imm, BitVec.getLsbD_signExtend]
    simp [show j < 64 by omega, show j < 32 by omega]
  simpa using congrArg BitVec.toNat hlow

theorem sextNat_toNat (n : Nat) (a : Word) : sextNat n a.toNat = (a.setWidth n).signExtend 64 := by
  rw [sextNat, BitVec.ofNat_toNat]

theorem word_toNat_mod (n : Nat) (a : Word) : word (a.toNat % 2 ^ n) = (a.setWidth n).setWidth 64 := by
  rw [word, ← BitVec.toNat_setWidth, BitVec.ofNat_toNat]

/-- The four widths of SEXT and ZEXT (R305). -/
theorem State.extWidth_cases (s : State) :
    (s.curB.word.imm.toNat % 4 = 0 ∧ s.extWidth = 8) ∨ (s.curB.word.imm.toNat % 4 = 1 ∧ s.extWidth = 16) ∨
    (s.curB.word.imm.toNat % 4 = 2 ∧ s.extWidth = 32) ∨ (s.curB.word.imm.toNat % 4 = 3 ∧ s.extWidth = 64) := by
  have hfld : fld s.curB.word.imm 0 2 = s.curB.word.imm.toNat % 4 := by simp [fld]
  have hlt : s.curB.word.imm.toNat % 4 < 4 := Nat.mod_lt _ (by decide)
  rw [State.extWidth, hfld]
  generalize s.curB.word.imm.toNat % 4 = k at hlt
  interval_cases k <;> decide

/-- Settles O29: each instruction's value is the model's operation, the immediates read at their own width. -/
theorem barrelIntegersComplete : Obligations.BarrelIntegersComplete := by
  refine ⟨lands_of_intW (fun _ => rfl) rfl, lands_of_intW (fun _ => rfl) rfl, lands_of_intW (fun _ => rfl) rfl,
    lands_of_intW (fun _ => rfl) rfl, lands_of_intW (fun _ => rfl) rfl, lands_of_intW (fun _ => rfl) rfl,
    lands_of_intW (fun _ => rfl) rfl, lands_of_intW (fun _ => rfl) rfl, lands_of_intW (fun _ => rfl) clz_op_eq,
    lands_of_intW (fun _ => rfl) popc_op_eq, fun _ => rfl, fun _ => rfl, fun _ => rfl,
    lands_of_value (fun _ => rfl) fun s => ?slt, lands_of_value (fun _ => rfl) fun s => ?sltn, fun _ => rfl, fun _ => rfl, fun _ => rfl,
    fun _ => rfl, lands_of_value (fun _ => rfl) fun s => ?slti, lands_of_value (fun _ => rfl) fun s => ?shli,
    lands_of_value (fun _ => rfl) fun s => ?shri, lands_of_value (fun _ => rfl) fun s => ?sari, fun _ => rfl,
    lands_of_value (fun _ => rfl) fun s => ?sext, lands_of_value (fun _ => rfl) fun s => ?zext⟩
  case slt => exact wordBool_decide _
  case sltn => exact wordBool_decide _
  case slti => exact (wordBool_decide _).trans (by rw [s.toInt_imm])
  case shli | shri | sari => simp only [s.toNat_imm_mod]
  case sext =>
    rw [sextNat_toNat]
    obtain ⟨hk, hw⟩ | ⟨hk, hw⟩ | ⟨hk, hw⟩ | ⟨hk, hw⟩ := s.extWidth_cases <;> rw [hw] <;> simp [hk]
  case zext =>
    rw [word_toNat_mod]
    obtain ⟨hk, hw⟩ | ⟨hk, hw⟩ | ⟨hk, hw⟩ | ⟨hk, hw⟩ := s.extWidth_cases <;> rw [hw] <;> simp [hk]

/-! ## Divisions -/

theorem State.barrelDivide_spec (s : State) (zext : Bool) (op : IntOp) :
    ((if fbit s.curB.word.imm 0 then s.xb.setWidth 32 = (0 : BitVec 32) else s.xb = 0) →
      s.barrelDivide zext op = .next (s.bTrapAt 1 20 s.xa)) ∧
    (¬(if fbit s.curB.word.imm 0 then s.xb.setWidth 32 = (0 : BitVec 32) else s.xb = 0) →
      s.barrelDivide zext op = .next (s.finishAt (if fbit s.curB.word.imm 0 then 15 else 23)
        [.reg s.curB.word.d.toNat (Claims.sized zext op s)])) := by
  have hzero : ((if s.narrow then s.xb.setWidth 32 == (0 : BitVec 32) else s.xb == 0) = true) =
      (if fbit s.curB.word.imm 0 then s.xb.setWidth 32 = (0 : BitVec 32) else s.xb = 0) := by
    rw [State.narrow]
    split <;> rw [beq_iff_eq]
  rw [← hzero, State.barrelDivide]
  exact ⟨fun h => if_pos h, fun h => if_neg h⟩

/-- Settles O30: the four divisions are one operation, which traps exactly when the divisor at its width is zero. -/
theorem barrelDivisionsComplete : Obligations.BarrelDivisionsComplete := by
  rintro i zext op (⟨rfl, rfl, rfl⟩ | ⟨rfl, rfl, rfl⟩ | ⟨rfl, rfl, rfl⟩ | ⟨rfl, rfl, rfl⟩) s
  · exact s.barrelDivide_spec _ _
  · exact s.barrelDivide_spec _ _
  · exact s.barrelDivide_spec _ _
  · exact s.barrelDivide_spec _ _

end Sys2Proof.Machine

/-! SUPPORT. Floating-point instructions, conversions, special functions, random words and FSTAT of a thread (10_barrel R303, R307, R308,
R326 to R328). -/

namespace Sys2Proof.Machine

open Sys2Proof

/-! ## Operands -/

theorem State.fType_eq (s : State) : s.fType = Claims.fmt s := by simp only [State.fType, Claims.fmt, beq_iff_eq]

theorem State.fRnd_eq (s : State) : s.fRnd = Claims.frnd s := by simp only [State.fRnd, Claims.frnd, beq_iff_eq]

theorem State.fBits_eq (s : State) (w : Word) : s.fBits w = Claims.pattern s w := by
  have hbits : typeBits (Claims.fmt s) = if Claims.fmt s = 11 then 64 else 32 := by
    rw [Claims.fmt]
    split <;> rfl
  rw [State.fBits, State.fType_eq, hbits]
  rfl

theorem State.fa_eq (s : State) : s.fa = Claims.fval s s.xa := by rw [State.fa, State.fBits_eq, State.fType_eq]; rfl
theorem State.fb_eq (s : State) : s.fb = Claims.fval s s.xb := by rw [State.fb, State.fBits_eq, State.fType_eq]; rfl
theorem State.fd_eq (s : State) : s.fd = Claims.fval s s.xd := by rw [State.fd, State.fBits_eq, State.fType_eq]; rfl

theorem State.fDivOffset_eq (s : State) : s.fDivOffset = if Claims.fmt s = 10 then 15 else 27 := by
  simp only [State.fDivOffset, State.fType_eq, beq_iff_eq]

/-! ## Results with flags (R307) -/

section Results

variable {s : State} {offset opcode bits : Nat} {flags : Flags}

theorem State.fput_lands (h : s.th.en &&& flags = 0) : s.fput offset opcode bits flags =
    .next (s.finishAt offset (.reg s.curB.word.d.toNat (BitVec.ofNat 64 bits) :: if flags = 0 then [] else [.flags flags])) := by
  rw [State.fput, if_neg (by simp [h])]
  simp only [beq_iff_eq]
  rfl

theorem State.fput_traps (h : s.th.en &&& flags ≠ 0) : s.fput offset opcode bits flags =
    .next ((s.landAt s.curB.cell s.curB.thread (s.clk + offset) s.clk [.flags flags]).bTrapAt offset 21
      (BitVec.ofNat 64 (flags.toNat + opcode * 256))) := by
  rw [State.fput, if_pos (by simpa using h)]
  rfl

end Results

theorem floats_of_fput {i : Instr} {offset : State → Nat} {opcode : Nat} {r : State → Nat × Flags}
    (hi : ∀ s, exec i s = s.fput (offset s) opcode (r s).1 (r s).2) : Claims.floats i offset opcode r := fun s =>
  ⟨fun h => (hi s).trans (State.fput_lands h), fun h => (hi s).trans (State.fput_traps h)⟩

theorem State.frounded_eq (s : State) (offset opcode : Nat) (v : Val × Flags) :
    s.frounded offset opcode v = s.fput offset opcode (Claims.fround s v).1 (Claims.fround s v).2 := by
  rw [State.frounded, State.fType_eq, State.fRnd_eq]
  rfl

theorem floats_of_rounded {i : Instr} {offset : State → Nat} {opcode : Nat} {v w : State → Val × Flags}
    (hi : ∀ s, exec i s = s.frounded (offset s) opcode (v s)) (hv : ∀ s, v s = w s) :
    Claims.floats i offset opcode fun s => Claims.fround s (w s) :=
  floats_of_fput fun s => by rw [hi s, hv s, State.frounded_eq]

theorem floats_of_bits {i : Instr} {opcode : Nat} {r q : State → Nat × Flags} (hi : ∀ s, exec i s = s.fbits2 opcode (r s))
    (hr : ∀ s, r s = q s) : Claims.floats i (fun _ => 7) opcode q :=
  floats_of_fput fun s => by rw [hi s, hr s, State.fbits2]

/-- Settles O31: the rounded results and those given as patterns are put by one operation; the operands are those of the statement. -/
theorem barrelFloatsComplete : Obligations.BarrelFloatsComplete := by
  refine ⟨floats_of_rounded (fun _ => rfl) fun s => ?_, floats_of_rounded (fun _ => rfl) fun s => ?_, floats_of_rounded (fun _ => rfl) fun s => ?_,
    floats_of_rounded (v := fun s => divVal s.fa s.fb) (fun s => ?div) fun s => ?_,
    floats_of_rounded (v := fun s => (sqrtVal s.fa, 0)) (fun s => ?sqrt) fun s => ?_, floats_of_rounded (fun _ => rfl) fun s => ?_,
    floats_of_rounded (fun _ => rfl) fun s => ?_, floats_of_rounded (fun _ => rfl) fun s => ?_, floats_of_bits (fun _ => rfl) fun s => ?_,
    floats_of_bits (fun _ => rfl) fun s => ?_, floats_of_bits (fun _ => rfl) fun s => ?cmp, floats_of_bits (fun _ => rfl) fun s => ?_,
    floats_of_bits (fun _ => rfl) fun s => ?_, floats_of_bits (fun _ => rfl) fun s => ?_⟩
  case div | sqrt => exact congrArg (fun n => s.frounded n _ _) s.fDivOffset_eq
  case cmp =>
    simp only [State.fType_eq, State.fBits_eq, Bool.toNat, Bool.cond_eq_ite]
  all_goals simp only [State.fa_eq, State.fb_eq, State.fd_eq, State.fType_eq, State.fRnd_eq, State.fBits_eq, State.fOpt]

/-! ## Conversions (R308) -/

/-- The state of a thread that has drawn a word of its stream for a conversion, under rsr (R308, R328). -/
def State.fcvtDrawn (s : State) : State := if Claims.frnd s = 5 then s.updTh fun t => { t with src := t.src + 1 } else s

@[simp] theorem State.fcvtDrawn_curB (s : State) : s.fcvtDrawn.curB = s.curB := by
  unfold State.fcvtDrawn State.updTh
  split <;> simp

@[simp] theorem State.fcvtDrawn_clk (s : State) : s.fcvtDrawn.clk = s.clk := by
  unfold State.fcvtDrawn State.updTh
  split <;> simp

/-- What FCVT writes: an integer is extended by its sign. -/
def fcvtValue (tt bits : Nat) : Nat := if tt < 4 then (sextNat (typeBits tt) bits).toNat else bits

theorem word_fcvtValue (tt bits : Nat) : (4 ≤ tt → word (fcvtValue tt bits) = BitVec.ofNat 64 bits) ∧
    (tt < 4 → word (fcvtValue tt bits) = (BitVec.ofNat (typeBits tt) bits).signExtend 64) := by
  refine ⟨fun h => ?_, fun h => ?_⟩
  · rw [fcvtValue, if_neg (by omega), word]
  · rw [fcvtValue, if_pos h, word, BitVec.ofNat_toNat, BitVec.setWidth_eq, sextNat]

theorem exec_fcvt (s : State) :
    let tt := fld s.curB.word.imm 16 5
    let ts := fld s.curB.word.imm 8 5
    let w := if Claims.frnd s = 5 then (philox s.th.src.toNat s.th.srk.toNat).head?.getD 0 else 0
    let r := convert ts tt (s.xa.toNat % 2 ^ typeBits ts) (Claims.frnd s) (fbit s.curB.word.imm 3) w
    exec .fcvt s = s.fcvtDrawn.fput 7 0x2C (fcvtValue tt r.1) r.2 := by
  intro tt ts w r
  show execFcvt s = _
  simp only [execFcvt, State.fRnd_eq, beq_iff_eq, List.headD_eq_head?_getD]
  rfl

theorem fcvt_completes (s : State) :
    let tt := fld s.curB.word.imm 16 5
    let ts := fld s.curB.word.imm 8 5
    let w := if Claims.frnd s = 5 then (philox s.th.src.toNat s.th.srk.toNat).head?.getD 0 else 0
    let r := convert ts tt (s.xa.toNat % 2 ^ typeBits ts) (Claims.frnd s) (fbit s.curB.word.imm 3) w
    (s.fcvtDrawn.th.en &&& r.2 = 0 →
      ∃ v : Word, exec .fcvt s = .next (s.fcvtDrawn.finishAt 7 (.reg s.curB.word.d.toNat v :: (if r.2 = 0 then [] else [.flags r.2]))) ∧
        (4 ≤ tt → v = BitVec.ofNat 64 r.1) ∧ (tt < 4 → v = (BitVec.ofNat (typeBits tt) r.1).signExtend 64)) ∧
    (s.fcvtDrawn.th.en &&& r.2 ≠ 0 → exec .fcvt s = .next
      ((s.fcvtDrawn.landAt s.curB.cell s.curB.thread (s.clk + 7) s.clk [.flags r.2]).bTrapAt 7 21 (BitVec.ofNat 64 (r.2.toNat + 0x2C * 256)))) := by
  intro tt ts w r
  refine ⟨fun h => ⟨word (fcvtValue tt r.1), ?_, word_fcvtValue tt r.1⟩, fun h => ?_⟩
  · rw [exec_fcvt, State.fput_lands h, State.fcvtDrawn_curB]
    rfl
  · rw [exec_fcvt, State.fput_traps h, State.fcvtDrawn_curB, State.fcvtDrawn_clk]

/-! ## Special functions (R326, R327) -/

/-- What is in flight adds to the flights of one core and to what is due. -/
theorem State.barrel_landAt_keeps {α : Type} {s : State} {cell t due issued : Nat} {ws : List BarrelWrite} (p : BarrelCore → α)
    (h : ∀ b fs, p { b with flights := fs } = p b) (c : Nat) : p ((s.landAt cell t due issued ws).barrel c) = p (s.barrel c) := by
  unfold State.landAt
  split
  · rfl
  · rfl
  · rw [State.barrel_at', State.barrel_updBarrel_keeps p (h _ _)]

theorem State.mem_landAt (s : State) (cell t due issued : Nat) (ws : List BarrelWrite) : (s.landAt cell t due issued ws).mem = s.mem := by
  unfold State.landAt
  split <;> simp

/-- A quantity of barrel cores that reads neither the threads nor what is in flight is kept by what an instruction finishes with. -/
theorem State.barrel_finishAt_keeps {α : Type} {s : State} {offset : Nat} {ws : List BarrelWrite} (p : BarrelCore → α)
    (hf : ∀ b fs, p { b with flights := fs } = p b) (ht : ∀ b ts, p { b with threads := ts } = p b) (c : Nat) :
    p ((s.finishAt offset ws).barrel c) = p (s.barrel c) := by
  rw [State.finishAt, State.goOn, State.issueFrom, State.barrel_at', State.updTh, State.barrel_updThread_keeps p ht,
    State.barrel_landAt_keeps p hf]

theorem State.mem_finishAt (s : State) (offset : Nat) (ws : List BarrelWrite) : (s.finishAt offset ws).mem = s.mem := by
  simp [State.finishAt, State.goOn, State.issueFrom, State.updTh, State.mem_landAt]

/-- The request that SFN enters (R326). -/
def State.sfnAsks (s : State) : SfnRequest :=
  let r := special (fld s.curB.word.imm 8 4) s.fType (s.fBits s.xa) s.fRnd s.fSat
  { thread := s.curB.thread, uid := s.th.uid, dest := s.curB.word.d.toNat, value := word r.1, flags := r.2, single := s.fType == 10,
    entered := s.clk + 1, lands := none }

theorem exec_sfn (s : State) : exec .sfn s =
    .next (((s.updBarrel s.curB.cell fun b => { b with sfn := b.sfn ++ [s.sfnAsks] }).at'
      (max (s.clk + 1) ((s.barrel s.curB.cell).sfnStart.elim 0 (· + 4))) phNet (s.curB.cell * 64) (.op (.sfnStart s.curB.cell))).simple []) := rfl

theorem sfn_enters (s : State) : ∃ t, exec .sfn s = .next t ∧ t.mem = s.mem ∧
    ∃ q, (t.barrel s.curB.cell).sfn = (s.barrel s.curB.cell).sfn ++ [q] ∧
      q.thread = s.curB.thread ∧ q.dest = s.curB.word.d.toNat ∧ q.entered = s.clk + 1 ∧ q.lands = none ∧
      q.value = BitVec.ofNat 64 (special (fld s.curB.word.imm 8 4) (Claims.fmt s) (Claims.pattern s s.xa) (Claims.frnd s)
        (fbit s.curB.word.imm 3)).1 := by
  refine ⟨_, exec_sfn s, ?_, s.sfnAsks, ?_, rfl, rfl, rfl, rfl, ?_⟩
  · rw [State.simple, State.mem_finishAt, State.at'_mem, State.updBarrel_mem]
  · rw [State.simple, State.barrel_finishAt_keeps BarrelCore.sfn (fun _ _ => rfl) (fun _ _ => rfl), State.barrel_at',
      State.barrel_updBarrel_self]
  · rw [State.sfnAsks, State.fType_eq, State.fRnd_eq, State.fBits_eq]
    rfl

theorem exec_fgetf (s : State) :
    exec .fgetf s = .next ((if fbit s.curB.word.imm 6 then s.updTh fun t => { t with flags := 0 } else s).simple
      [.reg s.curB.word.d.toNat (BitVec.ofNat 64 (s.th.rnd * 2 ^ 16 + s.th.en.toNat * 2 ^ 8 + s.th.flags.toNat))]) := rfl

/-- Settles O32: a conversion draws and is put like the other results; the rest is each instruction's one effect. -/
theorem barrelUnitsComplete : Obligations.BarrelUnitsComplete :=
  ⟨fcvt_completes, sfn_enters, fun _ => rfl, fun _ => rfl, exec_fgetf⟩

end Sys2Proof.Machine

/-! SUPPORT. What the steps of a thread leave as they are: the memory, the texts, the timed cores, the counter and the registers of the
barrel cores (10_barrel R287 to R289). -/

namespace Sys2Proof.Machine

open Sys2Proof

/-- From `s` to `t` no byte of memory, no timed core, no counter and no common register changes, and where `files` holds no register of a
thread. -/
structure State.Frame (files : Prop) (s t : State) : Prop where
  mem    : t.mem = s.mem
  text   : t.text = s.text
  cores  : t.cores = s.cores
  tick   : t.tick = s.tick
  clk    : t.clk = s.clk
  common : ∀ c, (t.barrel c).common = (s.barrel c).common
  file   : files → ∀ c, (t.barrel c).file = (s.barrel c).file

namespace State.Frame

variable {files : Prop} {s t u : State}

theorem refl (files : Prop) (s : State) : s.Frame files s := ⟨rfl, rfl, rfl, rfl, rfl, fun _ => rfl, fun _ _ => rfl⟩

theorem trans (h : s.Frame files t) (hu : t.Frame files u) : s.Frame files u where
  mem := hu.mem.trans h.mem
  text := hu.text.trans h.text
  cores := hu.cores.trans h.cores
  tick := hu.tick.trans h.tick
  clk := hu.clk.trans h.clk
  common c := (hu.common c).trans (h.common c)
  file hf c := (hu.file hf c).trans (h.file hf c)

theorem ite {c : Prop} [Decidable c] (ht : s.Frame files t) (hu : s.Frame files u) : s.Frame files (if c then t else u) := by
  split
  · exact ht
  · exact hu

theorem foldl {α : Type} {f : State → α → State} (hf : ∀ {u : State} {a}, s.Frame files u → s.Frame files (f u a)) {l : List α}
    (h : s.Frame files t) : s.Frame files (l.foldl f t) := List.foldlRecOn l f h fun _ hu _ _ => hf hu

/-! ## Steps beside the barrel cores -/

theorem beside (h : s.Frame files t) (hm : u.mem = t.mem) (hx : u.text = t.text) (hc : u.cores = t.cores) (hk : u.tick = t.tick)
    (hl : u.clk = t.clk) (hb : u.barrels = t.barrels) : s.Frame files u :=
  h.trans ⟨hm, hx, hc, hk, hl, fun c => by rw [State.barrel_of_barrels hb], fun _ c => by rw [State.barrel_of_barrels hb]⟩

theorem at' {due phase key item} (h : s.Frame files t) : s.Frame files (t.at' due phase key item) :=
  h.beside (by simp) (by simp) (by simp) (by simp) (by simp) (by simp)

theorem after {n phase key item} (h : s.Frame files t) : s.Frame files (t.after n phase key item) := h.at'

theorem updPkg {f} (h : s.Frame files t) : s.Frame files (t.updPkg f) := h.beside rfl rfl rfl rfl rfl rfl

theorem updReq {id f} (h : s.Frame files t) : s.Frame files (t.updReq id f) :=
  h.beside (by simp) (by simp) (by simp) (by simp) (by simp) (by simp)

theorem shut {who p} (h : s.Frame files t) : s.Frame files (t.shut who p) := h.beside rfl rfl rfl rfl rfl rfl

theorem updGroup {g f} (h : s.Frame files t) : s.Frame files (t.updGroup g f) := h.beside rfl rfl rfl rfl rfl rfl

theorem send {src dest cls phase key item} (h : s.Frame files t) : s.Frame files (t.send src dest cls phase key item) := by
  obtain ⟨_, _, _, -, heq⟩ := t.send_cases src dest cls phase key item
  rw [heq]
  exact h.beside rfl rfl rfl rfl rfl rfl

theorem startWalk {plate ctx va write fetch user} (h : s.Frame files t) :
    s.Frame files (t.startWalk plate ctx va write fetch user) := by
  obtain ⟨_, _, _, heq⟩ := t.startWalk_cases plate ctx va write fetch user
  rw [heq]
  exact h.beside rfl rfl rfl rfl rfl rfl

theorem postMessage {plate m} (h : s.Frame files t) : s.Frame files (t.postMessage plate m) := ite h.updPkg.after h.updPkg

theorem issueFrom {cell due} (h : s.Frame files t) : s.Frame files (t.issueFrom cell due) := h.at'

theorem arbiter {cell} (h : s.Frame files t) : s.Frame files (t.arbiter cell) := h.at'

theorem offerTasks {cells} (h : s.Frame files t) : s.Frame files (t.offerTasks cells) := foldl at' h

theorem dispatchFrom {cell} (h : s.Frame files t) : s.Frame files (t.dispatchFrom cell) := offerTasks (ite h.at' h)

/-! ## Steps of barrel cores and threads -/

theorem updBarrel {cell} {f : BarrelCore → BarrelCore} (h : s.Frame files t) (hc : ∀ b, (f b).common = b.common)
    (hf : files → ∀ b, (f b).file = b.file) : s.Frame files (t.updBarrel cell f) :=
  h.trans ⟨rfl, rfl, rfl, rfl, rfl, State.barrel_updBarrel_keeps _ (hc _), fun hfs => State.barrel_updBarrel_keeps _ (hf hfs _)⟩

theorem updThread {cell n f} (h : s.Frame files t) : s.Frame files (t.updThread cell n f) := by
  cases hx : t.thread? cell n with
  | none => rwa [State.updThread_none hx]
  | some x =>
    rw [State.updThread_some hx]
    exact h.updBarrel (fun _ => rfl) fun _ _ => rfl

theorem updTh {f} (h : s.Frame files t) : s.Frame files (t.updTh f) := h.updThread

theorem landAt {cell n due issued ws} (h : s.Frame files t) : s.Frame files (t.landAt cell n due issued ws) := by
  unfold State.landAt
  split
  · exact h
  · exact h
  · refine at' (h.updBarrel ?_ ?_)
    · exact fun _ => rfl
    · exact fun _ _ => rfl

theorem unblock {cell n} (h : s.Frame files t) : s.Frame files (t.unblock cell n) := by
  unfold State.unblock
  split
  · exact h
  · exact h.updThread.issueFrom

theorem completes {cell n ws} (h : s.Frame files t) : s.Frame files (t.completes cell n ws) := h.landAt.unblock

theorem goOn {pc offset} (h : s.Frame files t) : s.Frame files (t.goOn pc offset) := h.updTh.issueFrom

theorem jumpTo {pc} (h : s.Frame files t) : s.Frame files (t.jumpTo pc) := h.goOn

theorem finishAt {offset ws} (h : s.Frame files t) : s.Frame files (t.finishAt offset ws) := goOn h.landAt

theorem simple {ws} (h : s.Frame files t) : s.Frame files (t.simple ws) := h.finishAt

theorem await {st w} (h : s.Frame files t) : s.Frame files (t.await st w) := h.updTh

theorem trapThread {cell n cause val epc issued detected} (h : s.Frame files t) :
    s.Frame files (t.trapThread cell n cause val epc issued detected) := h.updThread.at'

theorem bTrapAt {offset cause val} (h : s.Frame files t) : s.Frame files (t.bTrapAt offset cause val) := h.trapThread

/-! ## Requests -/

theorem enqueue {id} (h : s.Frame files t) : s.Frame files (t.enqueue id) := by
  unfold State.enqueue
  split
  · exact h
  · refine arbiter (at' (h.updReq.updBarrel ?_ ?_))
    · exact fun _ => rfl
    · exact fun _ _ => rfl

theorem enter {r} (h : s.Frame files t) : s.Frame files (t.enter r) :=
  await (t := { t with requests := t.requests.set t.nextId r, nextId := t.nextId + 1 }) (h.beside rfl rfl rfl rfl rfl rfl)

theorem toBanks {id due} (h : s.Frame files t) : s.Frame files (t.toBanks id due) := by
  unfold State.toBanks
  split
  · exact h
  · exact h.updReq.at'

theorem reply {id router answer fault} (h : s.Frame files t) : s.Frame files (t.reply id router answer fault) := by
  unfold State.reply
  split
  · exact h
  · exact h.updReq.send

theorem message {kind va scope} (h : s.Frame files t) : s.Frame files (t.message kind va scope) := h.enter.enqueue

theorem sxSend {op cluster func} (h : s.Frame files t) : s.Frame files (t.sxSend op cluster func) := h.enter.enqueue

theorem proofSend {op func} (h : s.Frame files t) : s.Frame files (t.proofSend op func) := h.enter.enqueue

theorem admitSender {cell n} (h : s.Frame files t) : s.Frame files (t.admitSender cell n) := by
  unfold State.admitSender
  split
  · exact h
  · split
    · exact h
    · dsimp only
      split
      · split
        · exact h.updThread.updThread.reply
        · exact h.updThread
      · exact h.updThread

theorem acquireMessage {cell n m scope} (h : s.Frame files t) : s.Frame files (t.acquireMessage cell n m scope) := by
  unfold State.acquireMessage
  split
  · exact ite h.shut h
  · exact h

theorem fences {cell n kind scope} (h : s.Frame files t) : s.Frame files (t.fences cell n kind scope) := by
  unfold State.fences
  split
  · exact h
  · extract_lets a v met s1 s2
    have h1 : s.Frame files s1 := h.ite h.shut
    have h2 : s.Frame files s2 := h1.ite h1.shut
    exact h2.ite h2.updThread

/-! ## The generation token, and ends of threads -/

theorem offerToken {g} (h : s.Frame files t) : s.Frame files (t.offerToken g) := by
  unfold State.offerToken
  dsimp only
  refine h.ite ?_
  split
  · exact h
  · exact completes (shut h.updGroup)

theorem passToken {g orphan} (h : s.Frame files t) : s.Frame files (t.passToken g orphan) := h.updGroup.offerToken

theorem childEnded {parent killed} (h : s.Frame files t) : s.Frame files (t.childEnded parent killed) := by
  unfold State.childEnded
  split
  · exact h
  · split
    · exact h
    · dsimp only
      split
      · exact ite h.updThread.updThread.completes h.updThread
      · exact h.updThread

/-- A thread that ends frees its registers (R340), and no others: the file is kept apart. -/
theorem freeThread {cell n} (h : s.Frame files t) (hfiles : ¬files) : s.Frame files (t.freeThread cell n) := by
  unfold State.freeThread
  split
  · exact h
  · extract_lets s1 s2 s3
    have h1 : s.Frame files s1 := h.updBarrel (fun _ => rfl) fun hf => absurd hf hfiles
    have h2 : s.Frame files s2 := foldl (fun {u _} hu => (hu.updGroup).passToken.postMessage.ite hu.updGroup) h1
    have h3 : s.Frame files s3 := foldl (fun hu => hu.reply) h2.shut.dispatchFrom
    exact h3.after.ite h3

theorem tryExit {cell n} (h : s.Frame files t) (hfiles : ¬files) : s.Frame files (t.tryExit cell n) := by
  unfold State.tryExit
  split
  · exact h
  · exact h.ite (h.childEnded.freeThread hfiles)

/-- A thread that migrates or passes a token looks again at what it waits for. -/
theorem recheck {cell n} (h : s.Frame files t)
    (hwait : ∀ x, t.thread? cell n = some x → (∃ d k, x.wait = .migrate d k) ∨ ∃ d g, x.wait = .pass d g) :
    s.Frame files (t.recheck cell n) := by
  unfold State.recheck
  split
  · exact h
  · next x hx =>
    extract_lets free s1
    have h1 : s.Frame files s1 := h.at'.ite h
    obtain ⟨d, k, hw⟩ | ⟨d, g, hw⟩ := hwait x hx
    · rw [hw]
      exact h1.updThread.after.ite h1
    · rw [hw]
      exact h1.ite h1.passToken.completes

end State.Frame

/-! ## Outcomes of an instruction -/

/-- An instruction's outcome, where it goes on, keeps the frame. -/
def State.Frames (files : Prop) (s : State) (r : Result) : Prop := ∀ t, r = .next t → s.Frame files t

namespace State.Frames

variable {files : Prop} {s t : State}

theorem next (h : s.Frame files t) : s.Frames files (.next t) := fun _ hu => by
  cases hu
  exact h

theorem ite {c : Prop} [Decidable c] {r q : Result} (hr : s.Frames files r) (hq : s.Frames files q) :
    s.Frames files (if c then r else q) := by
  split
  · exact hr
  · exact hq

theorem bTrap {cause val} (h : s.Frame files t) : s.Frames files (t.bTrap cause val) := next h.bTrapAt

theorem bTrapOpen {cause} (h : s.Frame files t) : s.Frames files (t.bTrapOpen cause) :=
  bTrap (h.beside (by simp) (by simp) (by simp) (by simp) (by simp) (by simp))

theorem bGuard {f} {k : State → State} (h : s.Frame files t) (hk : s.Frame files (k t)) : s.Frames files (t.bGuard f k) := by
  unfold State.bGuard
  split
  · exact bTrap h
  · exact next hk

theorem simple {ws} : s.Frames files (.next (s.simple ws)) := next (.simple (.refl _ s))

/-! ## Values -/

theorem divide {zext op} : s.Frames files (s.barrelDivide zext op) := ite (bTrap (.refl _ s)) (next (.finishAt (.refl _ s)))

theorem fput {offset opcode bits flags} (h : s.Frame files t) : s.Frames files (t.fput offset opcode bits flags) :=
  ite (next (State.Frame.bTrapAt h.landAt)) (next h.finishAt)

theorem put {offset opcode bits flags} : s.Frames files (s.fput offset opcode bits flags) := fput (.refl _ s)

theorem branch {c} : s.Frames files (s.branch c) := next (.jumpTo (.refl _ s))

/-! ## Requests -/

theorem localAccess {r} (h : s.Frame files t) : s.Frames files (t.localAccess r) :=
  ite (bTrap h) (next (h.enter.enqueue.ite h.enter.toBanks))

theorem device {r} (h : s.Frame files t) : s.Frames files (t.device r) := by
  unfold State.device
  dsimp only
  split
  · exact bTrap h
  · exact bGuard h h.enter.enqueue
  · exact next h.enter.startWalk

theorem memAccess {sp align r} : s.Frames files (s.memAccess sp align r) :=
  ite (bTrap (.refl _ s)) (ite (localAccess (.refl _ s)) (device (.refl _ s)))

theorem sxOpening {op align} : s.Frames files (s.sxOpening op align) := by
  unfold State.sxOpening
  exact bGuard (.refl _ s) (.sxSend (.refl _ s))

theorem sxHandle {op buffer} : s.Frames files (s.sxHandle op buffer) := bGuard (.refl _ s) (.sxSend (.refl _ s))

theorem proof {f op func} : s.Frames files (s.bGuard f fun s => s.proofSend op func) := bGuard (.refl _ s) (.proofSend (.refl _ s))

theorem callTo {target} : s.Frames files (s.callTo target) :=
  ite (next (.jumpTo (.updTh (.refl _ s)))) (ite (bTrap (.refl _ s)) (ite (bTrap (.refl _ s)) (next (.updTh (.toBanks (.enter (.refl _ s)))))))

end State.Frames

end Sys2Proof.Machine

/-! SUPPORT. The frame of each instruction of a thread (10_barrel R287 to R289, R305 to R328; 11_barrel_traps R337 to R340; 12_draft R381 to R386;
13_proof R411). -/

namespace Sys2Proof.Machine

open Sys2Proof

variable {files : Prop} {s : State}

/-! ## Waits -/

/-- A thread that has begun to wait waits for that. -/
theorem State.wait_await {st : ThreadState} {w : Wait} {x : Thread}
    (h : (s.await st w).thread? s.curB.cell s.curB.thread = some x) : x.wait = w := by
  rw [State.await, State.updTh, State.thread?_updThread_self] at h
  obtain ⟨y, -, rfl⟩ := Option.map_eq_some_iff.mp h
  rfl

theorem frames_emigr : s.Frames files (exec .emigr s) := by
  have hwait (d k : Nat) : s.Frame files ((s.await .blocked (.migrate d k)).recheck s.curB.cell s.curB.thread) :=
    (State.Frame.refl _ s).await.recheck fun x hx => .inl ⟨d, k, State.wait_await hx⟩
  exact .ite (.bTrap (.refl _ s)) (.ite (.bTrap (.refl _ s)) (.ite .simple (.next (hwait _ _))))

theorem frames_tokpass : s.Frames files (exec .tokpass s) := by
  have hwait (d g : Nat) : s.Frame files ((s.await .blocked (.pass d g)).recheck s.curB.cell s.curB.thread) :=
    (State.Frame.refl _ s).await.recheck fun x hx => .inr ⟨d, g, State.wait_await hx⟩
  show s.Frames files (execTokpass s)
  unfold execTokpass
  exact .bGuard (.refl _ s) (hwait _ _)

theorem frames_tokwait : s.Frames files (exec .tokwait s) := by
  show s.Frames files (execTokwait s)
  unfold execTokwait
  exact .bGuard (.refl _ s) (State.Frame.refl _ s).await.updGroup.offerToken

theorem frames_park : s.Frames files (exec .park s) :=
  .ite (.next (State.Frame.refl _ s).shut.updTh.simple) (.next (State.Frame.refl _ s).await)

theorem frames_barrelFence : s.Frames files (exec .barrelFence s) :=
  .ite (.next (State.Frame.refl _ s).fences.simple) (.next (State.Frame.refl _ s).await)

theorem frames_yld : s.Frames files (exec .yld s) := .ite .simple (.next (State.Frame.refl _ s).updTh.goOn)

/-! ## Children and ends -/

theorem frames_fork : s.Frames files (exec .fork s) := by
  have hpush (e : DequeEntry) : s.Frame files (s.updBarrel s.curB.cell fun b => { b with deque := e :: b.deque }) :=
    (State.Frame.refl _ s).updBarrel (fun _ => rfl) fun _ _ => rfl
  exact .ite (.bTrapOpen (.refl _ s)) (.ite (.bTrap (.refl _ s)) (.next (hpush _).updTh.simple.offerTasks))

theorem frames_join : s.Frames files (exec .join s) :=
  .ite (.bTrapOpen (.refl _ s)) (.ite (.next (State.Frame.refl _ s).updTh.simple) (.next (State.Frame.refl _ s).await))

theorem frames_exit (hfiles : ¬files) : s.Frames files (exec .exit s) :=
  .next ((State.Frame.refl _ s).await.updTh.tryExit hfiles)

/-! ## Calls and jumps -/

theorem frames_jmpr : s.Frames files (exec .jmpr s) := by
  show s.Frames files (execJmpr s)
  unfold execJmpr
  exact .bGuard (.refl _ s) (State.Frame.refl _ s).landAt.jumpTo

theorem frames_callr : s.Frames files (exec .callr s) := by
  show s.Frames files (execCallr s)
  unfold execCallr
  split
  · exact .bTrap (.refl _ s)
  · exact .callTo

theorem frames_barrelRet : s.Frames files (exec .barrelRet s) := by
  show s.Frames files (execBarrelRet s)
  unfold execBarrelRet
  dsimp only
  split
  · exact .next (State.Frame.refl _ s).updTh.jumpTo
  · exact .ite (.bTrap (.refl _ s)) (.localAccess (.refl _ s))

theorem frames_rte : s.Frames files (exec .rte s) := .ite (.bTrap (.refl _ s)) (.next (State.Frame.refl _ s).updTh.jumpTo)

/-! ## Messages and tasks -/

theorem frames_recv : s.Frames files (exec .recv s) := by
  show s.Frames files (execRecv s)
  unfold execRecv
  dsimp only
  split
  · exact .next (State.Frame.refl _ s).await
  · exact .next (State.Frame.refl _ s).updTh.acquireMessage.admitSender.simple

theorem frames_send : s.Frames files (exec .send s) :=
  .ite (.bTrap (.refl _ s)) (.ite (.next (State.Frame.refl _ s).message) (.ite (.bTrap (.refl _ s)) (.next (State.Frame.refl _ s).message)))

theorem frames_wake : s.Frames files (exec .wake s) := .ite (.bTrap (.refl _ s)) (.next (State.Frame.refl _ s).message)

theorem frames_tqput : s.Frames files (exec .tqput s) :=
  .ite (.bTrap (.refl _ s)) (.ite (.bTrap (.refl _ s)) (.ite (.bTrap (.refl _ s)) (.ite (.localAccess (.refl _ s)) (.device (.refl _ s)))))

theorem frames_tqget : s.Frames files (exec .tqget s) := by
  have htake (ps : List TaskPacket) : s.Frame files (s.updBarrel s.curB.cell fun b => { b with tasks := ps }) :=
    (State.Frame.refl _ s).updBarrel (fun _ => rfl) fun _ _ => rfl
  show s.Frames files (execTqget s)
  unfold execTqget
  refine .ite (.bTrap (.refl _ s)) (.ite (.bTrap (.refl _ s)) ?_)
  split
  · exact .simple
  · exact .ite (.localAccess (htake _).dispatchFrom) (.device (.refl _ s))

theorem frames_smpd : s.Frames files (exec .smpd s) := .ite (.next (State.Frame.refl _ s).enter.enqueue) .memAccess

/-! ## Units -/

theorem frames_sfn : s.Frames files (exec .sfn s) := by
  have henter (q : SfnRequest) : s.Frame files (s.updBarrel s.curB.cell fun b => { b with sfn := b.sfn ++ [q] }) :=
    (State.Frame.refl _ s).updBarrel (fun _ => rfl) fun _ _ => rfl
  exact .next (henter _).at'.simple

theorem frames_fcvt : s.Frames files (exec .fcvt s) := .fput (.ite (State.Frame.refl _ s).updTh (.refl _ s))

theorem frames_fgetf : s.Frames files (exec .fgetf s) := .next (.simple (.ite (State.Frame.refl _ s).updTh (.refl _ s)))

theorem frames_barrelPrel : s.Frames files (exec .barrelPrel s) := by
  have hrelease (r : Release) : s.Frame files { s with releases := s.releases ++ [r] } :=
    (State.Frame.refl _ s).beside rfl rfl rfl rfl rfl rfl
  show s.Frames files (execBarrelPrel s)
  unfold execBarrelPrel
  exact .bGuard (.refl _ s) (hrelease _).updTh.proofSend

/-! ## Every instruction -/

/-- Every instruction of a thread keeps the frame; EXIT apart, the register files too. -/
theorem frames_exec {i : Instr} (hslot : 10 ∈ slotsOf i) (s : State) : s.Frames (i ≠ .exit) (exec i s) := by
  have hmem : (slotsOf i).contains 10 = true := List.contains_iff_mem.mpr hslot
  clear hslot
  cases i
  case barrelAdd | barrelAddi | barrelSub | barrelMul | barrelMulh | barrelMulhn | barrelAnd | andi | barrelOr | ori | barrelXor | xori
      | barrelShl | shli | barrelShr | shri | barrelSar | sari | slt | sltn | slti | barrelLih | barrelClz | barrelPopc | sext | zext
      | fsetf | setc => exact .simple
  case barrelDiv | barrelDivn | barrelRem | barrelRemn => exact .divide
  case fadd | fsub | fmul | fdiv | fsqrt | fma | fms | fnma | fmin | fmax | fcmp | fcls | fsgn | frnd => exact .put
  case ld | st | lde | ste | ldp | amo | cas | wld | wst | wpost | mcast => exact .memAccess
  case beq => exact .branch (c := (· == ·))
  case bne => exact .branch (c := (· != ·))
  case blt => exact .branch (c := BitVec.slt)
  case bge => exact .branch (c := fun a b => !a.slt b)
  case bltn => exact .branch (c := BitVec.ult)
  case bgen => exact .branch (c := fun a b => !a.ult b)
  case jmp => exact .next (.jumpTo (.refl _ s))
  case barrelCall => exact .callTo
  case sxopen | sxload => exact .sxOpening
  case sxapp | sxqry | sxrep | sxsave | sxclose => exact .sxHandle
  case propen | barrelPseal | pcheck | prest | prpt => exact .proof
  case rngpx => exact .next (.finishAt (.refl _ s))
  case getc => exact .next (State.Frame.refl _ s).simple.after
  case barrelTrap => exact .next (.trapThread (.refl _ s))
  case exit => exact frames_exit (fun h => h rfl)
  case barrelPrel => exact frames_barrelPrel
  case fcvt => exact frames_fcvt
  case fgetf => exact frames_fgetf
  case sfn => exact frames_sfn
  case smpd => exact frames_smpd
  case tqget => exact frames_tqget
  case tqput => exact frames_tqput
  case wake => exact frames_wake
  case send => exact frames_send
  case recv => exact frames_recv
  case rte => exact frames_rte
  case barrelRet => exact frames_barrelRet
  case callr => exact frames_callr
  case jmpr => exact frames_jmpr
  case join => exact frames_join
  case fork => exact frames_fork
  case yld => exact frames_yld
  case barrelFence => exact frames_barrelFence
  case park => exact frames_park
  case tokwait => exact frames_tokwait
  case tokpass => exact frames_tokpass
  case emigr => exact frames_emigr
  all_goals exact absurd hmem Bool.false_ne_true

/-- Settles O58: the frame of every instruction of a thread, in the words of the statement. -/
theorem barrelInstructionsFrame : Obligations.BarrelInstructionsFrame := fun _ s t hslot hexec => by
  have h := frames_exec hslot s t hexec
  exact ⟨h.mem, h.text, h.cores, h.tick, h.clk, fun c => ⟨h.common c, fun hi => h.file hi c⟩⟩

end Sys2Proof.Machine

/-! SUPPORT. Branches, jumps, calls and returns of a thread (10_barrel R315, R316; 03_encoding R81). -/

namespace Sys2Proof.Machine

open Sys2Proof

variable {s : State}

/-! ## Branches -/

theorem branch_spec {i : Instr} {c c' : Word → Word → Bool} (hi : ∀ s, exec i s = s.branch c) (hc : ∀ a b, c a b = c' a b) (s : State) :
    exec i s = .next (s.jumpTo (if c' s.xa s.xb then Claims.target s else s.th.pc + 8)) := by
  rw [hi, State.branch, hc]
  rfl

theorem exec_beq (s : State) : exec .beq s = s.branch (· == ·) := rfl
theorem exec_bne (s : State) : exec .bne s = s.branch (· != ·) := rfl
theorem exec_blt (s : State) : exec .blt s = s.branch BitVec.slt := rfl
theorem exec_bge (s : State) : exec .bge s = s.branch fun a b => !a.slt b := rfl
theorem exec_bltn (s : State) : exec .bltn s = s.branch BitVec.ult := rfl
theorem exec_bgen (s : State) : exec .bgen s = s.branch fun a b => !a.ult b := rfl

/-- The six comparisons (R315). -/
theorem branches_hold : ∀ x ∈ ([(.beq, fun a b => decide (a = b)), (.bne, fun a b => decide (a ≠ b)), (.blt, fun a b => decide (a.toInt < b.toInt)),
      (.bge, fun a b => decide (b.toInt ≤ a.toInt)), (.bltn, fun a b => decide (a.toNat < b.toNat)),
      (.bgen, fun a b => decide (b.toNat ≤ a.toNat))] : List (Instr × (Word → Word → Bool))),
    ∀ s : State, exec x.1 s = .next (s.jumpTo (if x.2 s.xa s.xb then Claims.target s else s.th.pc + 8)) := by
  refine List.forall_mem_cons.mpr ⟨branch_spec exec_beq fun a b => ?_, List.forall_mem_cons.mpr ⟨branch_spec exec_bne fun a b => ?_,
    List.forall_mem_cons.mpr ⟨branch_spec exec_blt fun a b => ?_, List.forall_mem_cons.mpr ⟨branch_spec exec_bge fun a b => ?_,
    List.forall_mem_cons.mpr ⟨branch_spec exec_bltn fun a b => ?_, List.forall_mem_cons.mpr ⟨branch_spec exec_bgen fun a b => ?_,
    List.forall_mem_nil _⟩⟩⟩⟩⟩⟩
  · exact Bool.beq_eq_decide_eq a b
  · rw [bne, Bool.beq_eq_decide_eq, ← decide_not]
  · exact BitVec.slt_eq_decide
  · simp only [BitVec.slt_eq_decide, ← decide_not, not_lt]
  · exact BitVec.ult_eq_decide
  · simp only [BitVec.ult_eq_decide, ← decide_not, not_lt]

/-! ## Targets in registers -/

theorem State.badTarget_aligned (h : s.xa.toNat % 8 = 0) : s.badTarget = none := by
  rw [State.badTarget, if_neg]
  simpa [fld] using h

theorem State.badTarget_misaligned (h : s.xa.toNat % 8 ≠ 0) : s.badTarget = some (50, s.xa) := by
  rw [State.badTarget, if_pos]
  simpa [fld] using h

theorem exec_jmpr_aligned (h : s.xa.toNat % 8 = 0) : exec .jmpr s = .next
    ((s.landAt s.curB.cell s.curB.thread (s.clk + 7) s.clk [.reg s.curB.word.d.toNat ((s.th.pc + 8).setWidth 64)]).jumpTo (s.xa.setWidth 48)) := by
  show execJmpr s = _
  rw [execJmpr, State.badTarget_aligned h]
  rfl

theorem exec_jmpr_misaligned (h : s.xa.toNat % 8 ≠ 0) : exec .jmpr s = .next (s.bTrapAt 1 50 s.xa) := by
  show execJmpr s = _
  rw [execJmpr, State.badTarget_misaligned h]
  rfl

theorem exec_callr_aligned (h : s.xa.toNat % 8 = 0) : exec .callr s = s.callTo (s.xa.setWidth 48) := by
  show execCallr s = _
  rw [execCallr, State.badTarget_aligned h]

theorem exec_callr_misaligned (h : s.xa.toNat % 8 ≠ 0) : exec .callr s = .next (s.bTrapAt 1 50 s.xa) := by
  show execCallr s = _
  rw [execCallr, State.badTarget_misaligned h]
  rfl

/-! ## The return-address store (R316) -/

theorem State.callTo_pushes (h : s.th.returns.length < 16) (target : BitVec 48) :
    s.callTo target = .next ((s.updTh fun t => { t with returns := (s.th.pc + 8) :: s.th.returns }).jumpTo target) := by
  have hret : (s.updTh fun t => { t with returns := s.pcNext :: t.returns }) =
      s.updTh fun t => { t with returns := (s.th.pc + 8) :: s.th.returns } := State.updTh_congr rfl
  rw [← hret]
  exact if_pos h

theorem exec_barrelRet_pops {a : BitVec 48} {rest : List (BitVec 48)} (h : s.th.returns = a :: rest) :
    exec .barrelRet s = .next ((s.updTh fun t => { t with returns := rest }).jumpTo a) := by
  show execBarrelRet s = _
  simp only [execBarrelRet, h]

theorem exec_barrelRet_empty (h : s.th.returns = []) (hcount : s.th.spcnt = 0) : exec .barrelRet s = .next (s.bTrapAt 1 6 0) := by
  show execBarrelRet s = _
  simp only [execBarrelRet, h, hcount]
  rfl

/-- Settles O33: the comparisons, the alignment of a register target and the state of the return-address store decide. -/
theorem barrelJumpsComplete : Obligations.BarrelJumpsComplete :=
  ⟨branches_hold, fun _ => rfl, fun _ h => exec_jmpr_aligned h, fun _ h => ⟨exec_jmpr_misaligned h, exec_callr_misaligned h⟩,
    fun _ h => ⟨State.callTo_pushes h _, fun ha => (exec_callr_aligned ha).trans (State.callTo_pushes h _)⟩,
    fun _ _ _ h => exec_barrelRet_pops h, fun _ h hcount => exec_barrelRet_empty h hcount⟩

end Sys2Proof.Machine

/-! SUPPORT. The requests of a thread: what making one leaves behind (10_barrel R297, R309), and the memory and window instructions
(R310 to R312, R314). -/

namespace Sys2Proof.Machine

open Sys2Proof

/-! ## Requests by number -/

theorem State.get?_updReq (s : State) (id : Nat) (f : Request → Request) (k : Nat) :
    (s.updReq id f).requests.get? k = if k = id then (s.requests.get? k).map f else s.requests.get? k := by
  unfold State.updReq
  split_ifs with hk
  · subst hk
    cases h : s.requests.get? k with
    | none => simp only [h, Option.map_none]
    | some r => exact Table.get?_set_self _ _ _
  · cases h : s.requests.get? id with
    | none => rfl
    | some r => exact Table.get?_set_ne _ _ _ _ hk

/-- What a request asks for, whatever stage it has reached. -/
structure Request.Like (q r : Request) : Prop where
  kind   : q.kind = r.kind
  va     : q.va = r.va
  len    : q.len = r.len
  cell   : q.cell = r.cell
  thread : q.thread = r.thread

theorem Request.Like.refl (r : Request) : r.Like r := ⟨rfl, rfl, rfl, rfl, rfl⟩

theorem Request.Like.trans {p q r : Request} (h : p.Like q) (hq : q.Like r) : p.Like r :=
  ⟨h.kind.trans hq.kind, h.va.trans hq.va, h.len.trans hq.len, h.cell.trans hq.cell, h.thread.trans hq.thread⟩

/-- An update that changes no request's nature. -/
theorem State.like_updReq {s : State} {id k : Nat} {f : Request → Request} {r : Request} (hf : ∀ q, (f q).Like q)
    (h : ∃ q, s.requests.get? k = some q ∧ q.Like r) : ∃ q, (s.updReq id f).requests.get? k = some q ∧ q.Like r := by
  obtain ⟨q, hq, hl⟩ := h
  rw [State.get?_updReq, hq]
  split_ifs
  · exact ⟨f q, rfl, (hf q).trans hl⟩
  · exact ⟨q, rfl, hl⟩

/-! ## A request made -/

/-- From `s` to `t` the current instruction has asked for `r` under the next number: its thread waits for it at the next word, and the
registers, the memory and the task queues are as before. -/
structure State.Asks (s t : State) (r : Request) : Prop where
  frame   : s.Frame True t
  tasks   : ∀ c, (t.barrel c).tasks = (s.barrel c).tasks
  request : ∃ q, t.requests.get? s.nextId = some q ∧ q.Like r
  thread  : ∃ y, t.thread? s.curB.cell s.curB.thread = some y ∧ y.state = .blocked ∧ y.wait = .request s.nextId ∧ y.pc = s.th.pc + 8

/-- The request is one of the current thread. -/
structure State.Owns (s : State) (r : Request) : Prop where
  cell   : r.cell = s.curB.cell
  thread : r.thread = s.curB.thread
  ctx    : r.ctx = s.th.ctx

namespace State.Asks

variable {s t u : State} {r : Request} {x : Thread}

theorem claims (h : s.Asks t r) (ho : s.Owns r) : Claims.asks s t r.kind r.va r.len := by
  obtain ⟨q, hq, hl⟩ := h.request
  exact ⟨h.frame.mem, h.frame.file trivial _, ⟨q, hq, hl.kind, hl.va, hl.len, hl.cell.trans ho.cell, hl.thread.trans ho.thread⟩, h.thread⟩

/-- A step that changes neither threads nor task queues nor the nature of a request. -/
theorem step (h : s.Asks t r) (hf : t.Frame True u) (hk : ∀ c, (u.barrel c).tasks = (t.barrel c).tasks)
    (ht : u.thread? s.curB.cell s.curB.thread = t.thread? s.curB.cell s.curB.thread)
    (hr : (∃ q, t.requests.get? s.nextId = some q ∧ q.Like r) → ∃ q, u.requests.get? s.nextId = some q ∧ q.Like r) : s.Asks u r :=
  ⟨h.frame.trans hf, fun c => (hk c).trans (h.tasks c), hr h.request, ht ▸ h.thread⟩

theorem enter (hx : Claims.thread s = some x) (r : Request) : s.Asks (s.enter r) r := by
  refine ⟨.enter (.refl _ s), fun c => ?_, ⟨r, ?_, .refl r⟩, ?_⟩
  · rw [State.enter, State.await, State.updTh, State.barrel_updThread_keeps BarrelCore.tasks (fun _ _ => rfl)]
    rfl
  · rw [State.enter, State.await, State.updTh, State.updThread_requests]
    exact Table.get?_set_self _ _ _
  · have hthread := State.thread?_updThread (s := { s with requests := s.requests.set s.nextId r, nextId := s.nextId + 1 })
      (cell := s.curB.cell) (t := s.curB.thread) hx
      fun t => { t with pc := t.pc + 8, ready := s.clk + 8, state := .blocked, wait := .request s.nextId }
    exact ⟨_, hthread, rfl, rfl, by rw [State.th_of_thread hx]⟩

theorem enqueue (h : s.Asks t r) (id : Nat) : s.Asks (t.enqueue id) r := by
  refine h.step (.enqueue (.refl _ t)) (fun c => ?_) ?_ fun hq => ?_
  all_goals
    unfold State.enqueue State.arbiter
    split
  · rfl
  · rw [State.barrel_at', State.barrel_at', State.barrel_updBarrel_keeps BarrelCore.tasks rfl, State.barrel_updReq]
  · rfl
  · rw [State.thread?_at', State.thread?_at', State.thread?_updBarrel rfl, State.thread?_updReq]
  · exact hq
  · simp only [State.at'_requests, State.updBarrel_requests]
    exact State.like_updReq (fun q => ⟨rfl, rfl, rfl, rfl, rfl⟩) hq

theorem toBanks (h : s.Asks t r) (id due : Nat) : s.Asks (t.toBanks id due) r := by
  refine h.step (.toBanks (.refl _ t)) (fun c => ?_) ?_ fun hq => ?_
  all_goals
    unfold State.toBanks
    split
  · rfl
  · rw [State.barrel_at', State.barrel_updReq]
  · rfl
  · rw [State.thread?_at', State.thread?_updReq]
  · exact hq
  · simp only [State.at'_requests]
    exact State.like_updReq (fun q => ⟨rfl, rfl, rfl, rfl, rfl⟩) hq

theorem startWalk (h : s.Asks t r) (plate ctx va : Nat) (write fetch : Bool) (user : WalkUser) :
    s.Asks (t.startWalk plate ctx va write fetch user) r := by
  refine h.step (.startWalk (.refl _ t)) (fun c => ?_) ?_ fun hq => ?_
  all_goals
    obtain ⟨_, _, _, heq⟩ := t.startWalk_cases plate ctx va write fetch user
    rw [heq]
  · rfl
  · rfl
  · exact hq

/-- A request that is asked for as another of the same nature. -/
theorem like {q : Request} (h : s.Asks t q) (hl : q.Like r) : s.Asks t r := by
  obtain ⟨p, hp, hpq⟩ := h.request
  exact ⟨h.frame, h.tasks, ⟨p, hp, hpq.trans hl⟩, h.thread⟩

end State.Asks

/-! ## Accesses (R309) -/

section Accesses

variable {s : State} {r : Request} {x : Thread}

theorem State.localAccess_asks (hx : Claims.thread s = some x) (hlen : r.va + r.len ≤ 0x80000) :
    ∃ t, s.localAccess r = .next t ∧ s.Asks t r := by
  rw [State.localAccess, if_neg (show ¬localSize < r.va + r.len from Nat.not_lt.mpr hlen)]
  refine ⟨_, rfl, ?_⟩
  have henter : s.Asks (s.enter { r with sp := true, pa := scratchBase r.cell + r.va }) r :=
    (State.Asks.enter hx _).like ⟨rfl, rfl, rfl, rfl, rfl⟩
  split
  · exact henter.enqueue _
  · exact henter.toBanks _ _

theorem Request.physFault_none {pa : Nat} (hown : ¬(inScratch pa = true ∧ scratchCell pa = r.cell))
    (hfull : r.kind matches .lde .. | .ste .. | .ldp .. → inScratch pa = true) : r.physFault pa = none := by
  have hnot : (inScratch pa && scratchCell pa == r.cell) = false := by simpa using hown
  rw [Request.physFault, ownScratch, hnot]
  cases hk : r.kind <;> simp_all

/-- A device access with no fault known asks at once, or begins the walk of its translation. -/
theorem State.device_asks (hx : Claims.thread s = some x) (ho : s.Owns r) (hreach : Claims.reachable s r.kind r.va) :
    ∃ t, s.device r = .next t ∧ s.Asks t r := by
  have hnow : s.translateNow (plateOf r.cell) r.ctx r.va r.kind.writes false =
      s.translateNow (plateOf s.curB.cell) s.th.ctx r.va r.kind.writes false := by rw [ho.cell, ho.ctx]
  rcases htr : s.translateNow (plateOf r.cell) r.ctx r.va r.kind.writes false with _ | c | pa
  · simp only [State.device, htr]
    exact ⟨_, rfl, ((State.Asks.enter hx _).startWalk _ _ _ _ _ _).like ⟨rfl, rfl, rfl, rfl, rfl⟩⟩
  · exact absurd (hnow ▸ htr) (hreach.1 c)
  · obtain ⟨hown, hfull⟩ := hreach.2 pa (hnow ▸ htr)
    have hnone : r.physFault pa = none := Request.physFault_none (ho.cell ▸ hown) hfull
    simp only [State.device, htr, hnone]
    exact ⟨_, rfl, ((State.Asks.enter hx _).enqueue _).like ⟨rfl, rfl, rfl, rfl, rfl⟩⟩

theorem State.memAccess_asks {sp : Bool} {align : Nat} (hx : Claims.thread s = some x) (ho : s.Owns r) (halign : r.va % align = 0)
    (hreach : if sp then r.va + r.len ≤ 0x80000 else Claims.reachable s r.kind r.va) : ∃ t, s.memAccess sp align r = .next t ∧ s.Asks t r := by
  rw [State.memAccess, if_neg (by simp [halign])]
  split_ifs at hreach ⊢
  · exact State.localAccess_asks hx hreach
  · exact State.device_asks hx ho hreach

/-- An instruction that makes an access of its operands. -/
theorem accesses_of_memAccess {i : Instr} {isLocal : State → Bool} {align va len : State → Nat} {kind : State → RequestKind}
    {r : State → Request} (hi : ∀ s : State, exec i s = s.memAccess (isLocal s) (align s) (r s))
    (hr : ∀ s : State, s.Owns (r s) ∧ (r s).kind = kind s ∧ (r s).va = va s ∧ (r s).len = len s) :
    Claims.accesses i isLocal align kind va len := fun s x hx halign hreach => by
  obtain ⟨ho, hkind, hva, hlen⟩ := hr s
  rw [← hkind, ← hva, ← hlen] at hreach
  rw [← hva] at halign
  obtain ⟨t, ht, hasks⟩ := State.memAccess_asks hx ho halign hreach
  exact ⟨t, (hi s).trans ht, hkind ▸ hva ▸ hlen ▸ hasks.claims ho⟩

theorem State.memAccess_misaligned {sp : Bool} {align : Nat} (h : r.va % align ≠ 0) :
    s.memAccess sp align r = .next (s.bTrapAt 1 50 (word r.va)) := if_pos (by simpa using h)

end Accesses

/-! ## The instructions (R310 to R312, R314) -/

/-- Bytes of an atomic (R312). -/
def State.atomicSize (s : State) : Nat := if fld s.curB.word.imm 4 2 = 2 then 4 else 8

theorem State.atomic_eq (s : State) (kind : Nat → Bool → RequestKind) : s.atomic kind =
    s.memAccess (fbit s.curB.word.imm 6) s.atomicSize { s.request (kind s.atomicSize (fbit s.curB.word.imm 12)) s.xa.toNat s.atomicSize with
      release := fbit s.curB.word.imm 8, ord := fld s.curB.word.imm 7 2, scope := fld s.curB.word.imm 9 3 } := by
  simp only [State.atomic, State.atomicSize, beq_iff_eq]

theorem accesses_of_atomic {i : Instr} (kind : State → Nat → Bool → RequestKind) (hi : ∀ s : State, exec i s = s.atomic (kind s)) :
    Claims.accesses i (fun s => fbit s.curB.word.imm 6) State.atomicSize (fun s => kind s s.atomicSize (fbit s.curB.word.imm 12))
      (fun s => s.xa.toNat) State.atomicSize :=
  accesses_of_memAccess (fun s => (hi s).trans (s.atomic_eq (kind s))) fun _ => ⟨⟨rfl, rfl, rfl⟩, rfl, rfl, rfl⟩

theorem barrelAccesses_hold : Claims.barrelAccesses := by
  refine ⟨?_, ?_, ?_, ?_, ?_, accesses_of_atomic (fun s n sx => .amo s.d (fld s.curB.word.imm 0 4) n sx s.xb) fun _ => rfl,
    accesses_of_atomic (fun s n sx => .cas s.d n sx s.xd s.xb) fun _ => rfl, ?_, ?_, ?_⟩
  all_goals exact accesses_of_memAccess (fun _ => rfl) fun _ => ⟨⟨rfl, rfl, rfl⟩, rfl, rfl, rfl⟩

theorem word_memAddress (s : State) : word s.memAddress = s.xa + s.curB.word.imm.signExtend 64 := by
  rw [word, State.memAddress, BitVec.ofNat_toNat, BitVec.setWidth_eq, State.imm]

theorem misaligned_of_memAccess {i : Instr} {s : State} {sp : Bool} {align : Nat} {r : Request} (hi : exec i s = s.memAccess sp align r)
    (hva : r.va = s.memAddress) (h : Claims.address s % align ≠ 0) :
    exec i s = .next (s.bTrapAt 1 50 (s.xa + s.curB.word.imm.signExtend 64)) := by
  have hmis : r.va % align ≠ 0 := hva ▸ h
  rw [hi, State.memAccess_misaligned hmis, hva, word_memAddress]

theorem misaligned_hold : Claims.misaligned :=
  ⟨List.forall_mem_cons.mpr ⟨fun _ h => misaligned_of_memAccess rfl rfl h, List.forall_mem_cons.mpr
    ⟨fun _ h => misaligned_of_memAccess rfl rfl h, List.forall_mem_nil _⟩⟩,
  List.forall_mem_cons.mpr ⟨fun _ h => misaligned_of_memAccess rfl rfl h, List.forall_mem_cons.mpr
    ⟨fun _ h => misaligned_of_memAccess rfl rfl h, List.forall_mem_cons.mpr ⟨fun _ h => misaligned_of_memAccess rfl rfl h,
      List.forall_mem_cons.mpr ⟨fun _ h => misaligned_of_memAccess rfl rfl h, List.forall_mem_cons.mpr
        ⟨fun _ h => misaligned_of_memAccess rfl rfl h, List.forall_mem_nil _⟩⟩⟩⟩⟩⟩

/-- Settles O34: every access is made by one operation, which asks for it or finds it misaligned. -/
theorem barrelAccessesComplete : Obligations.BarrelAccessesComplete := ⟨barrelAccesses_hold, misaligned_hold⟩

end Sys2Proof.Machine

/-! SUPPORT. The thread that executes, after each way in which its instruction goes on or waits (10_barrel R287, R290). -/

namespace Sys2Proof.Machine

open Sys2Proof

/-! ## What is due -/

theorem State.at'_cases (s : State) (due phase key : Nat) (item : Item) :
    ∃ es : List Event, s.at' due phase key item = { s with events := es } := by
  unfold State.at'
  dsimp only
  split
  · exact ⟨s.events, rfl⟩
  · exact ⟨_, rfl⟩

/-- Offers of tasks make something due, no more. -/
theorem State.offerTasks_cases (s : State) (cells : List Nat) : ∃ es : List Event, s.offerTasks cells = { s with events := es } := by
  refine List.foldlRecOn cells _ (motive := fun u : State => ∃ es : List Event, u = { s with events := es }) ⟨s.events, rfl⟩ ?_
  rintro _ ⟨es, rfl⟩ c -
  obtain ⟨es', h⟩ := State.at'_cases { s with events := es } (s.clk + 1) phDispatch (c * 2 + 1) (.op (.taskDispatch c))
  exact ⟨es', h⟩

theorem State.dispatchFrom_cases (s : State) (cell : Nat) : ∃ es : List Event, s.dispatchFrom cell = { s with events := es } := by
  unfold State.dispatchFrom
  extract_lets s1
  have h1 : ∃ es : List Event, s1 = { s with events := es } := by
    unfold s1
    split
    · exact s.at'_cases _ _ _ _
    · exact ⟨s.events, rfl⟩
  obtain ⟨es, h1⟩ := h1
  rw [h1]
  exact State.offerTasks_cases _ _

section Offers

variable (s : State) (cells : List Nat) (cell : Nat)

@[simp] theorem State.offerTasks_mem : (s.offerTasks cells).mem = s.mem := by
  obtain ⟨es, h⟩ := s.offerTasks_cases cells
  rw [h]
@[simp] theorem State.offerTasks_curB : (s.offerTasks cells).curB = s.curB := by
  obtain ⟨es, h⟩ := s.offerTasks_cases cells
  rw [h]
@[simp] theorem State.offerTasks_barrels : (s.offerTasks cells).barrels = s.barrels := by
  obtain ⟨es, h⟩ := s.offerTasks_cases cells
  rw [h]
@[simp] theorem State.dispatchFrom_mem : (s.dispatchFrom cell).mem = s.mem := by
  obtain ⟨es, h⟩ := s.dispatchFrom_cases cell
  rw [h]
@[simp] theorem State.dispatchFrom_curB : (s.dispatchFrom cell).curB = s.curB := by
  obtain ⟨es, h⟩ := s.dispatchFrom_cases cell
  rw [h]
@[simp] theorem State.dispatchFrom_nextId : (s.dispatchFrom cell).nextId = s.nextId := by
  obtain ⟨es, h⟩ := s.dispatchFrom_cases cell
  rw [h]
@[simp] theorem State.dispatchFrom_barrels : (s.dispatchFrom cell).barrels = s.barrels := by
  obtain ⟨es, h⟩ := s.dispatchFrom_cases cell
  rw [h]

end Offers

/-! ## The thread that executes -/

section Thread

variable {s : State} {x : Thread}

@[simp] theorem State.curB_landAt (s : State) (cell t due issued : Nat) (ws : List BarrelWrite) : (s.landAt cell t due issued ws).curB = s.curB := by
  unfold State.landAt
  split <;> simp

@[simp] theorem State.clk_landAt (s : State) (cell t due issued : Nat) (ws : List BarrelWrite) : (s.landAt cell t due issued ws).clk = s.clk := by
  unfold State.landAt
  split <;> simp

theorem State.thread?_landAt (s : State) (cell t due issued : Nat) (ws : List BarrelWrite) (c n : Nat) :
    (s.landAt cell t due issued ws).thread? c n = s.thread? c n := by
  unfold State.landAt
  split
  · rfl
  · rfl
  · rw [State.thread?_at', State.thread?_updBarrel rfl]

theorem thread_updTh (hx : Claims.thread s = some x) (f : Thread → Thread) : Claims.thread (s.updTh f) = some (f x) := by
  rw [Claims.thread, State.updTh, State.updThread_curB]
  exact State.thread?_updThread hx f

theorem thread_updBarrel {f : BarrelCore → BarrelCore} {cell : Nat} (hf : ∀ b, (f b).threads = b.threads) :
    Claims.thread (s.updBarrel cell f) = Claims.thread s := State.thread?_updBarrel (hf _) _ _

theorem thread_goOn (hx : Claims.thread s = some x) (pc : BitVec 48) (offset : Nat) :
    Claims.thread (s.goOn pc offset) = some { x with pc, ready := s.clk + offset } := by
  rw [State.goOn, State.issueFrom, Claims.thread, State.thread?_at', State.at'_curB]
  exact thread_updTh hx _

theorem thread_simple (hx : Claims.thread s = some x) (ws : List BarrelWrite) :
    Claims.thread (s.simple ws) = some { x with pc := x.pc + 8, ready := s.clk + 8 } := by
  have hland : Claims.thread (s.landAt s.curB.cell s.curB.thread (s.clk + 7) s.clk ws) = some x := by
    rw [Claims.thread, State.curB_landAt, State.thread?_landAt]
    exact hx
  rw [State.simple, State.finishAt, thread_goOn hland, State.pcNext, State.th_of_thread hx, State.clk_landAt]

theorem thread_await (hx : Claims.thread s = some x) (st : ThreadState) (w : Wait) :
    Claims.thread (s.await st w) = some { x with pc := x.pc + 8, ready := s.clk + 8, state := st, wait := w } := thread_updTh hx _

theorem waits_await (hx : Claims.thread s = some x) (st : ThreadState) (w : Wait) : Claims.waits s (s.await st w) st w :=
  ⟨by simp [State.await, State.updTh], _, State.thread?_updThread hx _, rfl, rfl, by rw [State.th_of_thread hx]⟩

theorem State.mem_simple (s : State) (ws : List BarrelWrite) : (s.simple ws).mem = s.mem := s.mem_finishAt _ _

end Thread

end Sys2Proof.Machine

/-! SUPPORT. Wakes, messages and task queues: what their instructions ask for or find at hand (10_barrel R319 to R325). -/

namespace Sys2Proof.Machine

open Sys2Proof

variable {s : State} {x : Thread}

/-! ## Names of threads -/

theorem fld_low_nine (w : Word) : fld w 0 9 = w.toNat % 512 := by simp [fld]

theorem plainId_of_fields {w : Word} (hlow : w.toNat / 2 ^ 9 % 2 ^ 7 = 0) (hhigh : w.toNat / 2 ^ 22 = 0) : plainId w = true := by
  have hfld9 : fld w 9 7 = 0 := hlow
  have hfld22 : fld w 22 42 = 0 := by rw [fld, hhigh, Nat.zero_mod]
  simp [plainId, hfld9, hfld22]

theorem State.message_asks (hx : Claims.thread s = some x) (kind : RequestKind) (va scope : Nat) :
    Claims.asks s (s.message kind va scope) kind va 8 := ((State.Asks.enter hx _).enqueue _).claims ⟨rfl, rfl, rfl⟩

theorem wake_asks (hx : Claims.thread s = some x) (hlow : s.xa.toNat / 2 ^ 9 % 2 ^ 7 = 0) (hhigh : s.xa.toNat / 2 ^ 22 = 0)
    (hname : s.mayName x.ctx (s.xa.toNat % 512) = true) : ∃ t, exec .wake s = .next t ∧
      Claims.asks s t (.wake s.d (s.xa.toNat % 512) (s.xa.toNat / 2 ^ 16 % 64)) s.xa.toNat 8 := by
  refine ⟨_, ?_, State.message_asks hx _ _ 5⟩
  show execWake s = _
  rw [execWake, fld_low_nine, State.th_of_thread hx, plainId_of_fields hlow hhigh, hname]
  rfl

theorem send_asks (hx : Claims.thread s = some x) (hlow : s.xa.toNat / 2 ^ 9 % 2 ^ 7 = 0) (hhigh : s.xa.toNat / 2 ^ 22 = 0)
    (hname : s.mayName x.ctx (s.xa.toNat % 512) = true) : ∃ t, exec .send s = .next t ∧
      Claims.asks s t (.send s.d (s.xa.toNat % 512) (s.xa.toNat / 2 ^ 16 % 64) (s.rdRun s.curB.word.b.toNat s.words) [] 0 false) s.xa.toNat 8 := by
  have hlt : s.xa.toNat < 2 ^ 22 := by omega
  have hbit : fbit s.xa 38 = false := Nat.testBit_lt_two_pow (hlt.trans (by decide))
  have hfld : fld s.xa 22 10 = 0 ∧ fld s.xa 39 25 = 0 ∧ fld s.xa 32 6 = 0 := by
    simp only [fld]
    omega
  have hfld9 : fld s.xa 9 7 = 0 := hlow
  refine ⟨_, ?_, State.message_asks hx _ _ (fld s.curB.word.imm 4 3)⟩
  show execSend s = _
  simp only [execSend, hbit, hfld, hfld9, fld_low_nine, State.th_of_thread hx, hname]
  rfl

theorem remoteSend_asks (hx : Claims.thread s = some x) (hlow : s.xa.toNat / 2 ^ 9 % 2 ^ 7 = 0) (hmid : s.xa.toNat / 2 ^ 22 % 2 ^ 10 = 0)
    (hhigh : s.xa.toNat / 2 ^ 38 = 1) : ∃ t, exec .send s = .next t ∧
      Claims.asks s t (.remoteSend s.d (s.xa.toNat / 2 ^ 32 % 64) s.xa (s.rdRun s.curB.word.b.toNat s.words)) s.xa.toNat 8 := by
  have hbit : fbit s.xa 38 = true := by
    rw [fbit, BitVec.getLsbD, Nat.testBit_eq_decide_div_mod_eq, hhigh]
    rfl
  have hfld : fld s.xa 39 25 = 0 := by
    simp only [fld]
    omega
  have hfld9 : fld s.xa 9 7 = 0 := hlow
  have hfld22 : fld s.xa 22 10 = 0 := hmid
  refine ⟨_, ?_, State.message_asks hx _ _ (fld s.curB.word.imm 4 3)⟩
  show execSend s = _
  simp only [execSend, hbit, hfld, hfld9, hfld22]
  rfl

/-! ## Task queues (R320) -/

theorem State.queueTarget_eq (s : State) : s.queueTarget = if s.xb = BitVec.allOnes 64 then s.curB.cell else s.xb.toNat % 512 := by
  simp only [State.queueTarget, fld_low_nine, beq_iff_eq]

/-- The request of TQPUT (R320). -/
def State.packetRequest (s : State) : Request :=
  { s.request (.packet s.d s.queueTarget s.xb) s.xa.toNat 64 with scope := 5, turns := 8, answer := List.replicate 8 0 }

theorem tqput_asks (hx : Claims.thread s = some x) (halign : s.xa.toNat % 64 = 0) (hname : s.mayName x.ctx s.queueTarget = true)
    (hreach : if fbit s.curB.word.imm 3 then s.xa.toNat + 64 ≤ 0x80000 else Claims.reachable s (.packet s.d s.queueTarget s.xb) s.xa.toNat) :
    ∃ t, exec .tqput s = .next t ∧ Claims.asks s t (.packet s.d s.queueTarget s.xb) s.xa.toNat 64 := by
  have hexec : exec .tqput s = if fbit s.curB.word.imm 3 then s.localAccess s.packetRequest else s.device s.packetRequest := by
    have halign' : (s.xa.toNat % 64 != 0) = false := by simp [halign]
    show execTqput s = _
    rw [execTqput, halign', State.th_of_thread hx, hname]
    by_cases hsp : fbit s.curB.word.imm 3 = true
    · rw [if_pos hsp] at hreach
      simp [hsp, show ¬localSize < s.xa.toNat + 64 from Nat.not_lt.mpr hreach, State.packetRequest]
    · simp [hsp, State.packetRequest]
  have hasks : ∃ t, exec .tqput s = .next t ∧ s.Asks t s.packetRequest := by
    rw [hexec]
    split_ifs at hreach ⊢
    · exact State.localAccess_asks hx hreach
    · exact State.device_asks hx ⟨rfl, rfl, rfl⟩ hreach
  obtain ⟨t, ht, hasks⟩ := hasks
  exact ⟨t, ht, hasks.claims ⟨rfl, rfl, rfl⟩⟩

theorem exec_tqget_empty (halign : s.xa.toNat % 64 = 0) (hroom : fbit s.curB.word.imm 3 = true → s.xa.toNat + 64 ≤ 0x80000)
    (htasks : (s.barrel s.curB.cell).tasks = []) : exec .tqget s = .next (s.simple [.reg s.d 0]) := by
  have hroom' : (fbit s.curB.word.imm 3 && decide (localSize < s.xa.toNat + 64)) = false := by
    rw [Bool.and_eq_false_imp, decide_eq_false_iff_not, Nat.not_lt]
    exact hroom
  show execTqget s = _
  simp [execTqget, halign, hroom', htasks]
  rfl

/-- A request of TQGET: eight words at the address (R320). -/
def State.taskRequest (s : State) (kind : RequestKind) : Request := { s.request kind s.xa.toNat 64 with turns := 8 }

/-- The state in which TQGET has taken the head of its core's queue. -/
def State.headTaken (s : State) (ps : List TaskPacket) : State :=
  (s.updBarrel s.curB.cell fun b => { b with tasks := ps }).dispatchFrom s.curB.cell

theorem State.barrel_headTaken (s : State) (ps : List TaskPacket) :
    (s.headTaken ps).barrel s.curB.cell = { s.barrel s.curB.cell with tasks := ps } := by
  rw [State.headTaken, State.barrel_of_barrels (State.dispatchFrom_barrels _ _), State.barrel_updBarrel_self]

@[simp] theorem State.headTaken_curB (s : State) (ps : List TaskPacket) : (s.headTaken ps).curB = s.curB := by simp [State.headTaken]
@[simp] theorem State.headTaken_nextId (s : State) (ps : List TaskPacket) : (s.headTaken ps).nextId = s.nextId := by simp [State.headTaken]
@[simp] theorem State.headTaken_mem (s : State) (ps : List TaskPacket) : (s.headTaken ps).mem = s.mem := by simp [State.headTaken]

theorem thread_headTaken (s : State) (ps : List TaskPacket) : Claims.thread (s.headTaken ps) = Claims.thread s := by
  rw [Claims.thread, State.headTaken_curB, State.thread?, State.barrel_headTaken]
  rfl

theorem exec_tqget_head {p : TaskPacket} {ps : List TaskPacket} (halign : s.xa.toNat % 64 = 0)
    (hroom : fbit s.curB.word.imm 3 = true → s.xa.toNat + 64 ≤ 0x80000) (htasks : (s.barrel s.curB.cell).tasks = p :: ps) :
    exec .tqget s = if fbit s.curB.word.imm 3 then (s.headTaken ps).localAccess (s.taskRequest (.taskGet s.d p.ctx p.words))
      else s.device (s.taskRequest (.taskGet s.d 0 [])) := by
  have hroom' : (fbit s.curB.word.imm 3 && decide (localSize < s.xa.toNat + 64)) = false := by
    rw [Bool.and_eq_false_imp, decide_eq_false_iff_not, Nat.not_lt]
    exact hroom
  show execTqget s = _
  simp only [execTqget, halign, hroom', htasks]
  rfl

/-- A task packet at hand in the scratchpad form: the packet leaves the queue, and a place for it is asked for. -/
theorem tqget_takes (hx : Claims.thread s = some x) {p : TaskPacket} {ps : List TaskPacket} (halign : s.xa.toNat % 64 = 0)
    (hroom : s.xa.toNat + 64 ≤ 0x80000) (hsp : fbit s.curB.word.imm 3 = true) (htasks : (s.barrel s.curB.cell).tasks = p :: ps) :
    ∃ t, exec .tqget s = .next t ∧ Claims.asks s t (.taskGet s.d p.ctx p.words) s.xa.toNat 64 ∧ (t.barrel s.curB.cell).tasks = ps := by
  have hthread : Claims.thread (s.headTaken ps) = some x := (thread_headTaken s ps).trans hx
  have hth : (s.headTaken ps).th = s.th := by rw [State.th_of_thread hthread, State.th_of_thread hx]
  obtain ⟨t, ht, hasks⟩ := State.localAccess_asks (r := s.taskRequest (.taskGet s.d p.ctx p.words)) hthread hroom
  have hclaims := hasks.claims ⟨by rw [State.headTaken_curB]; rfl, by rw [State.headTaken_curB]; rfl, by rw [hth]; rfl⟩
  rw [Claims.asks, State.headTaken_curB, State.headTaken_nextId, State.headTaken_mem, hth, State.barrel_headTaken] at hclaims
  refine ⟨t, ?_, hclaims, (hasks.tasks _).trans (congrArg BarrelCore.tasks (s.barrel_headTaken ps))⟩
  rw [exec_tqget_head halign (fun _ => hroom) htasks, if_pos hsp, ht]

/-- A task packet at hand in the other form: the packet stays until its place is known. -/
theorem tqget_asks (hx : Claims.thread s = some x) (halign : s.xa.toNat % 64 = 0) (hsp : fbit s.curB.word.imm 3 = false)
    (htasks : (s.barrel s.curB.cell).tasks ≠ []) (hreach : Claims.reachable s (.taskGet s.d 0 []) s.xa.toNat) :
    ∃ t, exec .tqget s = .next t ∧ Claims.asks s t (.taskGet s.d 0 []) s.xa.toNat 64 ∧
      (t.barrel s.curB.cell).tasks = (s.barrel s.curB.cell).tasks := by
  obtain ⟨p, ps, hhead⟩ := List.exists_cons_of_ne_nil htasks
  obtain ⟨t, ht, hasks⟩ := State.device_asks (r := s.taskRequest (.taskGet s.d 0 [])) hx ⟨rfl, rfl, rfl⟩ hreach
  refine ⟨t, ?_, hasks.claims ⟨rfl, rfl, rfl⟩, hasks.tasks _⟩
  rw [exec_tqget_head halign (fun h => absurd (hsp.symm.trans h) Bool.false_ne_true) hhead, hsp]
  exact ht

/-! ## Messages at hand (R324, R325) -/

theorem recv_waits (hx : Claims.thread s = some x) (hinbox : x.inbox = []) : ∃ t, exec .recv s = .next t ∧
    Claims.waits s t .blocked (.recv s.d s.curB.word.a.toNat s.words (fld s.curB.word.imm 4 3)) := by
  refine ⟨_, ?_, waits_await hx _ _⟩
  show execRecv s = _
  simp only [execRecv, State.th_of_thread hx, hinbox]

theorem State.acquireMessage_cases (s : State) (cell t : Nat) (m : BarrelMessage) (scope : Nat) :
    ∃ ws : List PastWrite, s.acquireMessage cell t m scope = { s with past := ws } := by
  unfold State.acquireMessage
  split
  · split
    · exact ⟨_, rfl⟩
    · exact ⟨s.past, rfl⟩
  · exact ⟨s.past, rfl⟩

theorem State.admitSender_none {cell t : Nat} {y : Thread} (hy : s.thread? cell t = some y) (hsenders : y.senders = []) :
    s.admitSender cell t = s := by
  simp only [State.admitSender, hy, hsenders]

theorem exec_recv_message (hx : Claims.thread s = some x) {m : BarrelMessage} {rest : List BarrelMessage} (hinbox : x.inbox = m :: rest)
    (hsenders : x.senders = []) : exec .recv s =
      .next (((s.updTh fun t => { t with inbox := rest }).acquireMessage s.curB.cell s.curB.thread m (fld s.curB.word.imm 4 3)).simple
        (m.received s.d s.curB.word.a.toNat s.words)) := by
  have hthread : ((s.updTh fun t => { t with inbox := rest }).acquireMessage s.curB.cell s.curB.thread m (fld s.curB.word.imm 4 3)).thread?
      s.curB.cell s.curB.thread = some { x with inbox := rest } := by
    obtain ⟨ws, heq⟩ := (s.updTh fun t => { t with inbox := rest }).acquireMessage_cases s.curB.cell s.curB.thread m (fld s.curB.word.imm 4 3)
    rw [heq]
    exact State.thread?_updThread hx _
  show execRecv s = _
  simp only [execRecv, State.th_of_thread hx, hinbox]
  rw [State.admitSender_none hthread hsenders]

theorem mcast_asks (hx : Claims.thread s = some x) (halign : s.xa.toNat % 8 = 0) (hroom : s.xa.toNat + 48 ≤ 0x80000) :
    ∃ t, exec .mcast s = .next t ∧ Claims.asks s t (.record s.d 0 (s.rdRun s.curB.word.b.toNat s.words)) s.xa.toNat 48 := by
  obtain ⟨t, ht, hasks⟩ := State.memAccess_asks (sp := true) (align := 8)
    (r := { s.request (.record s.d 0 (s.rdRun s.curB.word.b.toNat s.words)) s.xa.toNat 48 with
      scope := fld s.curB.word.imm 4 3, turns := 6, answer := List.replicate 8 0 }) hx ⟨rfl, rfl, rfl⟩ halign hroom
  exact ⟨t, ht, hasks.claims ⟨rfl, rfl, rfl⟩⟩

/-- Settles O36: each clause is what its instruction asks for or finds at hand. -/
theorem barrelMessagesComplete : Obligations.BarrelMessagesComplete := by
  intro s x hx a d n scope ws sp target
  refine ⟨fun hlow hhigh hname => wake_asks hx hlow hhigh hname, fun hlow hhigh hname => send_asks hx hlow hhigh hname,
    fun halign hname hreach => ?_, fun halign hroom htasks => exec_tqget_empty halign hroom htasks,
    fun p ps halign hroom hsp htasks => tqget_takes hx halign hroom hsp htasks,
    fun halign hsp htasks hreach => tqget_asks hx halign hsp htasks hreach,
    fun hlow hmid hhigh => remoteSend_asks hx hlow hmid hhigh, fun hinbox => recv_waits hx hinbox,
    fun m rest hinbox hsenders => exec_recv_message hx hinbox hsenders, fun halign hroom => mcast_asks hx halign hroom⟩
  have htarget : target = s.queueTarget := s.queueTarget_eq.symm
  rw [htarget] at hname hreach ⊢
  exact tqput_asks hx halign hname hreach

end Sys2Proof.Machine

/-! SUPPORT. Fences, forks, joins, yields, parking, migration requests and exits of a thread (10_barrel R290, R313, R317 to R319, R321;
11_barrel_traps R335, R340). -/

namespace Sys2Proof.Machine

open Sys2Proof

variable {s : State} {x : Thread}

/-! ## Fences, joins and parking -/

theorem exec_barrelFence_done (hx : Claims.thread s = some x) (h : s.outstanding x.uid = [] ∨ fld s.curB.word.imm 0 2 = 2) :
    exec .barrelFence s =
      .next ((s.fences s.curB.cell s.curB.thread (fld s.curB.word.imm 0 2) (fld s.curB.word.imm 2 3)).simple []) := by
  show execBarrelFence s = _
  rw [execBarrelFence, State.th_of_thread hx]
  refine if_pos ?_
  obtain h | h := h <;> simp [h]

theorem barrelFence_waits (hx : Claims.thread s = some x) (hout : s.outstanding x.uid ≠ []) (hkind : fld s.curB.word.imm 0 2 ≠ 2) :
    ∃ t, exec .barrelFence s = .next t ∧
      Claims.waits s t .blocked (.fence (fld s.curB.word.imm 0 2) (fld s.curB.word.imm 2 3)) := by
  refine ⟨_, ?_, waits_await hx _ _⟩
  show execBarrelFence s = _
  rw [execBarrelFence, State.th_of_thread hx]
  exact if_neg (by simp [hout, hkind])

theorem exec_join_done (hx : Claims.thread s = some x) (hpair : x.pair = none) (hlive : x.live = 0) :
    exec .join s = .next ((s.updTh fun t => { t with killed := 0 }).simple [.reg s.curB.word.d.toNat (BitVec.ofNat 64 x.killed)]) := by
  show execJoin s = _
  simp only [execJoin, State.th_of_thread hx, hpair, hlive]
  rfl

theorem join_waits (hx : Claims.thread s = some x) (hpair : x.pair = none) (hlive : x.live ≠ 0) :
    ∃ t, exec .join s = .next t ∧ Claims.waits s t .blocked (.join s.curB.word.d.toNat) := by
  refine ⟨_, ?_, waits_await hx _ _⟩
  show execJoin s = _
  simp [execJoin, State.th_of_thread hx, hpair, hlive]

theorem exec_park_woken (hx : Claims.thread s = some x) (hwake : x.wake = true) : exec .park s =
    .next (((s.catchUp (threadAgent x.uid) s.nextId).updTh fun t => { t with wake := false }).simple []) := by
  show execPark s = _
  rw [execPark, State.th_of_thread hx, if_pos hwake]

theorem park_waits (hx : Claims.thread s = some x) (hwake : x.wake = false) :
    ∃ t, exec .park s = .next t ∧ Claims.waits s t .parked .park := by
  refine ⟨_, ?_, waits_await hx _ _⟩
  show execPark s = _
  rw [execPark, State.th_of_thread hx, hwake]
  rfl

/-! ## Forks (R317) -/

/-- The entry that FORK pushes. -/
def State.forkEntry (s : State) : DequeEntry :=
  { ctx := s.th.ctx, entry := s.target, count := s.th.count, args := (s.xd, s.xa), parent := (s.curB.cell, s.curB.thread, s.th.uid),
    thid := thid s.curB.cell s.curB.thread, tfmt := s.th.tfmt, tscl := s.th.tscl, sdom := s.th.sdom }

/-- The state in which FORK has pushed its entry and counted the child. -/
def State.forked (s : State) : State :=
  (s.updBarrel s.curB.cell fun b => { b with deque := s.forkEntry :: b.deque }).updTh fun t => { t with live := t.live + 1 }

theorem thread_forked (hx : Claims.thread s = some x) : Claims.thread s.forked = some { x with live := x.live + 1 } :=
  thread_updTh ((thread_updBarrel (f := fun b => { b with deque := s.forkEntry :: b.deque }) fun _ => rfl).trans hx) _

theorem State.deque_forked (s : State) : (s.forked.barrel s.curB.cell).deque = s.forkEntry :: (s.barrel s.curB.cell).deque := by
  rw [State.forked, State.updTh, State.barrel_updThread_keeps BarrelCore.deque (fun _ _ => rfl), State.barrel_updBarrel_self]

/-- The cells that FORK offers a task: its own, and those that its domain lets take one (R302). -/
def State.forkCells (s : State) : List Nat :=
  (List.range 320).filter fun c => c == s.curB.cell || (s.holds s.th.ctx c && (match s.th.sdom with
    | 0 => false
    | 1 => clusterOf c == clusterOf s.curB.cell
    | 2 => plateOf c == plateOf s.curB.cell
    | _ => true))

theorem exec_fork_pushes (hx : Claims.thread s = some x) (hpair : x.pair = none) (hroom : (s.barrel s.curB.cell).deque.length < 256)
    (hlive : x.live ≠ 65535) : exec .fork s = .next ((s.forked.simple []).offerTasks s.forkCells) := by
  have hfull : (decide (256 ≤ (s.barrel s.curB.cell).deque.length) || x.live == 65535) = false := by
    simpa [hlive] using hroom
  show execFork s = _
  rw [State.forked, State.forkEntry, State.forkCells]
  simp only [execFork, State.th_of_thread hx, hpair, hfull]
  rfl

theorem fork_pushes (hx : Claims.thread s = some x) (hpair : x.pair = none) (hroom : (s.barrel s.curB.cell).deque.length < 256)
    (hlive : x.live ≠ 65535) : ∃ t y e, exec .fork s = .next t ∧ Claims.thread t = some y ∧ y.live = x.live + 1 ∧ y.pc = x.pc + 8 ∧
      (t.barrel s.curB.cell).deque = e :: (s.barrel s.curB.cell).deque ∧ e.ctx = x.ctx ∧ e.entry = Claims.target s ∧ e.count = x.count ∧
      e.args = (s.xd, s.xa) ∧ e.parent = (s.curB.cell, s.curB.thread, x.uid) := by
  have hth := State.th_of_thread hx
  refine ⟨_, { x with live := x.live + 1, pc := x.pc + 8, ready := s.forked.clk + 8 }, s.forkEntry, exec_fork_pushes hx hpair hroom hlive, ?_, rfl, rfl, ?_, congrArg Thread.ctx hth, rfl, congrArg Thread.count hth, rfl, ?_⟩
  · rw [Claims.thread, State.offerTasks_curB, State.thread?_of_barrels (State.offerTasks_barrels _ _)]
    exact thread_simple (thread_forked hx) []
  · rw [State.barrel_of_barrels (State.offerTasks_barrels _ _), State.simple,
      State.barrel_finishAt_keeps BarrelCore.deque (fun _ _ => rfl) (fun _ _ => rfl), State.deque_forked]
  · rw [State.forkEntry, hth]

/-! ## Yields (R290) -/

/-- Whether a thread of the executing core could issue. -/
def State.couldIssue (s : State) (y : Thread) : Bool := y.canIssue s.clk && !s.sfnHolds s.curB.cell y

/-- The slots of the other threads that could issue. -/
def State.rivals (s : State) : List Nat :=
  ((s.barrel s.curB.cell).threads.filter fun p => p.1 != s.curB.thread && p.2.canIssue s.clk && !s.sfnHolds s.curB.cell p.2).map (·.1)

theorem State.mem_rivals (s : State) (n : Nat) : n ∈ s.rivals ↔
    ∃ p ∈ (s.barrel s.curB.cell).threads, p.1 = n ∧ n ≠ s.curB.thread ∧ s.couldIssue p.2 = true := by
  simp only [State.rivals, State.couldIssue, List.mem_map, List.mem_filter, Bool.and_eq_true, bne_iff_ne]
  constructor
  · rintro ⟨p, ⟨hp, ⟨hne, hcan⟩, hfree⟩, rfl⟩
    exact ⟨p, hp, rfl, hne, hcan, hfree⟩
  · rintro ⟨p, hp, rfl, hne, hcan, hfree⟩
    exact ⟨p, ⟨hp, ⟨hne, hcan⟩, hfree⟩, rfl⟩

theorem yld_alone (hx : Claims.thread s = some x) (h : s.rivals = []) : ∃ t y, exec .yld s = .next t ∧ t.mem = s.mem ∧
    Claims.thread t = some y ∧ y.pc = x.pc + 8 ∧ y.ready = s.clk + 8 :=
  ⟨_, _, if_pos (List.isEmpty_iff.mpr h), s.mem_simple _, thread_simple hx _, rfl, rfl⟩

theorem yld_rivals (hx : Claims.thread s = some x) (h : s.rivals ≠ []) : ∃ t y, exec .yld s = .next t ∧ t.mem = s.mem ∧
    Claims.thread t = some y ∧ y.pc = x.pc + 8 ∧ y.ready = s.clk + 64 ∧ y.yields = s.rivals := by
  have hyields := thread_updTh hx fun t => { t with yields := s.rivals, until' := s.clk + 64 }
  refine ⟨_, _, if_neg (mt List.isEmpty_iff.mp h), by simp [State.goOn, State.issueFrom, State.updTh], thread_goOn hyields _ _, ?_, ?_, rfl⟩
  · exact congrArg (· + 8) (congrArg Thread.pc (State.th_of_thread hx))
  · simp [State.updTh]

/-! ## Migration requests (R321, R335) -/

/-- An operand of EMIGR that its context may name: all ones, or a cell of the cluster. -/
def State.namesHome (s : State) (ctx : Nat) : Prop :=
  s.xa = BitVec.allOnes 64 ∨
    (s.xa.toNat < 320 ∧ clusterOf s.xa.toNat = clusterOf s.curB.cell ∧ s.holds ctx s.xa.toNat = true ∧ s.retired s.xa.toNat = false)

/-- The position that EMIGR asks for; 8 asks for the idlest. -/
def State.homeAsked (s : State) : Nat := if s.xa = BitVec.allOnes 64 then 8 else posOf s.xa.toNat

theorem exec_emigr_named (hx : Claims.thread s = some x) (hpair : x.pair = none) (hnames : s.namesHome x.ctx) : exec .emigr s =
    if x.level ≠ 0 ∨ x.live ≠ 0 then .next (s.simple [.reg s.curB.word.d.toNat 0])
    else .next ((s.await .blocked (.migrate s.curB.word.d.toNat s.homeAsked)).recheck s.curB.cell s.curB.thread) := by
  have hask : (if (s.xa == BitVec.allOnes 64) = true then 8 else posOf (fld s.xa 0 9)) = s.homeAsked := by
    obtain h | ⟨hlt, -⟩ := hnames
    · simp [State.homeAsked, h]
    · rw [fld_low_nine, Nat.mod_eq_of_lt (by omega)]
      simp [State.homeAsked]
  have hsound : (!(s.xa == BitVec.allOnes 64) && (fld s.xa 9 55 != 0 || clusterOf (fld s.xa 0 9) != clusterOf s.curB.cell ||
      decide (320 ≤ fld s.xa 0 9) || !s.holds x.ctx (fld s.xa 0 9) || s.retired (fld s.xa 0 9))) = false := by
    obtain h | ⟨hlt, hcluster, hholds, hretired⟩ := hnames
    · simp [h]
    · have hhigh : fld s.xa 9 55 = 0 := by simp only [fld]; omega
      rw [fld_low_nine, Nat.mod_eq_of_lt (by omega)]
      simp [hhigh, hcluster, hholds, hretired, hlt]
  show execEmigr s = _
  simp only [execEmigr, State.th_of_thread hx, hpair, hsound, hask, Bool.or_eq_true, bne_iff_ne]
  rfl

/-- A quantity of barrel cores that does not read their threads is kept by a wait. -/
theorem State.barrel_await_keeps {α : Type} (s : State) (st : ThreadState) (w : Wait) (p : BarrelCore → α)
    (h : ∀ b ts, p { b with threads := ts } = p b) (c : Nat) : p ((s.await st w).barrel c) = p (s.barrel c) :=
  State.barrel_updThread_keeps p h c

/-- The state in which a thread that has met a fault, and of which no special function is queued, has been told so. -/
def State.rechecked (s : State) (cell t : Nat) (y : Thread) : State :=
  if y.fault.isSome && !(s.barrel cell).queued y.uid then s.at' s.clk phBarrel (cell * 2) (.op (.barrelTrapEntry cell t)) else s

theorem State.recheck_of_migrate {cell t d k : Nat} {y : Thread} (hy : s.thread? cell t = some y) (hw : y.wait = .migrate d k) :
    s.recheck cell t = if !(s.barrel cell).queued y.uid && y.state != .migrating then
      ((s.rechecked cell t y).updThread cell t fun x => { x with state := .migrating }).after 1 phNet (cell * 64 + t)
        (.op (.migrationReservation cell t)) else s.rechecked cell t y := by
  simp only [State.recheck, State.rechecked, hy, hw]

/-- A thread that is to migrate and is not on its way looks again: it is, once no special function of it is queued. -/
theorem State.recheck_migrate {cell t d k : Nat} {y : Thread} (hy : s.thread? cell t = some y) (hw : y.wait = .migrate d k)
    (hstate : y.state ≠ .migrating) : (s.recheck cell t).mem = s.mem ∧
      (s.recheck cell t).thread? cell t = some { y with state := if (s.barrel cell).queued y.uid then y.state else .migrating } := by
  have hmem : (s.rechecked cell t y).mem = s.mem := by unfold State.rechecked; split <;> simp
  have hthread : (s.rechecked cell t y).thread? cell t = some y := by unfold State.rechecked; split <;> simp [hy]
  rw [State.recheck_of_migrate hy hw]
  cases hq : (s.barrel cell).queued y.uid with
  | true => exact ⟨hmem, hthread⟩
  | false =>
    rw [if_pos (by simpa using hstate), State.thread?_after]
    exact ⟨by simp [hmem], State.thread?_updThread hthread _⟩

/-- A thread that has begun to migrate: once no special function of it is queued, it is on its way. -/
theorem waits_recheck_migrate (hx : Claims.thread s = some x) (d k : Nat) :
    Claims.waits s ((s.await .blocked (.migrate d k)).recheck s.curB.cell s.curB.thread)
      (if (s.barrel s.curB.cell).queued x.uid then .blocked else .migrating) (.migrate d k) := by
  have hqueued : ((s.await .blocked (.migrate d k)).barrel s.curB.cell).queued x.uid = (s.barrel s.curB.cell).queued x.uid :=
    s.barrel_await_keeps _ _ (fun b => b.queued x.uid) (fun _ _ => rfl) _
  have hthread : (s.await .blocked (.migrate d k)).thread? s.curB.cell s.curB.thread =
      some { x with pc := x.pc + 8, ready := s.clk + 8, state := .blocked, wait := .migrate d k } := State.thread?_updThread hx _
  obtain ⟨hmem, hon⟩ := State.recheck_migrate hthread rfl (by simp)
  rw [hqueued] at hon
  exact ⟨hmem.trans (by simp [State.await, State.updTh]), _, hon, rfl, rfl, by rw [State.th_of_thread hx]⟩

/-! ## Ends (R340) -/

/-- The state in which EXIT has begun: its thread waits, and neither wake nor message is kept for it. -/
def State.exiting (s : State) : State := (s.await .blocked .exit).updTh fun t => { t with wake := false, inbox := [] }

/-- The thread that EXIT has begun to end. -/
def Thread.exiting (x : Thread) (clk : Nat) : Thread :=
  { x with pc := x.pc + 8, ready := clk + 8, state := .blocked, wait := .exit, wake := false, inbox := [] }

@[simp] theorem State.exiting_curB (s : State) : s.exiting.curB = s.curB := by simp [State.exiting, State.await, State.updTh]
@[simp] theorem State.exiting_mem (s : State) : s.exiting.mem = s.mem := by simp [State.exiting, State.await, State.updTh]
@[simp] theorem State.exiting_groups (s : State) : s.exiting.groups = s.groups := by simp [State.exiting, State.await, State.updTh]
theorem State.exiting_outstanding (s : State) (uid : Nat) : s.exiting.outstanding uid = s.outstanding uid := by
  simp [State.outstanding, State.exiting, State.await, State.updTh]

theorem State.thread?_exiting (hx : Claims.thread s = some x) :
    s.exiting.thread? s.curB.cell s.curB.thread = some (x.exiting s.clk) := by
  have h := thread_updTh (thread_await hx .blocked .exit) fun t => { t with wake := false, inbox := [] }
  have hcurB : ((s.await .blocked .exit).updTh fun t => { t with wake := false, inbox := [] }).curB = s.curB := s.exiting_curB
  rwa [Claims.thread, hcurB] at h

theorem State.queued_exiting (s : State) (uid : Nat) :
    (s.exiting.barrel s.curB.cell).queued uid = (s.barrel s.curB.cell).queued uid := by
  rw [State.exiting, State.updTh, State.barrel_updThread_keeps (fun b => b.queued uid) fun _ _ => rfl]
  exact s.barrel_await_keeps _ _ (fun b => b.queued uid) (fun _ _ => rfl) _

theorem exec_exit (s : State) : exec .exit s = .next (s.exiting.tryExit s.curB.cell s.curB.thread) := rfl

theorem exit_waits (hx : Claims.thread s = some x) (hout : s.outstanding x.uid ≠ []) :
    ∃ t, exec .exit s = .next t ∧ Claims.waits s t .blocked .exit := by
  have hthread := State.thread?_exiting hx
  have hstay : s.exiting.tryExit s.curB.cell s.curB.thread = s.exiting := by
    have hout' : (s.outstanding (x.exiting s.clk).uid).isEmpty = false := by
      rw [List.isEmpty_eq_false_iff]
      exact hout
    simp [State.tryExit, hthread, State.exiting_outstanding, hout']
  exact ⟨s.exiting, by rw [exec_exit, hstay], s.exiting_mem, _, hthread, rfl, rfl, by rw [State.th_of_thread hx]; rfl⟩

/-- An update of a serving group beside its holder keeps every holder. -/
theorem State.holder_updGroup {g : Nat} {f : ServingGroup → ServingGroup} (hf : ∀ q, (f q).holder = q.holder) (n : Nat) :
    ((s.updGroup g f).group n).holder = (s.group n).holder := by
  rw [State.group, State.updGroup, Vector.getElem?_setIfInBounds]
  split_ifs with h hlt
  · rw [← h]
    exact hf _
  · rw [State.group, Vector.getElem?_eq_none (by omega)]
  · rfl

/-- A thread freed that holds no token and keeps no sender waiting leaves its slot empty, and the executing thread the one it is. -/
theorem State.freeThread_empties {cell t : Nat} {y : Thread} (hy : s.thread? cell t = some y) (hholder : ∀ n, (s.group n).holder = none)
    (hsenders : y.senders = []) : (s.freeThread cell t).curB = s.curB ∧ (s.freeThread cell t).thread? cell t = none := by
  suffices h : ∃ u, s.freeThread cell t = u ∧ u.curB = s.curB ∧ u.thread? cell t = none by
    obtain ⟨u, rfl, h⟩ := h
    exact h
  unfold State.freeThread
  split
  case h_1 hnone => exact absurd (hnone.symm.trans hy) (by simp)
  case h_2 z hz =>
    obtain rfl : z = y := Option.some.inj (hz.symm.trans hy)
    refine ⟨_, rfl, ?_⟩
    extract_lets s1 s2 s3
    have hempty : s1.thread? cell t = none := by
      rw [State.thread?, State.barrel_updBarrel_self, Table.get?_erase, if_pos rfl]
    have h2 : s2.barrels = s1.barrels ∧ s2.curB = s.curB ∧ ∀ n, (s2.group n).holder = none := by
      refine List.foldlRecOn _ _ (motive := fun u : State => u.barrels = s1.barrels ∧ u.curB = s.curB ∧ ∀ n, (u.group n).holder = none)
        ⟨rfl, rfl, hholder⟩ fun u hu g _ => ?_
      obtain ⟨hbarrels, hcurB, hnone⟩ := hu
      rw [if_neg (by simp [hnone])]
      exact ⟨hbarrels, hcurB, fun n => (State.holder_updGroup (by exact fun _ => rfl) n).trans (hnone n)⟩
    have h3 : s3.barrels = s1.barrels ∧ s3.curB = s.curB := by
      have hs3 : s3 = (s2.forget (threadAgent z.uid)).dispatchFrom cell := by
        unfold s3
        rw [hsenders, List.foldl_nil]
      rw [hs3, State.dispatchFrom_barrels, State.dispatchFrom_curB]
      clear_value s2
      exact ⟨h2.1, h2.2.1⟩
    have hgone : s3.thread? cell t = none := (State.thread?_of_barrels h3.1 _ _).trans hempty
    split
    · exact ⟨(State.after_curB ..).trans h3.2, (State.thread?_after ..).trans hgone⟩
    · exact ⟨h3.2, hgone⟩

theorem exit_frees (hx : Claims.thread s = some x) (hout : s.outstanding x.uid = []) (hqueued : (s.barrel s.curB.cell).queued x.uid = false)
    (hparent : x.parent = none) (hholder : ∀ n, (s.group n).holder = none) (hsenders : x.senders = []) :
    ∃ t, exec .exit s = .next t ∧ t.mem = s.mem ∧ Claims.thread t = none := by
  have hthread := State.thread?_exiting hx
  have hfrees : s.exiting.tryExit s.curB.cell s.curB.thread = s.exiting.freeThread s.curB.cell s.curB.thread := by
    have hqueued' : (s.exiting.barrel s.curB.cell).queued (x.exiting s.clk).uid = false := (s.queued_exiting _).trans hqueued
    have hout' : (s.outstanding (x.exiting s.clk).uid).isEmpty = true := List.isEmpty_iff.mpr hout
    have hparent' : (x.exiting s.clk).parent = none := hparent
    simp [State.tryExit, hthread, hqueued', State.exiting_outstanding, hout', hparent', State.childEnded, show (x.exiting s.clk).wait = .exit from rfl]
  have hframe : s.exiting.Frame False (s.exiting.freeThread s.curB.cell s.curB.thread) := .freeThread (.refl _ _) id
  obtain ⟨hcurB, hempty⟩ := State.freeThread_empties hthread (fun n => by rw [State.group, s.exiting_groups]; exact hholder n) hsenders
  refine ⟨_, (exec_exit s).trans (by rw [hfrees]), hframe.mem.trans s.exiting_mem, ?_⟩
  rw [Claims.thread, hcurB, s.exiting_curB]
  exact hempty

/-- Settles O35: each clause is the branch of its instruction that the hypotheses choose. -/
theorem barrelThreadsComplete : Obligations.BarrelThreadsComplete := by
  intro s x hx
  refine ⟨⟨fun h => exec_barrelFence_done hx h, fun hout hkind => barrelFence_waits hx hout hkind⟩,
    fun hpair hroom hlive => fork_pushes hx hpair hroom hlive, fun hpair hlive => exec_join_done hx hpair hlive,
    fun hpair hlive => join_waits hx hpair hlive, ?yld, fun h => exec_park_woken hx h, fun h => park_waits hx h,
    fun hpair hnames hstays => ?stays, fun hpair hnames hlevel hlive => ?goes, fun hout => exit_waits hx hout,
    fun hout hqueued hparent hholder hsenders => exit_frees hx hout hqueued hparent hholder hsenders⟩
  case yld =>
    by_cases h : s.rivals = []
    · obtain ⟨t, y, ht, hmem, hy, hpc, hready⟩ := yld_alone hx h
      refine ⟨t, y, ht, hmem, hy, hpc, fun _ => hready, fun ⟨p, hp, hne, hcould⟩ => ?_⟩
      have hrival : p.1 ∈ s.rivals := (s.mem_rivals _).mpr ⟨p, hp, rfl, hne, hcould⟩
      exact absurd (h ▸ hrival) List.not_mem_nil
    · obtain ⟨t, y, ht, hmem, hy, hpc, hready, hyields⟩ := yld_rivals hx h
      refine ⟨t, y, ht, hmem, hy, hpc, fun hnone => ?_, fun _ => ⟨hready, fun n => hyields ▸ s.mem_rivals n⟩⟩
      obtain ⟨n, hn⟩ := List.exists_mem_of_ne_nil _ h
      obtain ⟨p, hp, rfl, hne, hcould⟩ := (s.mem_rivals n).mp hn
      exact absurd hcould (Bool.eq_false_iff.mp (hnone p hp hne))
  case stays => rw [exec_emigr_named hx hpair hnames, if_pos hstays]
  case goes =>
    refine ⟨_, ?_, waits_recheck_migrate hx _ _⟩
    rw [exec_emigr_named hx hpair hnames, if_neg (by simp [hlevel, hlive])]
    rfl

end Sys2Proof.Machine

/-! SUPPORT. The scratchpad banks, the full-empty waits, the arbiter and the answers of barrel cores (10_barrel R295 to R297, R299). -/

namespace Sys2Proof.Machine

open Sys2Proof

variable {s : State}

/-! ## Turns at a bank (R295) -/

theorem exec_scratchpadBankService_single {cell bank : Nat} {q : Nat × Nat} {r : Request}
    (hport : s.scratchPorts.getD (bankKey cell bank) [] = [q]) (hr : s.requests.get? q.2 = some r) (haway : r.stage = .away) :
    exec (.scratchpadBankService cell bank) s =
      .next ({ s with scratchPorts := s.scratchPorts.erase (bankKey cell bank) }.bankTurn q.2 r bank q.1) := by
  show execScratchpadBankService cell bank s = _
  simp [execScratchpadBankService, hport, hr, haway]

/-! ## Waits on a full-empty word (R296, R299) -/

/-- The state in which a request no longer waits on a word. -/
def State.unparked (s : State) (word id : Nat) : State :=
  let rest := (s.parked.getD word []).erase id
  { s with parked := if rest.isEmpty then s.parked.erase word else s.parked.set word rest }

theorem State.parked_unparked (s : State) (word id : Nat) :
    (s.unparked word id).parked.getD word [] = (s.parked.getD word []).erase id := by
  unfold State.unparked
  extract_lets rest
  dsimp only
  split
  · next h =>
    rw [Table.getD, Table.get?_erase, if_pos rfl, Option.getD_none]
    exact (List.isEmpty_iff.mp h).symm
  · rw [Table.getD_set_self]

theorem mem_insertRank (x : Nat × Nat) (l : List (Nat × Nat)) : x ∈ insertRank x l := by
  induction l with
  | nil => exact List.mem_cons_self
  | cons y l ih =>
    rw [insertRank]
    split
    · exact List.mem_cons_of_mem _ ih
    · exact List.mem_cons_self

theorem State.mem_bankTakes (s : State) (cell bank rank id due : Nat) :
    (rank, id) ∈ (s.bankTakes cell bank rank id due).scratchPorts.getD (bankKey cell bank) [] := by
  rw [State.bankTakes, State.at'_scratchPorts, Table.getD_set_self]
  exact mem_insertRank _ _

/-- The state in which a waiting request that can be served has gone back to its bank. -/
def State.unparkedToBank (s : State) (cell word id : Nat) : State :=
  ((s.unparked word id).updReq id fun r => { r with stage := .away }).bankTakes cell (scratchBank word) 0 id (s.clk + 1)

theorem exec_fullEmptyServe_found {cell word id : Nat} (h : (s.parked.getD word []).find? s.canServe = some id) :
    exec (.fullEmptyServe cell word) s = .next (s.unparkedToBank cell word id) := by
  show execFullEmptyServe cell word s = _
  simp only [execFullEmptyServe, h]
  rfl

theorem State.unparkedToBank_parked (s : State) (cell word id : Nat) :
    (s.unparkedToBank cell word id).parked.getD word [] = (s.parked.getD word []).erase id := by
  rw [State.unparkedToBank, State.bankTakes, State.at'_parked, State.updReq_parked]
  exact s.parked_unparked word id

theorem fullEmptyServe_serves {cell word id : Nat} (h : (s.parked.getD word []).find? s.canServe = some id) :
    ∃ t, exec (.fullEmptyServe cell word) s = .next t ∧ t.mem = s.mem ∧ t.cores = s.cores ∧ t.barrels = s.barrels ∧
      t.parked.getD word [] = (s.parked.getD word []).erase id ∧ (0, id) ∈ t.scratchPorts.getD (bankKey cell (scratchBank word)) [] :=
  ⟨_, exec_fullEmptyServe_found h, by simp [State.unparkedToBank, State.bankTakes, State.unparked],
    by simp [State.unparkedToBank, State.bankTakes, State.unparked], by simp [State.unparkedToBank, State.bankTakes, State.unparked],
    s.unparkedToBank_parked cell word id, State.mem_bankTakes _ _ _ _ _ _⟩

theorem exec_fullEmptyTimeout_parked {id : Nat} {r : Request} (hr : s.requests.get? id = some r) (hstage : r.stage = .parked)
    (hid : id ∈ s.parked.getD r.pa []) :
    exec (.fullEmptyTimeout id) s = .next ((s.unparked r.pa id).answered id [] (some (57, word r.va))) := by
  have hwaits : (r.stage == .parked && (s.parked.getD r.pa []).contains id) = true := by simp [hstage, hid]
  show execFullEmptyTimeout id s = _
  simp only [execFullEmptyTimeout, hr, hwaits]
  rfl

/-! ## Promotion (R297) -/

/-- A request older than 256 periods is promoted. -/
def Request.promotedAt (r : Request) (clk : Nat) : Request := { r with promoted := r.promoted || decide (r.issued + 256 < clk) }

/-- The state in which the requests of some numbers have been looked at. -/
def State.promoting (s : State) (ids : List Nat) : State := ids.foldl (fun s id => s.updReq id fun r => r.promotedAt s.clk) s

theorem Request.promotedAt_twice (r : Request) (clk : Nat) : (r.promotedAt clk).promotedAt clk = r.promotedAt clk := by
  have htwice (a b : Bool) : ((a || b) || b) = (a || b) := by rw [Bool.or_assoc, Bool.or_self]
  exact congrArg (fun b => { r with promoted := b }) (htwice _ _)

theorem State.promoting_keeps {α : Type} (p : State → α) (hp : ∀ u : State, ∀ id f, p (u.updReq id f) = p u) (s : State) (ids : List Nat) :
    p (s.promoting ids) = p s := List.foldlRecOn ids _ (motive := fun u : State => p u = p s) rfl fun _ hu _ _ => (hp _ _ _).trans hu

theorem State.get?_promoting (s : State) (ids : List Nat) (k : Nat) : (s.promoting ids).requests.get? k =
    if k ∈ ids then (s.requests.get? k).map (·.promotedAt s.clk) else s.requests.get? k := by
  induction ids generalizing s with
  | nil => rfl
  | cons id ids ih =>
    rw [State.promoting, List.foldl_cons]
    refine (ih _).trans ?_
    rw [State.updReq_clk, State.get?_updReq]
    by_cases hk : k = id
    · by_cases hmem : k ∈ ids <;> cases s.requests.get? k <;> simp [hk, Request.promotedAt_twice]
    · simp [hk]

theorem exec_requestPromotion (cell : Nat) (s : State) :
    exec (.requestPromotion cell) s = .next ((s.promoting (s.barrel cell).waiting).arbiter cell) := rfl

theorem requestPromotion_promotes (cell : Nat) (s : State) :
    ∃ t, exec (.requestPromotion cell) s = .next t ∧ t.mem = s.mem ∧ t.barrels = s.barrels ∧ t.cores = s.cores ∧
      ∀ id ∈ (s.barrel cell).waiting, ∀ r, s.requests.get? id = some r →
        t.requests.get? id = some { r with promoted := r.promoted || decide (r.issued + 256 < s.clk) } := by
  refine ⟨_, exec_requestPromotion cell s, ?_, ?_, ?_, fun id hid r hr => ?_⟩
  · exact (State.at'_mem ..).trans (State.promoting_keeps State.mem (by simp) _ _)
  · exact (State.at'_barrels ..).trans (State.promoting_keeps State.barrels (by simp) _ _)
  · exact (State.at'_cores ..).trans (State.promoting_keeps State.cores (by simp) _ _)
  · rw [State.arbiter, State.at'_requests, State.get?_promoting, if_pos hid, hr]
    rfl

/-! ## Answers (R297) -/

section Answers

variable {cell thread id : Nat} {x : Thread} {r : Request}

theorem exec_memoryRequestCompletion_fault (hx : s.thread? cell thread = some x) (hwait : x.wait = .request id)
    (hr : s.requests.get? id = some r) (hserved : r.stage = .served) {f : Nat × Word} (hfault : r.fault = some f) :
    exec (.memoryRequestCompletion cell thread) s = .next (s.requestFaults id f.1 f.2) := by
  show execMemoryRequestCompletion cell thread s = _
  simp [execMemoryRequestCompletion, hx, hwait, hr, hserved, hfault]

theorem exec_memoryRequestCompletion_load (hx : s.thread? cell thread = some x) (hwait : x.wait = .request id)
    (hr : s.requests.get? id = some r) (hserved : r.stage = .served) (hfault : r.fault = none) {d n : Nat} {sx : Bool}
    (hkind : r.kind = .load d n sx) : exec (.memoryRequestCompletion cell thread) s =
      .next ((s.dropRequest id).completes cell thread (r.results r.answer)) := by
  have hends : s.goesOn id r r.answer = none := by simp only [State.goesOn, hkind]
  have hfinal : r.final r.answer = r.answer := by simp only [Request.final, hkind]
  show execMemoryRequestCompletion cell thread s = _
  simp [execMemoryRequestCompletion, hx, hwait, hr, hserved, hfault, hends, hfinal]

end Answers

/-- Settles O45: each event is the one branch that its hypotheses choose. -/
theorem barrelAccessEventsComplete : Obligations.BarrelAccessEventsComplete :=
  ⟨fun _ _ _ _ _ hport hr haway => exec_scratchpadBankService_single hport hr haway, fun _ _ _ _ hfound => fullEmptyServe_serves hfound,
    fun id r s hr hstage hid => ⟨s.unparked r.pa id, rfl, rfl, rfl, s.parked_unparked _ _, exec_fullEmptyTimeout_parked hr hstage hid⟩,
    requestPromotion_promotes, fun _ _ _ _ _ _ hx hwait hr hserved =>
      ⟨fun _ hfault => exec_memoryRequestCompletion_fault hx hwait hr hserved hfault,
        fun _ _ _ hfault hkind => exec_memoryRequestCompletion_load hx hwait hr hserved hfault hkind⟩⟩

end Sys2Proof.Machine

/-! SUPPORT. Issue, the dispatch of task packets and the sampler's start of barrel cores (10_barrel R287, R301, R302; 12_draft R374). -/

namespace Sys2Proof.Machine

open Sys2Proof

variable {s : State} {cell : Nat}

/-! ## Issue (R287) -/

/-- Slots whose threads cannot issue are passed over. -/
theorem State.issueScan_append {l : List Nat} (h : ∀ n ∈ l, ∀ y, s.thread? cell n = some y → y.canIssue s.clk = false) (rest : List Nat) :
    s.issueScan cell (l ++ rest) = s.issueScan cell rest := by
  induction l with
  | nil => rfl
  | cons n l ih =>
    obtain ⟨hn, hl⟩ := List.forall_mem_cons.mp h
    rw [List.cons_append, State.issueScan, ih hl]
    cases hy : s.thread? cell n with
    | none => rfl
    | some y => simp [hn y hy]

theorem State.issueScan_cons {t : Nat} {x : Thread} {rest : List Nat} (hx : s.thread? cell t = some x) (hcan : x.canIssue s.clk = true)
    (hfetch : s.fetchAt cell x ≠ none) (hheld : s.fetchHeld cell x = false) (hsfn : s.sfnHolds cell x = false) :
    s.issueScan cell (t :: rest) = s.issueThread cell t := by
  have hfetch' : (s.fetchAt cell x).isNone = false := Option.isNone_eq_false_iff.mpr (Option.isSome_iff_ne_none.mpr hfetch)
  simp [State.issueScan, hx, hcan, hfetch', hheld, hsfn]

/-- The order in which a core looks at its slots, from the start up to and from the one at a place. -/
theorem turns_split (f : Nat → Nat) {k n : Nat} (hk : k < n) :
    ∃ rest, (List.range n).map f = (List.range k).map f ++ f k :: rest := by
  obtain ⟨m, rfl⟩ := Nat.exists_eq_add_of_lt hk
  refine ⟨((List.range m).map (fun j => k + (j + 1))).map f, ?_⟩
  rw [Nat.add_assoc, List.range_add, List.range_succ_eq_map]
  simp [Function.comp_def]

/-- A thread that issues is the last of its core to have done so, and its instruction is due. -/
theorem State.issueThread_issues (s : State) (cell t : Nat) : ((s.issueThread cell t).barrel cell).last = t ∧
    (s.issueThread cell t).mem = s.mem ∧ (s.issueThread cell t).cores = s.cores ∧ Claims.due (s.issueThread cell t) (.thread cell t) := by
  unfold State.issueThread
  extract_lets s1 s2
  have h2 : s1.Books s2 := (State.Books.refl s1).foldl fun h => h.at'.ite h
  have hclk : s2.clk = s.clk := h2.clk
  refine ⟨?_, (State.at'_mem ..).trans h2.mem, (State.at'_cores ..).trans h2.cores, _, (State.mem_at' ..).mpr (.inl rfl), ?_, rfl⟩
  · rw [State.barrel_at', State.barrel_of_barrels h2.barrels, State.barrel_updBarrel_self]
  · rw [State.at'_clk, hclk]

theorem barrelIssue_issues {k : Nat} {x : Thread} (hretired : s.retired cell = false) (hreleased : s.mgmt.released = true) (hk : k < 64)
    (hx : s.thread? cell (Claims.turn s cell k) = some x) (hcan : x.canIssue s.clk = true) (hfetch : s.fetchAt cell x ≠ none)
    (hheld : s.fetchHeld cell x = false) (hsfn : s.sfnHolds cell x = false)
    (hskip : ∀ j < k, ∀ y, s.thread? cell (Claims.turn s cell j) = some y → y.canIssue s.clk = false) :
    exec (.barrelIssue cell) s = .next (s.issueThread cell (Claims.turn s cell k)) := by
  obtain ⟨rest, hsplit⟩ := turns_split (fun j => ((s.barrel cell).last + 1 + j) % 64) hk
  have hbefore : ∀ n ∈ (List.range k).map (fun j => ((s.barrel cell).last + 1 + j) % 64),
      ∀ y, s.thread? cell n = some y → y.canIssue s.clk = false := by
    intro n hn
    obtain ⟨j, hj, rfl⟩ := List.mem_map.mp hn
    exact hskip j (List.mem_range.mp hj)
  show execBarrelIssue cell s = _
  rw [execBarrelIssue, hretired, hreleased, hsplit, State.issueScan_append hbefore]
  exact (if_neg (by decide)).trans (congrArg _ <| State.issueScan_cons hx hcan hfetch hheld hsfn)

/-! ## A thread's arguments (R294, R301) -/

section Writes

variable {b : BarrelCore} {base : Nat}

/-- A quantity of a barrel core that reads none of its registers is kept by a write of one. -/
theorem BarrelCore.write_keeps {α : Type} (p : BarrelCore → α)
    (h : ∀ b c f po, p { b with common := c, file := f, poison := po } = p b) (b : BarrelCore) (base n : Nat) (v : Word) :
    p (b.write base n v) = p b := by
  unfold BarrelCore.write
  split_ifs
  · exact h b _ _ _
  · rfl
  · exact h b _ _ _
  · exact h b _ _ _

theorem BarrelCore.read_write_self {n : Nat} (h1 : 1 ≤ n) (hn : n < 128) (v : Word) : (b.write base n v).read base n = v := by
  have hlow : ¬128 ≤ n := Nat.not_le.mpr hn
  have hpos : (n == 0) = false := by simpa using Nat.ne_of_gt h1
  simp only [BarrelCore.write, BarrelCore.read, hlow, hpos, if_false, Bool.false_eq_true]
  split_ifs with hv
  · rw [Table.getD, Table.get?_erase, if_pos rfl, Option.getD_none, eq_comm]
    exact beq_iff_eq.mp hv
  · exact Table.getD_set_self _ _ _ _

theorem BarrelCore.read_write_ne {m n : Nat} (hm : m < 128) (hn : n < 128) (hne : n ≠ m) (v : Word) :
    (b.write base m v).read base n = b.read base n := by
  have hlowm : ¬128 ≤ m := Nat.not_le.mpr hm
  have hlow : ¬128 ≤ n := Nat.not_le.mpr hn
  simp only [BarrelCore.write, BarrelCore.read, hlowm, hlow, if_false]
  split_ifs
  · rfl
  · rfl
  · show (b.file.erase (base + m)).getD (base + n) 0 = _
    rw [Table.getD, Table.get?_erase, if_neg (by omega), Table.getD]
  · exact Table.getD_set_ne _ _ _ _ _ (by omega)

/-- The core in which a run's registers have been written. -/
def BarrelCore.writes (b : BarrelCore) (base : Nat) (ws : List (Nat × Word)) : BarrelCore :=
  ws.foldl (fun b w => b.write base w.1 w.2) b

theorem BarrelCore.writes_keeps {α : Type} (p : BarrelCore → α)
    (h : ∀ b c f po, p { b with common := c, file := f, poison := po } = p b) (b : BarrelCore) (base : Nat) (ws : List (Nat × Word)) :
    p (b.writes base ws) = p b :=
  List.foldlRecOn ws _ (motive := fun c => p c = p b) rfl fun c hc w _ => (BarrelCore.write_keeps p h c base w.1 w.2).trans hc

theorem BarrelCore.read_writes_of_notMem {ws : List (Nat × Word)} (hws : ∀ w ∈ ws, w.1 < 128) {n : Nat} (hn : n < 128)
    (hout : n ∉ ws.map (·.1)) : (b.writes base ws).read base n = b.read base n := by
  refine List.foldlRecOn ws _ (motive := fun c => BarrelCore.read c base n = b.read base n) rfl fun c hc w hw => ?_
  have hne : n ≠ w.1 := fun h => hout (List.mem_map.mpr ⟨w, hw, h.symm⟩)
  exact (BarrelCore.read_write_ne (hws w hw) hn hne w.2).trans hc

/-- Of registers written once each, every one reads as it was written. -/
theorem BarrelCore.read_writes_of_mem {ws : List (Nat × Word)} (hws : ∀ w ∈ ws, w.1 < 128) (hnodup : (ws.map (·.1)).Nodup)
    {n : Nat} {v : Word} (hpos : 1 ≤ n) (hmem : (n, v) ∈ ws) : (b.writes base ws).read base n = v := by
  induction ws generalizing b with
  | nil => exact absurd hmem List.not_mem_nil
  | cons w ws ih =>
    obtain ⟨hw, hrest⟩ := List.forall_mem_cons.mp hws
    obtain ⟨hout, hnodup⟩ := List.nodup_cons.mp hnodup
    obtain rfl | hmem := List.mem_cons.mp hmem
    · exact (BarrelCore.read_writes_of_notMem hrest hw hout).trans (BarrelCore.read_write_self hpos hw v)
    · exact ih hrest hnodup hmem

end Writes

/-! ## A thread's start (R294, R301) -/

/-- The thread that starts under the next name. -/
def State.christened (s : State) (x : Thread) : Thread := { x with uid := s.nextId }

/-- The core in which a thread has started: its slot holds it, and its registers its arguments. -/
def State.startedCore (s : State) (cell t : Nat) (x : Thread) (args : List (Nat × Word)) : BarrelCore :=
  BarrelCore.writes { s.barrel cell with threads := (s.barrel cell).threads.set t (s.christened x) } x.base
    (args.filter fun a => decide (a.1 < x.count))

/-- Writes of a core's registers, one after another. -/
theorem State.foldl_write (s : State) (cell base : Nat) (ws : List (Nat × Word)) :
    let t := ws.foldl (fun s a => s.updBarrel cell fun b => b.write base a.1 a.2) s
    t.mem = s.mem ∧ t.clk = s.clk ∧ t.barrel cell = (s.barrel cell).writes base ws := by
  induction ws generalizing s with
  | nil => exact ⟨rfl, rfl, rfl⟩
  | cons w ws ih =>
    obtain ⟨hmem, hclk, hcore⟩ := ih (s.updBarrel cell fun b => b.write base w.1 w.2)
    exact ⟨hmem, hclk, hcore.trans (congrArg (BarrelCore.writes · base ws) (State.barrel_updBarrel_self _ _ _))⟩

theorem State.startThread_starts (s : State) (cell t : Nat) (x : Thread) (args : List (Nat × Word)) :
    (s.startThread cell t x args).mem = s.mem ∧ (s.startThread cell t x args).barrel cell = s.startedCore cell t x args := by
  obtain ⟨hmem, -, hcore⟩ := State.foldl_write ({ s with nextId := s.nextId + 1 }.updBarrel cell fun b =>
    { b with threads := b.threads.set t { x with uid := s.nextId } }) cell x.base (args.filter fun a => decide (a.1 < x.count))
  refine ⟨(State.at'_mem ..).trans hmem, (State.barrel_at' ..).trans (hcore.trans ?_)⟩
  rw [State.barrel_updBarrel_self]
  rfl

theorem State.startedCore_threads (s : State) (cell t : Nat) (x : Thread) (args : List (Nat × Word)) :
    (s.startedCore cell t x args).threads.get? t = some (s.christened x) :=
  (congrArg (Table.get? · t) (BarrelCore.writes_keeps BarrelCore.threads (fun _ _ _ _ => rfl) _ _ _)).trans (Table.get?_set_self _ _ _)

/-- A quantity of a core that reads neither its threads nor its registers is kept by a thread's start. -/
theorem State.startedCore_keeps {α : Type} (p : BarrelCore → α)
    (h : ∀ b ts c f po, p { b with threads := ts, common := c, file := f, poison := po } = p b) (s : State) (cell t : Nat) (x : Thread)
    (args : List (Nat × Word)) : p (s.startedCore cell t x args) = p (s.barrel cell) :=
  (BarrelCore.writes_keeps p (fun b c f po => h b b.threads c f po) _ _ _).trans
    (h (s.barrel cell) _ (s.barrel cell).common (s.barrel cell).file (s.barrel cell).poison)

/-! ## Task packets (R301) -/

theorem TaskPacket.keys_args (p : TaskPacket) : p.args.map (·.1) = [1, 2, 3, 4, 5] := rfl

theorem TaskPacket.mem_args (p : TaskPacket) {n : Nat} (h1 : 1 ≤ n) (h5 : n ≤ 5) : (n, p.word (2 + n)) ∈ p.args := by
  refine List.mem_map.mpr ⟨n - 1, List.mem_range.mpr (by omega), ?_⟩
  rw [show n - 1 + 1 = n by omega, show 3 + (n - 1) = 2 + n by omega]

theorem State.read_startedCore {p : TaskPacket} {t n : Nat} {x : Thread} (h1 : 1 ≤ n) (h5 : n ≤ 5) (hn : n < x.count) :
    (s.startedCore cell t x p.args).read x.base n = p.word (2 + n) := by
  refine BarrelCore.read_writes_of_mem (fun w hw => ?_) ?_ h1 (List.mem_filter.mpr ⟨p.mem_args h1 h5, by simpa using hn⟩)
  · have hkey : w.1 ∈ p.args.map (·.1) := List.mem_map_of_mem (List.mem_of_mem_filter hw)
    rw [p.keys_args] at hkey
    have hall : ∀ k ∈ [1, 2, 3, 4, 5], k < 128 := by decide
    exact hall _ hkey
  · have hnodup : (p.args.map (·.1)).Nodup := by rw [p.keys_args]; decide
    exact hnodup.sublist (List.filter_sublist.map _)

/-- The state in which a packet has left its core's queue and its thread has started. -/
def State.dispatched (s : State) (cell slot base : Nat) (p : TaskPacket) : State :=
  let taken := s.updBarrel cell fun b => { b with tasks := b.tasks.drop 1 }
  taken.startThread cell slot (taken.packetThread p base) p.args

theorem exec_taskDispatch_packet {slot base : Nat} {p : TaskPacket} {ps : List TaskPacket} (hretired : s.retired cell = false)
    (hreleased : s.mgmt.released = true) (hsampler : (s.barrel cell).smpStart = false) (hslot : (s.barrel cell).freeSlot = some slot)
    (htasks : (s.barrel cell).tasks = p :: ps) (hfit : (s.barrel cell).firstFit p.count = some base) (hpaired : p.paired = false) :
    exec (.taskDispatch cell) s = .next ((s.dispatched cell slot base p).at' ((s.dispatched cell slot base p).clk + 1) phDispatch
      (cell * 2 + 1) (.op (.taskDispatch cell))) := by
  have hstarts : s.startSampler cell = s := by simp [State.startSampler, hsampler]
  have hdispatch : s.dispatchPacket cell p = some (s.dispatched cell slot base p) := by
    simp [State.dispatchPacket, State.dispatched, hpaired, hslot, hfit]
  show execTaskDispatch cell s = _
  simp [execTaskDispatch, hreleased, hstarts, hretired, hslot, htasks, hdispatch]

theorem taskDispatch_starts {slot base : Nat} {p : TaskPacket} {ps : List TaskPacket} (hretired : s.retired cell = false)
    (hreleased : s.mgmt.released = true) (hsampler : (s.barrel cell).smpStart = false) (hslot : (s.barrel cell).freeSlot = some slot)
    (htasks : (s.barrel cell).tasks = p :: ps) (hfit : (s.barrel cell).firstFit p.count = some base) (hpaired : p.paired = false) :
    ∃ t x, exec (.taskDispatch cell) s = .next t ∧ t.mem = s.mem ∧ (t.barrel cell).tasks = ps ∧ t.thread? cell slot = some x ∧
      x.state = .runnable ∧ x.ctx = p.ctx ∧ x.pc = (p.word 0).setWidth 48 ∧ x.count = p.count ∧ x.base = base ∧
      ∀ n, 1 ≤ n → n ≤ 5 → n < p.count → (t.barrel cell).read base n = p.word (2 + n) := by
  obtain ⟨taken, htaken⟩ : ∃ taken, taken = s.updBarrel cell fun b => { b with tasks := b.tasks.drop 1 } := ⟨_, rfl⟩
  have hdispatched : s.dispatched cell slot base p = taken.startThread cell slot (taken.packetThread p base) p.args := by
    rw [htaken, State.dispatched]
  obtain ⟨hmem, hcore⟩ := taken.startThread_starts cell slot (taken.packetThread p base) p.args
  have hqueue : (taken.barrel cell).tasks = ps := by
    rw [htaken, State.barrel_updBarrel_self]
    simp [htasks]
  refine ⟨_, taken.christened (taken.packetThread p base), exec_taskDispatch_packet hretired hreleased hsampler hslot htasks hfit hpaired,
    ?_, ?_, ?_, rfl, rfl, rfl, rfl, rfl, fun n h1 h5 hn => ?_⟩
  · rw [State.at'_mem, hdispatched, hmem, htaken, State.updBarrel_mem]
  · rw [State.barrel_at', hdispatched, hcore, State.startedCore_keeps BarrelCore.tasks fun _ _ _ _ _ => rfl, hqueue]
  · rw [State.thread?_at', hdispatched, State.thread?, hcore, State.startedCore_threads]
  · rw [State.barrel_at', hdispatched, hcore]
    exact State.read_startedCore (x := taken.packetThread p base) h1 h5 hn

/-! ## The sampler's thread (R374) -/

/-- The state in which the sampler's start is no longer pending. -/
def State.samplerTaken (s : State) (cell : Nat) : State := s.updBarrel cell fun b => { b with smpStart := false }

/-- The thread of the sampler. -/
def State.samplerThread (s : State) (cell ctx base : Nat) : Thread :=
  { (s.samplerTaken cell).freshThread ctx (s.barrel cell).smpRegs base (s.barrel cell).smpEnt 0 0 with sampler := true }

theorem exec_samplerStart {base : Nat} (hretired : s.retired cell = false) (hreleased : s.mgmt.released = true)
    (hpending : (s.barrel cell).smpStart = true) (hslot : (s.barrel cell).threads.get? 63 = none)
    (hreserved : ∀ r ∈ (s.barrel cell).reserved, r.slot ≠ 63) (hfit : (s.barrel cell).firstFit (s.barrel cell).smpRegs = some base) :
    exec (.samplerStart cell) s = .next (match s.cellContext cell with
      | none => s
      | some ctx => (s.samplerTaken cell).startThread cell 63 (s.samplerThread cell ctx base) []) := by
  have hunreserved : ((s.barrel cell).reserved.any fun r => r.slot == 63) = false := by
    rw [List.any_eq_false]
    exact fun r hr => by simpa using hreserved r hr
  show execSamplerStart cell s = _
  rw [execSamplerStart, if_pos hreleased, State.startSampler]
  simp only [hpending, hslot, hunreserved, hretired, hfit]
  cases s.cellContext cell <;> rfl

theorem samplerStart_starts {base ctx : Nat} (hretired : s.retired cell = false) (hreleased : s.mgmt.released = true)
    (hpending : (s.barrel cell).smpStart = true) (hslot : (s.barrel cell).threads.get? 63 = none)
    (hreserved : ∀ r ∈ (s.barrel cell).reserved, r.slot ≠ 63) (hfit : (s.barrel cell).firstFit (s.barrel cell).smpRegs = some base)
    (hctx : s.cellContext cell = some ctx) :
    ∃ t x, exec (.samplerStart cell) s = .next t ∧ t.mem = s.mem ∧ (t.barrel cell).smpStart = false ∧ t.thread? cell 63 = some x ∧
      x.sampler = true ∧ x.ctx = ctx ∧ x.pc = (s.barrel cell).smpEnt ∧ x.count = (s.barrel cell).smpRegs ∧ x.base = base := by
  obtain ⟨hmem, hcore⟩ := (s.samplerTaken cell).startThread_starts cell 63 (s.samplerThread cell ctx base) []
  refine ⟨(s.samplerTaken cell).startThread cell 63 (s.samplerThread cell ctx base) [],
    (s.samplerTaken cell).christened (s.samplerThread cell ctx base), ?_, hmem, ?_, ?_, rfl, rfl, rfl, rfl, rfl⟩
  · rw [exec_samplerStart hretired hreleased hpending hslot hreserved hfit, hctx]
  · rw [hcore, State.startedCore_keeps BarrelCore.smpStart fun _ _ _ _ _ => rfl, State.samplerTaken, State.barrel_updBarrel_self]
  · rw [State.thread?, hcore, State.startedCore_threads]

theorem exec_samplerMaskTimeout {thread d id j : Nat} {x : Thread} {r : Request} (hx : s.thread? cell thread = some x)
    (hwait : x.wait = .mask d j id) (hr : s.requests.get? id = some r) (hdue : r.issued + 3 + 2 ^ r.felim ≤ s.clk) :
    exec (.samplerMaskTimeout cell thread) s = .next (s.answered id [] (some (309, word j))) := by
  show execSamplerMaskTimeout cell thread s = _
  simp [execSamplerMaskTimeout, hx, hwait, hr, hdue]

end Sys2Proof.Machine

/-! SUPPORT. Special functions that start and land, trap entry and the kill of a context (10_barrel R326, R327; 11_barrel_traps R330, R344). -/

namespace Sys2Proof.Machine

open Sys2Proof

variable {s : State} {cell : Nat}

/-! ## Special functions that start (R327) -/

/-- The state in which a special function has started, to land in period `l`. -/
def State.sfnStarted (s : State) (cell l : Nat) : State :=
  (s.updBarrel cell fun b => { b with sfn := startFirst l b.sfn, sfnStart := some s.clk, sfnLand := l }).at' l phBarrelLand (cell * 2)
    (.op (.sfnResultLanding cell))

theorem exec_sfnStart_next {q : SfnRequest} (hq : (s.barrel cell).sfn.find? (fun q => q.lands.isNone) = some q)
    (hentered : q.entered ≤ s.clk) (hrate : ∀ x, (s.barrel cell).sfnStart = some x → x + 4 ≤ s.clk) :
    let t := s.sfnStarted cell (max (s.clk + if q.single then 16 else 32) ((s.barrel cell).sfnLand + 1))
    exec (.sfnStart cell) s = .next (if (t.barrel cell).sfn.any fun q => q.lands.isNone then
      t.at' (s.clk + 4) phNet (cell * 64) (.op (.sfnStart cell)) else t) := by
  have hfree : ((s.barrel cell).sfnStart.any fun x => decide (s.clk < x + 4)) = false := by
    rw [Option.any_eq_false_iff_get]
    intro h
    simpa using hrate _ (Option.some_get h).symm
  show execSfnStart cell s = _
  simp only [execSfnStart, hq, if_neg (Nat.not_lt.mpr hentered), hfree]
  rfl

theorem sfnStart_starts {q : SfnRequest} (hq : (s.barrel cell).sfn.find? (fun q => q.lands.isNone) = some q)
    (hentered : q.entered ≤ s.clk) (hrate : ∀ x, (s.barrel cell).sfnStart = some x → x + 4 ≤ s.clk) :
    let l := max (s.clk + if q.single then 16 else 32) ((s.barrel cell).sfnLand + 1)
    ∃ t, exec (.sfnStart cell) s = .next t ∧ t.mem = s.mem ∧ (t.barrel cell).sfnStart = some s.clk ∧ (t.barrel cell).sfnLand = l ∧
      (t.barrel cell).threads = (s.barrel cell).threads ∧ ∃ e ∈ t.events, e.due = l ∧ e.item = .op (.sfnResultLanding cell) := by
  intro l
  have hcore : (s.sfnStarted cell l).barrel cell =
      { s.barrel cell with sfn := startFirst l (s.barrel cell).sfn, sfnStart := some s.clk, sfnLand := l } :=
    (State.barrel_at' ..).trans (State.barrel_updBarrel_self _ _ _)
  have hbooks : (s.sfnStarted cell l).Books (if ((s.sfnStarted cell l).barrel cell).sfn.any fun q => q.lands.isNone then
      (s.sfnStarted cell l).at' (s.clk + 4) phNet (cell * 64) (.op (.sfnStart cell)) else s.sfnStarted cell l) :=
    (State.Books.refl _).at'.ite (.refl _)
  refine ⟨_, exec_sfnStart_next hq hentered hrate, hbooks.mem.trans (State.at'_mem ..), ?_, ?_, ?_, _,
    hbooks.events ((State.mem_at' ..).mpr (.inl rfl)), rfl, rfl⟩
  all_goals rw [State.barrel_of_barrels hbooks.barrels, hcore]

/-! ## Special functions that land (R327) -/

/-- From `s` to `t` threads of a core may have stopped waiting; the memory, the queue of special functions and what is in flight stay. -/
structure State.Resumes (s t : State) (cell : Nat) : Prop where
  mem     : t.mem = s.mem
  sfn     : (t.barrel cell).sfn = (s.barrel cell).sfn
  flights : (t.barrel cell).flights = (s.barrel cell).flights
  thread  : ∀ n y, t.thread? cell n = some y → ∃ x, s.thread? cell n = some x ∧ y.uid = x.uid ∧ (y.wait = x.wait ∨ y.wait = .none)

theorem State.Resumes.refl (s : State) (cell : Nat) : s.Resumes s cell := ⟨rfl, rfl, rfl, fun _ y hy => ⟨y, hy, rfl, .inl rfl⟩⟩

theorem State.Resumes.trans {t u : State} (h : s.Resumes t cell) (hu : t.Resumes u cell) : s.Resumes u cell where
  mem := hu.mem.trans h.mem
  sfn := hu.sfn.trans h.sfn
  flights := hu.flights.trans h.flights
  thread n z hz := by
    obtain ⟨y, hy, huid, hwait⟩ := hu.thread n z hz
    obtain ⟨x, hx, huid', hwait'⟩ := h.thread n y hy
    refine ⟨x, hx, huid.trans huid', ?_⟩
    obtain hwait | hwait := hwait
    · rwa [hwait]
    · exact .inr hwait

theorem State.resumes_unblock (s : State) (cell n : Nat) : s.Resumes (s.unblock cell n) cell := by
  unfold State.unblock
  split
  · exact .refl s cell
  · next x hx =>
    refine ⟨?_, ?_, ?_, fun k y hy => ?_⟩
    · simp [State.issueFrom]
    · rw [State.issueFrom, State.barrel_at', State.barrel_updThread_keeps BarrelCore.sfn fun _ _ => rfl]
    · rw [State.issueFrom, State.barrel_at', State.barrel_updThread_keeps BarrelCore.flights fun _ _ => rfl]
    · rw [State.issueFrom, State.thread?_at', State.thread?_updThread_cases] at hy
      split_ifs at hy with hk
      · rw [hk.2, hx] at hy
        exact ⟨x, hk.2 ▸ hx, by rw [← Option.some.inj hy], .inr (by rw [← Option.some.inj hy])⟩
      · exact ⟨y, hy, rfl, .inl rfl⟩

theorem State.resumes_sfnGoOn (s : State) (cell : Nat) : s.Resumes (s.sfnGoOn cell) cell :=
  List.foldlRecOn _ _ (motive := fun u : State => s.Resumes u cell) (.refl s cell) fun u hu p _ => hu.trans (u.resumes_unblock cell p.1)

theorem State.named_some {n uid : Nat} {x : Thread} : s.named cell n uid = some x ↔ s.thread? cell n = some x ∧ x.uid = uid := by
  simp [State.named, Option.filter_eq_some_iff]

/-- A thread that waits for nothing, or for its special functions, looks again: only its trap may be due. -/
theorem State.recheck_of_idle {n : Nat} {y : Thread} (hy : s.thread? cell n = some y) (hwait : y.wait = .none ∨ y.wait = .sfn) :
    s.recheck cell n = s.rechecked cell n y := by
  obtain h | h := hwait <;> simp only [State.recheck, State.rechecked, hy, h]

theorem State.rechecked_books (s : State) (cell n : Nat) (y : Thread) : s.Books (s.rechecked cell n y) :=
  (State.Books.refl s).at'.ite (.refl s)

/-- The result of a special function, as it lands. -/
def SfnRequest.flight (q : SfnRequest) (clk : Nat) : BarrelFlight :=
  { due := clk, seq := q.entered - 1, thread := q.thread, uid := q.uid,
    writes := .reg q.dest q.value :: if q.flags == 0 then [] else [.flags q.flags] }

/-- The state in which a special function has left the queue, and its result is in flight where its thread is to take it. -/
def State.sfnTaken (s : State) (cell : Nat) (q : SfnRequest) (qs : List SfnRequest) : State :=
  let s1 := s.updBarrel cell fun b => { b with sfn := qs }
  if !s.takesResult cell q.thread q.uid then s1
  else (s1.updBarrel cell fun b => { b with flights := b.flights ++ [q.flight s.clk] }).at' s.clk phBarrelLand (cell * 2 + 1) (.barrelLand cell)

section Lands

variable {q : SfnRequest} {qs : List SfnRequest}

theorem exec_sfnResultLanding_due {l : Nat} (hsfn : (s.barrel cell).sfn = q :: qs) (hl : q.lands = some l) (hdue : l ≤ s.clk) :
    exec (.sfnResultLanding cell) s = .next (if (((s.sfnTaken cell q qs).sfnGoOn cell).named cell q.thread q.uid).isSome then
      ((s.sfnTaken cell q qs).sfnGoOn cell).recheck cell q.thread else (s.sfnTaken cell q qs).sfnGoOn cell) := by
  show execSfnResultLanding cell s = _
  simp only [execSfnResultLanding, hsfn, hl, if_neg (Nat.not_lt.mpr hdue)]
  rfl

theorem State.sfnTaken_spec (s : State) (cell : Nat) (q : SfnRequest) (qs : List SfnRequest) : (s.sfnTaken cell q qs).mem = s.mem ∧
    ((s.sfnTaken cell q qs).barrel cell).sfn = qs ∧ (∀ n, (s.sfnTaken cell q qs).thread? cell n = s.thread? cell n) ∧
    ((s.sfnTaken cell q qs).barrel cell).flights = if s.takesResult cell q.thread q.uid then
      (s.barrel cell).flights ++ [q.flight s.clk] else (s.barrel cell).flights := by
  have hqueue (n : Nat) : (s.updBarrel cell fun b => { b with sfn := qs }).thread? cell n = s.thread? cell n :=
    State.thread?_updBarrel (by rfl) _ _
  unfold State.sfnTaken
  cases s.takesResult cell q.thread q.uid with
  | false => exact ⟨rfl, by simp, hqueue, by simp⟩
  | true =>
    refine ⟨by simp, by simp, fun n => (State.thread?_at' ..).trans (Eq.trans ?_ (hqueue n)), by simp⟩
    exact State.thread?_updBarrel (by rfl) _ _

theorem sfnResultLanding_lands {l : Nat} {x : Thread} (hsfn : (s.barrel cell).sfn = q :: qs) (hl : q.lands = some l) (hdue : l ≤ s.clk)
    (hx : s.named cell q.thread q.uid = some x) (hwait : x.wait = .none ∨ x.wait = .sfn) :
    ∃ t, exec (.sfnResultLanding cell) s = .next t ∧ t.mem = s.mem ∧ (t.barrel cell).sfn = qs ∧
      ∃ f ∈ (t.barrel cell).flights, f.due = s.clk ∧ f.thread = q.thread ∧ f.uid = q.uid ∧
        f.writes = .reg q.dest q.value :: if q.flags = 0 then [] else [.flags q.flags] := by
  obtain ⟨hmem, hqueue, hthread, hflights⟩ := s.sfnTaken_spec cell q qs
  have hresumes := (s.sfnTaken cell q qs).resumes_sfnGoOn cell
  have htakes : s.takesResult cell q.thread q.uid = true := by
    obtain h | h := hwait <;> simp only [State.takesResult, hx, h]
  obtain ⟨hslot, -⟩ := State.named_some.mp hx
  have hbooks : ((s.sfnTaken cell q qs).sfnGoOn cell).Books (if (((s.sfnTaken cell q qs).sfnGoOn cell).named cell q.thread q.uid).isSome then
      ((s.sfnTaken cell q qs).sfnGoOn cell).recheck cell q.thread else (s.sfnTaken cell q qs).sfnGoOn cell) := by
    split
    · next hsome =>
      obtain ⟨y, hy⟩ := Option.isSome_iff_exists.mp hsome
      obtain ⟨hy, -⟩ := State.named_some.mp hy
      obtain ⟨x', hx', -, hwait'⟩ := hresumes.thread _ _ hy
      obtain rfl : x = x' := Option.some.inj (hslot.symm.trans ((hthread _).symm.trans hx'))
      rw [State.recheck_of_idle hy (by obtain h | h := hwait' <;> simp [h, hwait])]
      exact State.rechecked_books _ _ _ _
    · exact .refl _
  refine ⟨_, exec_sfnResultLanding_due hsfn hl hdue, (hbooks.mem.trans hresumes.mem).trans hmem, ?_, q.flight s.clk, ?_, rfl, rfl, rfl, ?_⟩
  · rw [State.barrel_of_barrels hbooks.barrels, hresumes.sfn, hqueue]
  · rw [State.barrel_of_barrels hbooks.barrels, hresumes.flights, hflights, if_pos htakes]
    exact List.mem_append_right _ List.mem_cons_self
  · simp only [SfnRequest.flight, beq_iff_eq]

theorem sfnResultLanding_drops {l : Nat} (hsfn : (s.barrel cell).sfn = q :: qs) (hl : q.lands = some l) (hdue : l ≤ s.clk)
    (hnone : s.named cell q.thread q.uid = none) : ∃ t, exec (.sfnResultLanding cell) s = .next t ∧ t.mem = s.mem ∧
      (t.barrel cell).sfn = qs ∧ (t.barrel cell).flights = (s.barrel cell).flights := by
  obtain ⟨hmem, hqueue, hthread, hflights⟩ := s.sfnTaken_spec cell q qs
  have hresumes := (s.sfnTaken cell q qs).resumes_sfnGoOn cell
  have hleaves : s.takesResult cell q.thread q.uid = false := by simp only [State.takesResult, hnone]
  have hgone : ((s.sfnTaken cell q qs).sfnGoOn cell).named cell q.thread q.uid = none := by
    refine Option.eq_none_iff_forall_ne_some.mpr fun y hy => ?_
    obtain ⟨hy, huid⟩ := State.named_some.mp hy
    obtain ⟨x, hx, huid', -⟩ := hresumes.thread _ _ hy
    rw [State.named_some.mpr ⟨(hthread _).symm.trans hx, huid'.symm.trans huid⟩] at hnone
    exact absurd hnone (Option.some_ne_none x)
  refine ⟨(s.sfnTaken cell q qs).sfnGoOn cell, ?_, hresumes.mem.trans hmem, hresumes.sfn.trans hqueue, ?_⟩
  · rw [exec_sfnResultLanding_due hsfn hl hdue, hgone]
    rfl
  · rw [hresumes.flights, hflights, hleaves]
    rfl

end Lands

/-! ## Trap entry (R330) -/

theorem Thread.lev_setLev (x : Thread) {n : Nat} (hn : n < 2) (l : TrapLevel) : (x.setLev n l).lev n = l := by
  simp [Thread.lev, Thread.setLev, hn]

/-- A thread that has entered its trap's handler. -/
def Thread.entered (x : Thread) (f : BarrelFault) (ready : Nat) : Thread :=
  { x.setLev x.level { x.lev x.level with cause := f.cause, epc := f.epc, val := f.val } with
    level := x.level + 1, pc := x.tvec + BitVec.ofNat 48 (0x100 * x.level), fault := none, ready := ready }

/-- The state in which the thread of a slot has entered its trap's handler. -/
def State.trapEntered (s : State) (cell thread : Nat) (f : BarrelFault) : State :=
  (s.updThread cell thread fun x => x.entered f (max (f.issued + 8) (s.clk + 1))).issueFrom cell (max (f.issued + 8) (s.clk + 1))

section Traps

variable {thread : Nat} {x : Thread} {f : BarrelFault}

theorem exec_barrelTrapEntry_early (hx : s.thread? cell thread = some x) (hfault : x.fault = some f) (hearly : s.clk < f.detected) :
    exec (.barrelTrapEntry cell thread) s = .next s := by
  show execBarrelTrapEntry cell thread s = _
  simp [execBarrelTrapEntry, hx, hfault, hearly]

/-- A trap that has been detected, none of its thread's special functions queued. -/
theorem exec_barrelTrapEntry_detected (hx : s.thread? cell thread = some x) (hfault : x.fault = some f)
    (hqueued : (s.barrel cell).queued x.uid = false) (hdue : f.detected ≤ s.clk) : exec (.barrelTrapEntry cell thread) s =
      if x.level = 2 then .next (s.killContext x.ctx
        { kind := 8, cause := f.cause, cell, thread, ctx := x.ctx, pc := f.epc.setWidth 64, val := f.val })
      else if x.tvec = 0 then .next (s.killThread cell thread f.cause f.epc f.val true)
      else .next (s.trapEntered cell thread f) := by
  have hgoes : ((s.barrel cell).queued x.uid || decide (s.clk < f.detected)) = false := by simp [hqueued, hdue]
  show execBarrelTrapEntry cell thread s = _
  simp only [execBarrelTrapEntry, hx, hfault, hgoes, beq_iff_eq]
  rfl

theorem barrelTrapEntry_enters (hx : s.thread? cell thread = some x) (hfault : x.fault = some f)
    (hqueued : (s.barrel cell).queued x.uid = false) (hdue : f.detected ≤ s.clk) (hlevel : x.level < 2) (htvec : x.tvec ≠ 0) :
    ∃ t y, exec (.barrelTrapEntry cell thread) s = .next t ∧ t.mem = s.mem ∧ t.cores = s.cores ∧ t.thread? cell thread = some y ∧
      y.fault = none ∧ y.level = x.level + 1 ∧ y.pc = x.tvec + BitVec.ofNat 48 (0x100 * x.level) ∧
      (y.lev x.level).cause = f.cause ∧ (y.lev x.level).epc = f.epc ∧ (y.lev x.level).val = f.val ∧
      (y.lev x.level).scr = (x.lev x.level).scr := by
  have hlev : (x.entered f (max (f.issued + 8) (s.clk + 1))).lev x.level =
      { x.lev x.level with cause := f.cause, epc := f.epc, val := f.val } := x.lev_setLev hlevel _
  refine ⟨s.trapEntered cell thread f, x.entered f (max (f.issued + 8) (s.clk + 1)), ?_, ?_, ?_, ?_, rfl, rfl, rfl, ?_⟩
  · rw [exec_barrelTrapEntry_detected hx hfault hqueued hdue, if_neg (Nat.ne_of_lt hlevel), if_neg htvec]
  · simp [State.trapEntered, State.issueFrom]
  · simp [State.trapEntered, State.issueFrom]
  · exact (State.thread?_at' ..).trans (State.thread?_updThread hx _)
  · rw [hlev]
    exact ⟨rfl, rfl, rfl, rfl⟩

end Traps

/-! ## The end of a context's kill (R344) -/

theorem State.postMessage_cases (s : State) (plate : Nat) (m : Message) :
    ∃ (k : Package) (es : List Event), s.postMessage plate m = { s with pkg := k, events := es } := by
  unfold State.postMessage
  split
  · obtain ⟨es, h⟩ := State.at'_cases (s.updPlate plate fun p => { p with queue := p.queue ++ [m] }) (s.clk + 0) phNet plate
      (.op (.mailboxPost plate))
    exact ⟨_, es, h⟩
  · exact ⟨_, s.events, rfl⟩

/-- Messages to plates change the package and what is due, no more. -/
theorem State.foldl_postMessage_cases (s : State) (ps : List Nat) (m : Nat → Message) :
    ∃ (k : Package) (es : List Event), ps.foldl (fun s p => s.postMessage p (m p)) s = { s with pkg := k, events := es } := by
  refine List.foldlRecOn ps _ (motive := fun u : State => ∃ (k : Package) (es : List Event), u = { s with pkg := k, events := es })
    ⟨s.pkg, s.events, rfl⟩ ?_
  rintro _ ⟨k, es, rfl⟩ p -
  obtain ⟨k', es', h⟩ := State.postMessage_cases { s with pkg := k, events := es } p (m p)
  exact ⟨k', es', h⟩

theorem contextKillComplete_completes {ctx : Nat} {m : Message} (hkill : s.kills.get? ctx = some m) (hgone : s.hasThreads ctx = false) :
    ∃ t, exec (.contextKillComplete ctx) s = .next t ∧ t.kills.get? ctx = none ∧ t.cores = s.cores ∧ t.mem = s.mem ∧
      t.barrels = s.barrels := by
  obtain ⟨k, es, ht⟩ : ∃ (k : Package) (es : List Event), exec (.contextKillComplete ctx) s =
      .next { s with kills := s.kills.erase ctx, pkg := k, events := es } := by
    show ∃ (k : Package) (es : List Event), execContextKillComplete ctx s = _
    simp only [execContextKillComplete, hkill, hgone, Bool.false_eq_true, if_false]
    split
    · obtain ⟨k, es, h⟩ := State.foldl_postMessage_cases { s with kills := s.kills.erase ctx } (s.platesOf ctx) fun _ => m
      exact ⟨k, es, congrArg _ h⟩
    · obtain ⟨k, es, h⟩ := State.foldl_postMessage_cases { s with kills := s.kills.erase ctx } _ fun p =>
        if p == plateOf m.cell then m else { m with cause := 0, cell := 0, thread := 0, pc := 0, val := 0 }
      exact ⟨k, es, congrArg _ h⟩
  exact ⟨_, ht, by rw [Table.get?_erase, if_pos rfl], rfl, rfl, rfl⟩

end Sys2Proof.Machine

/-! SUPPORT. The supervisor mailbox (11_barrel_traps R347), and the events of barrel cores. -/

namespace Sys2Proof.Machine

open Sys2Proof

variable {s t u : State}

/-! ## What the bookkeeping of a write leaves of the mailboxes -/

/-- From `s` to `t` the counter and the full words stay, and of every plate all but the jobs of its dynamic slots. -/
structure State.WritesBack (s t : State) : Prop where
  tick  : t.tick = s.tick
  full  : t.full = s.full
  plate : ∀ p, ∃ js, t.plate p = { s.plate p with dyn := js }

namespace State.WritesBack

theorem refl (s : State) : s.WritesBack s := ⟨rfl, rfl, fun p => ⟨(s.plate p).dyn, rfl⟩⟩

theorem trans (h : s.WritesBack t) (hu : t.WritesBack u) : s.WritesBack u where
  tick := hu.tick.trans h.tick
  full := hu.full.trans h.full
  plate p := by
    obtain ⟨js, ht⟩ := h.plate p
    obtain ⟨ks, hu⟩ := hu.plate p
    exact ⟨ks, by rw [hu, ht]⟩

theorem ite {c : Prop} [Decidable c] (ht : s.WritesBack t) (hu : s.WritesBack u) : s.WritesBack (if c then t else u) := by
  split
  · exact ht
  · exact hu

theorem beside (h : s.WritesBack t) (htick : u.tick = t.tick) (hfull : u.full = t.full) (hplates : u.pkg.plates = t.pkg.plates) :
    s.WritesBack u := h.trans ⟨htick, hfull, fun p => ⟨(t.plate p).dyn, by rw [State.plate, hplates]; rfl⟩⟩

theorem updSlice {k f} (h : s.WritesBack t) : s.WritesBack (t.updSlice k f) := h.beside rfl rfl rfl

theorem settled {line} (h : s.WritesBack t) : s.WritesBack (t.settled line) := h.beside rfl rfl rfl

theorem cleansed {line} (h : s.WritesBack t) : s.WritesBack (t.cleansed line) := h.beside rfl rfl rfl

theorem askHbm {line job} (h : s.WritesBack t) : s.WritesBack (t.askHbm line job) := by
  refine h.trans ⟨rfl, rfl, fun p => ?_⟩
  by_cases hp : stackPlate line = p ∧ p < 4
  · obtain ⟨rfl, hlt⟩ := hp
    exact ⟨_, by rw [State.askHbm, State.plate_updPlate hlt]⟩
  · refine ⟨(t.plate p).dyn, ?_⟩
    rw [State.askHbm, State.plate, State.updPlate, State.updPkg, Vector.getElem?_setIfInBounds]
    split_ifs with heq hlt
    · exact absurd ⟨heq, by omega⟩ hp
    · rw [State.plate, Vector.getElem?_eq_none (by omega)]
    · rfl

theorem pushBack {k line} (h : s.WritesBack t) : s.WritesBack (t.pushBack k line) :=
  ite h.updSlice.settled.updSlice h.updSlice.updSlice.askHbm

theorem takeWay {k line} (h : s.WritesBack t) : s.WritesBack (t.takeWay k line) := by
  refine h.ite (updSlice ?_)
  split
  · exact h
  · exact h.pushBack.ite h.updSlice

theorem through {line ctx agent order} (h : s.WritesBack t) : s.WritesBack (t.through line ctx agent order) := by
  unfold State.through
  exact askHbm (h.beside rfl rfl rfl)

theorem noteWrite {line agent order whole stream} (h : s.WritesBack t) : s.WritesBack (t.noteWrite line agent order whole stream) := by
  unfold State.noteWrite
  extract_lets k s1 s2
  have h2 : s.WritesBack s2 := h.updSlice.cleansed.ite h.updSlice
  refine ite (h.cleansed.ite h) (ite h2 ?_)
  split
  · exact h2.through
  · exact ite h2.settled.updSlice (h2.ite h2.takeWay.updSlice)

theorem writePhys {pa n x agent order stream} (h : s.WritesBack t) : s.WritesBack (t.writePhys pa n x agent order stream) := by
  have hkeep : s.WritesBack (t.keepOld (lineOf pa)) := ite (h.beside rfl rfl rfl) h
  have hwrite : s.WritesBack { t.keepOld (lineOf pa) with mem := (t.keepOld (lineOf pa)).mem.putNum pa n x } := hkeep.beside rfl rfl rfl
  exact ite (hwrite.beside rfl rfl rfl) hwrite.noteWrite

end State.WritesBack

/-! ## An entry of the ring -/

/-- A word written by the mailbox. -/
def State.mailWrite (s : State) (a : Nat) (w : Word) : State := s.writePhys a 8 w.toNat mailboxAgent s.nextId false

theorem State.mailWrite_mem (s : State) (a : Nat) (w : Word) : (s.mailWrite a w).mem = s.mem.putNum a 8 w.toNat :=
  (s.beside_writePhys a 8 w.toNat mailboxAgent s.nextId false).mem

theorem State.mailWrite_cores (s : State) (a : Nat) (w : Word) : (s.mailWrite a w).cores = s.cores :=
  (s.beside_writePhys a 8 w.toNat mailboxAgent s.nextId false).cores

theorem State.WritesBack.mailWrite {a w} (h : s.WritesBack t) : s.WritesBack (t.mailWrite a w) := h.writePhys

/-- The state in which the four words of an entry are written, its first word last (R347). -/
def State.entryWritten (s : State) (e : Nat) (m : Message) (seq : BitVec 16) : State :=
  (((s.mailWrite (e + 8) m.pc).mailWrite (e + 16) m.val).mailWrite (e + 24) s.tick).mailWrite e (m.word0 seq)

theorem State.entryWritten_spec (s : State) (e : Nat) (m : Message) (seq : BitVec 16) :
    s.WritesBack (s.entryWritten e m seq) ∧ (s.entryWritten e m seq).cores = s.cores ∧ (s.entryWritten e m seq).mem =
      (((s.mem.putNum (e + 8) 8 m.pc.toNat).putNum (e + 16) 8 m.val.toNat).putNum (e + 24) 8 s.tick.toNat).putNum e 8 (m.word0 seq).toNat :=
  ⟨(State.WritesBack.refl s).mailWrite.mailWrite.mailWrite.mailWrite, by simp only [State.entryWritten, State.mailWrite_cores],
    by simp only [State.entryWritten, State.mailWrite_mem]⟩

theorem State.unblock_keeps (s : State) (cell n : Nat) : (s.unblock cell n).mem = s.mem ∧ (s.unblock cell n).cores = s.cores ∧
    (s.unblock cell n).full = s.full ∧ (s.unblock cell n).pkg = s.pkg := by
  unfold State.unblock
  split
  · exact ⟨rfl, rfl, rfl, rfl⟩
  · simp [State.issueFrom]

/-- The poster's wake touches threads, what is due and what its thread has yet to see: the memory, the cores, the full words and the package
stay. -/
theorem State.wakeThread_keeps (s : State) (cell n : Nat) : (s.wakeThread cell n none).2.mem = s.mem ∧
    (s.wakeThread cell n none).2.cores = s.cores ∧ (s.wakeThread cell n none).2.full = s.full ∧ (s.wakeThread cell n none).2.pkg = s.pkg := by
  unfold State.wakeThread
  split
  · exact ⟨rfl, rfl, rfl, rfl⟩
  · simp only [Bool.false_eq_true, if_false]
    split
    · exact State.unblock_keeps _ cell n
    · simp

theorem State.fullChanged_books (old s : State) (pa : Nat) : s.Books (old.fullChanged s pa) := (State.Books.refl s).ite (State.Books.refl s).after

theorem State.fullChanged_full (old s : State) (pa : Nat) : (old.fullChanged s pa).full = s.full := by
  unfold State.fullChanged
  split <;> simp

theorem mem_insertNat (k : Nat) (l : List Nat) : k ∈ insertNat k l := by
  induction l with
  | nil => exact List.mem_cons_self
  | cons c l ih =>
    rw [insertNat]
    split_ifs with hlt heq
    · exact List.mem_cons_of_mem _ ih
    · rw [beq_iff_eq.mp heq]
      exact List.mem_cons_self
    · exact List.mem_cons_self

/-! ## A message posted (R347) -/

theorem plate_lt_of_queue {plate : Nat} {m : Message} {ms : List Message} (hqueue : (s.plate plate).queue = m :: ms) : plate < 4 := by
  by_contra h
  rw [State.plate, Vector.getElem?_eq_none (by omega)] at hqueue
  exact absurd hqueue.symm (List.cons_ne_nil _ _)

/-- The address of the next entry of a plate's ring. -/
def Plate.nextEntry (p : Plate) : Nat := scratchBase p.supCell + p.supBox + 32 * p.mbNext

/-- The state in which the poster has taken its oldest message. -/
def State.messageTaken (s : State) (plate : Nat) (ms : List Message) : State := s.updPlate plate fun p => { p with queue := ms }

section Posts

variable {plate : Nat} {m : Message} {ms : List Message}

/-- A post, and the next one due where a message is left. -/
theorem mailboxPost_posts (hqueue : (s.plate plate).queue = m :: ms) : ∃ t, exec (.mailboxPost plate) s = .next t ∧
    ((s.messageTaken plate ms).post plate m).Books t ∧ t.full = ((s.messageTaken plate ms).post plate m).full := by
  have hexec : exec (.mailboxPost plate) s = .next (if ms.isEmpty then (s.messageTaken plate ms).post plate m
      else ((s.messageTaken plate ms).post plate m).after 1 phNet plate (.op (.mailboxPost plate))) := by
    show execMailboxPost plate s = _
    simp only [execMailboxPost, hqueue]
    rfl
  refine ⟨_, hexec, (State.Books.refl _).ite (State.Books.refl _).after, ?_⟩
  split <;> simp

theorem State.plate_messageTaken (hqueue : (s.plate plate).queue = m :: ms) :
    (s.messageTaken plate ms).plate plate = { s.plate plate with queue := ms } := State.plate_updPlate (plate_lt_of_queue hqueue) _

theorem mailboxPost_counts (hqueue : (s.plate plate).queue = m :: ms) (hoff : (s.plate plate).supEn = false) :
    ∃ t, exec (.mailboxPost plate) s = .next t ∧ t.mem = s.mem ∧ t.cores = s.cores ∧ (t.plate plate).queue = ms ∧
      (t.plate plate).mbOff = (s.plate plate).mbOff + 1 := by
  have hplate := State.plate_messageTaken hqueue
  have hpost : (s.messageTaken plate ms).post plate m = (s.messageTaken plate ms).updPlate plate fun p => { p with mbOff := p.mbOff + 1 } := by
    simp only [State.post, hplate, hoff]
    rfl
  obtain ⟨t, ht, hbooks, -⟩ := mailboxPost_posts hqueue
  rw [hpost] at hbooks
  have hcounted := (hbooks.plate plate).trans (State.plate_updPlate (plate_lt_of_queue hqueue) _)
  rw [hplate] at hcounted
  exact ⟨t, ht, hbooks.mem, hbooks.cores, by rw [hcounted], by rw [hcounted]⟩

/-- The state in which a word has become full. -/
def State.filled (s : State) (e : Nat) : State := { s with full := insertNat e s.full }

theorem State.filled_plate (s : State) (e p : Nat) : (s.filled e).plate p = s.plate p := rfl
theorem State.mem_full_filled (s : State) (e : Nat) : e ∈ (s.filled e).full := mem_insertNat e s.full

/-- What a post makes of the state `w` in which it has written its entry: the entry's first word is full, who waits for it is told, the ring
goes on, and the supervisor is woken. -/
def State.entryPosted (s w : State) (plate : Nat) : State :=
  (((s.fullChanged (w.filled (s.plate plate).nextEntry) (s.plate plate).nextEntry).updPlate plate fun p =>
    { p with mbNext := (p.mbNext + 1) % 64, mbSeq := p.mbSeq + 1 }).wakeThread (s.plate plate).supCell (s.plate plate).supThread none).2

theorem State.entryPosted_spec (hplate : plate < 4) (w : State) : (s.entryPosted w plate).mem = w.mem ∧
    (s.entryPosted w plate).cores = w.cores ∧ (s.plate plate).nextEntry ∈ (s.entryPosted w plate).full ∧ (s.entryPosted w plate).plate plate =
      { w.plate plate with mbNext := ((w.plate plate).mbNext + 1) % 64, mbSeq := (w.plate plate).mbSeq + 1 } := by
  have hbooks := s.fullChanged_books (w.filled (s.plate plate).nextEntry) (s.plate plate).nextEntry
  have hfull := s.fullChanged_full (w.filled (s.plate plate).nextEntry) (s.plate plate).nextEntry
  unfold State.entryPosted
  generalize s.fullChanged (w.filled (s.plate plate).nextEntry) (s.plate plate).nextEntry = u at hbooks hfull
  obtain ⟨hmem, hcores, hwfull, hpkg⟩ := State.wakeThread_keeps (u.updPlate plate fun p =>
    { p with mbNext := (p.mbNext + 1) % 64, mbSeq := p.mbSeq + 1 }) (s.plate plate).supCell (s.plate plate).supThread
  refine ⟨hmem.trans hbooks.mem, hcores.trans hbooks.cores, ?_, ?_⟩
  · rw [hwfull, State.updPlate, State.updPkg, hfull]
    exact State.mem_full_filled w _
  · rw [State.plate, hpkg]
    refine (State.plate_updPlate hplate _).trans ?_
    rw [hbooks.plate, State.filled_plate]

/-- A post by any function that writes a word. What a post leaves is proved for every such function, so that the kernel compares no two
forms of the writes inside the fields of a state. -/
def State.postWith (put : State → Nat → Word → State) (s : State) (plate : Nat) (m : Message) : State :=
  let p := s.plate plate
  let mbox := scratchBase p.supCell + p.supBox
  let e := mbox + 32 * p.mbNext
  if !p.supEn then s.updPlate plate fun p => { p with mbOff := p.mbOff + 1 }
  else if s.full.contains e then put s (mbox + 0x800) (word (s.mem.num (mbox + 0x800) 8) + 1)
  else s.entryPosted (put (put (put (put s (e + 8) m.pc) (e + 16) m.val) (e + 24) s.tick) e (m.word0 p.mbSeq)) plate

theorem State.post_eq_postWith (s : State) (plate : Nat) (m : Message) : s.post plate m = State.postWith State.mailWrite s plate m := by
  have hwrite : (fun (s : State) a (w : Word) => s.writePhys a 8 w.toNat mailboxAgent s.nextId false) = State.mailWrite := rfl
  rw [← hwrite]
  rfl

theorem State.post_entry (hon : (s.plate plate).supEn = true) (hfree : (s.plate plate).nextEntry ∉ s.full) : s.post plate m =
    s.entryPosted (s.entryWritten (s.plate plate).nextEntry m (s.plate plate).mbSeq) plate := by
  have hoff : ¬(!(s.plate plate).supEn) = true := by simp [hon]
  have hfull : ¬s.full.contains (s.plate plate).nextEntry = true := by simpa using hfree
  rw [State.post_eq_postWith]
  exact (if_neg hoff).trans (if_neg hfull)

/-- A post of an entry: its words are in the memory, its first word is full, and the ring goes on at the next entry. -/
theorem State.post_entry_spec (hplate : plate < 4) (hon : (s.plate plate).supEn = true) (hfree : (s.plate plate).nextEntry ∉ s.full) :
    let e := (s.plate plate).nextEntry
    (s.post plate m).cores = s.cores ∧ ((s.post plate m).plate plate).queue = (s.plate plate).queue ∧
      ((s.post plate m).plate plate).mbNext = ((s.plate plate).mbNext + 1) % 64 ∧ e ∈ (s.post plate m).full ∧ (s.post plate m).mem =
      (((s.mem.putNum (e + 8) 8 m.pc.toNat).putNum (e + 16) 8 m.val.toNat).putNum (e + 24) 8 s.tick.toNat).putNum e 8
        (m.word0 (s.plate plate).mbSeq).toNat := by
  intro e
  obtain ⟨hback, hcores, hmem⟩ := s.entryWritten_spec e m (s.plate plate).mbSeq
  obtain ⟨hpmem, hpcores, hpfull, hpplate⟩ := State.entryPosted_spec (s := s) hplate (s.entryWritten e m (s.plate plate).mbSeq)
  obtain ⟨js, hkept⟩ := hback.plate plate
  rw [State.post_entry hon hfree, hpplate, hkept]
  exact ⟨hpcores.trans hcores, rfl, rfl, hpfull, hpmem.trans hmem⟩

theorem mailboxPost_enters (hqueue : (s.plate plate).queue = m :: ms) (hon : (s.plate plate).supEn = true)
    (hfree : (s.plate plate).nextEntry ∉ s.full) :
    let e := (s.plate plate).nextEntry
    ∃ t, exec (.mailboxPost plate) s = .next t ∧ t.cores = s.cores ∧ (t.plate plate).queue = ms ∧
      (t.plate plate).mbNext = ((s.plate plate).mbNext + 1) % 64 ∧ e ∈ t.full ∧ t.mem =
      (((s.mem.putNum (e + 8) 8 m.pc.toNat).putNum (e + 16) 8 m.val.toNat).putNum (e + 24) 8 s.tick.toNat).putNum e 8
        (m.word0 (s.plate plate).mbSeq).toNat := by
  intro e
  have hplate := State.plate_messageTaken hqueue
  have hnext : ((s.messageTaken plate ms).plate plate).nextEntry = e := by rw [hplate]; rfl
  have hseq : ((s.messageTaken plate ms).plate plate).mbSeq = (s.plate plate).mbSeq := by rw [hplate]
  obtain ⟨t, ht, hbooks, htfull⟩ := mailboxPost_posts hqueue
  obtain ⟨hcores, htqueue, hmbNext, hfull, hmem⟩ := State.post_entry_spec (m := m) (s := s.messageTaken plate ms) (plate_lt_of_queue hqueue)
    (by rw [hplate]; exact hon) (by rw [hnext]; exact hfree)
  rw [hnext] at hfull hmem
  rw [hseq] at hmem
  rw [hplate] at htqueue hmbNext
  exact ⟨t, ht, hbooks.cores.trans hcores, by rw [hbooks.plate]; exact htqueue, by rw [hbooks.plate]; exact hmbNext, htfull ▸ hfull,
    hbooks.mem.trans hmem⟩

end Posts

/-- Settles O44: each event is the branch that its hypotheses choose, taken together with what it hands on to. -/
theorem barrelEventsComplete : Obligations.BarrelEventsComplete := by
  refine ⟨fun cell k x s hretired hreleased hk hx hcan hfetch hheld hsfn hskip => ?issue,
    fun cell slot base p ps s hretired hreleased hsampler hslot htasks hfit hpaired =>
      taskDispatch_starts hretired hreleased hsampler hslot htasks hfit hpaired,
    fun cell base s hretired hreleased hpending hslot hreserved hfit => ⟨fun hctx => ?waits, fun ctx hctx =>
      samplerStart_starts hretired hreleased hpending hslot hreserved hfit hctx⟩,
    fun cell thread d id j x r s hx hwait hr hdue => exec_samplerMaskTimeout hx hwait hr hdue,
    fun cell q s hq hentered hrate => sfnStart_starts hq hentered hrate,
    fun cell l q qs s hsfn hl hdue => ⟨fun x hx hwait => sfnResultLanding_lands hsfn hl hdue hx hwait,
      fun hnone => sfnResultLanding_drops hsfn hl hdue hnone⟩,
    fun cell thread x f s hx hfault hqueued => ⟨fun hearly => exec_barrelTrapEntry_early hx hfault hearly, fun hdue =>
      ⟨fun hlevel htvec => barrelTrapEntry_enters hx hfault hqueued hdue hlevel htvec, fun hlevel htvec => ?dies, fun hlevel => ?kills⟩⟩,
    fun ctx m s hkill hgone => contextKillComplete_completes hkill hgone,
    fun plate m ms s hqueue => ⟨fun hoff => mailboxPost_counts hqueue hoff, fun hon hfree => mailboxPost_enters hqueue hon hfree⟩⟩
  case issue =>
    obtain ⟨hlast, hmem, hcores, hdue⟩ := s.issueThread_issues cell (Claims.turn s cell k)
    exact ⟨_, barrelIssue_issues hretired hreleased hk hx hcan hfetch hheld hsfn hskip, hlast, hmem, hcores, hdue⟩
  case waits => rw [exec_samplerStart hretired hreleased hpending hslot hreserved hfit, hctx]
  case dies => rw [exec_barrelTrapEntry_detected hx hfault hqueued hdue, if_neg (Nat.ne_of_lt hlevel), if_pos htvec]
  case kills => rw [exec_barrelTrapEntry_detected hx hfault hqueued hdue, if_pos hlevel]

end Sys2Proof.Machine
